-- ==== Sys2Proof/Word.lean ====
section
/-! DEFINITION. The words of the part: bytes and two-byte fields of its frames, robot slots and element indices. -/
namespace Sys2Proof

/-- One byte of a host, radio or bus frame (chapter 11). -/
abbrev Byte := BitVec 8

/-- A two-byte field (chapter 11, field widths). -/
abbrev Half := BitVec 16

/-- A robot slot, 0 to 23 (R45). -/
abbrev Slot := Fin 24

/-- An element index, 0 to 47 (R1). -/
abbrev Index := Fin 48

end Sys2Proof
end

