-- ==== Sys2Proof/Config.lean ====
section
/-! DEFINITION. What one FC-24 fixes and the manual leaves open (a free constant), and the fixed figures of the manual: the sizes of Table 0-1 and the wall times, in slices of 50 microseconds. -/
namespace Sys2Proof.Config

/-- The silicon revision that IDENTIFY returns, "a number from 0 to 255" (R191). A free constant: the manual gives no
value, and nothing in the model can see which it is (assumption 7). -/
opaque siliconRevision : Byte

/-- Places of the outbound frame queue (R185). -/
def outPlaces : Nat := 24
/-- The notice limit of the outbound frame queue (R185). -/
def noticeLimit : Nat := 22
/-- Reply places of the outbound frame queue (R185). -/
def replyPlaces : Nat := 2
/-- Free places a SHEET_PART or a complete SHEET_DONE needs (R176). -/
def sheetRoom : Nat := 6
/-- Entries other than STOP_ALL the transaction queue holds (R90). -/
def busPlaces : Nat := 31
/-- Holds the hold stack holds (R161). -/
def stackPlaces : Nat := 6
/-- Robots a waiting list holds (R19). -/
def waitPlaces : Nat := 4
/-- Elements a robot may hold (R20). -/
def holdLimitPerRobot : Nat := 2
/-- Parts of a sheet send (R175). -/
def sheetParts : Nat := 84

/-- Slices of 50 microseconds in one millisecond (assumption 2). -/
def slicesPerMs : Nat := 20
/-- One tenth of a second, 100 ms (R158). -/
def tenthSlices : Nat := 2000
/-- The turnaround, 0.2 ms (R88). -/
def turnaroundSlices : Nat := 4
/-- A request frame of 5 bytes at 40 microseconds a byte (chapter 11.4). -/
def requestSlices : Nat := 4
/-- The request frame and the reply timeout of 3 ms after it (R87). -/
def replySlices : Nat := 64
/-- The quiet time after a reset, 3.2 ms (R86). -/
def quietSlices : Nat := 64
/-- The FIELD_STOP filter time, 10 ms (R163). -/
def filterSlices : Nat := 200
/-- The longest gap between two bytes of a host frame, 5 ms (R182). -/
def gapSlices : Nat := 100
/-- One second of the host silence limit (R164). -/
def secondSlices : Nat := 20000
/-- Hundredths of a bit the host link sends in one slice at 460800 baud (chapter 10). -/
def linkBitsPerSlice : Nat := 2304
/-- Hundredths of a bit one byte takes on the host link: ten bit times (chapter 10). -/
def linkBitsPerByte : Nat := 1000

end Sys2Proof.Config
end

