-- ==== Sys2Proof/Syntax.lean ====
section
/-! DEFINITION. The commands of the part, one constructor for each row of the operation table. Fields of host requests are the bytes of Table 11-2. -/
namespace Sys2Proof

/-- The window a received radio frame began in, as the module reports it (R70, R72). -/
inductive Window where
  /-- the beacon window of the present cycle -/
  | beacon
  /-- reply slot `k` of the present cycle -/
  | reply (k : Slot)
  /-- the join slot of the present cycle -/
  | join
  /-- the quiet gap of the present cycle -/
  | quiet
  /-- a reception that began before the present cycle started -/
  | earlier
  deriving DecidableEq, Repr

/-- A gate setpoint, and the target of a gate motion (R141, Table 7-4). -/
inductive GateTarget where
  | opening
  | closing
  deriving DecidableEq, Repr

/-- The fields of SET-TIMING, each present or absent (R154, Table 11-2). -/
structure TimingFields where
  interval : Option Byte
  silenceLimit : Option Byte
  dropLimit : Option Byte
  openingTenths : Option Half
  transitionTenths : Option Half
  playTenths : Option Half
  finaleTenths : Option Half
  hostSilence : Option Byte
  deriving DecidableEq, Repr

/-- The fields of DEFINE-ELEMENT (R3, Table 11-2): poll period in units of 10 ms, limits in seconds, and the nine bytes of
the kind part. -/
structure ElementFields where
  index : Byte
  kind : Byte
  address : Byte
  alliance : Byte
  pollPeriod : Byte
  faultHolds : Byte
  holdLimit : Byte
  guardTime : Byte
  kindPart : List Byte
  deriving DecidableEq, Repr

/-- A command of the block: one constructor for each row of spec/opcode_table.json. -/
inductive Instr where
  /-- POWER_ON_RESET (R189) -/
  | powerOnReset
  /-- LINE_RESET (R189) -/
  | lineReset
  /-- RESET_PART_EFFECT (R190) -/
  | resetPartEffect
  /-- HOST_FRAME (R182, R183): bytes received on the host link, each sound and no gap between two of them above 5 ms -/
  | hostFrame (bytes : List Byte)
  /-- HOST_FRAME_GAP_TIMEOUT (R182) -/
  | hostFrameGapTimeout
  /-- FRAME_IN_ASSEMBLY_DISCARDED (R182): the received byte, and whether its stop bit was there -/
  | frameInAssemblyDiscarded (byte : Byte) (stopBit : Bool)
  /-- OUTBOUND_FRAME_SENT (R185) -/
  | outboundFrameSent
  /-- IDENTIFY (R191) -/
  | identify (tag : Byte)
  /-- RESET_PART (R190) -/
  | resetPart (tag : Byte)
  /-- SET_NOTICES (R187) -/
  | setNotices (tag mask : Byte)
  /-- READ_MATCH (R192) -/
  | readMatch (tag : Byte)
  /-- SET_TIMING (R154) -/
  | setTiming (tag : Byte) (fields : TimingFields)
  /-- DEFINE_ELEMENT (R3 to R5) -/
  | defineElement (tag : Byte) (fields : ElementFields)
  /-- REMOVE_ELEMENT (R6) -/
  | removeElement (tag index : Byte)
  /-- ASSIGN_ROBOT (R46) -/
  | assignRobot (tag slot : Byte) (team : Half) (alliance : Byte)
  /-- UNASSIGN_ROBOT (R47) -/
  | unassignRobot (tag slot : Byte)
  /-- ARM (R155) -/
  | arm (tag : Byte)
  /-- START (R156) -/
  | start (tag force : Byte)
  /-- END_MATCH (R159) -/
  | endMatch (tag : Byte)
  /-- CLEAR_MATCH (R160) -/
  | clearMatch (tag : Byte)
  /-- HOLD (R165): the request tag of the frame, and the host's hold tag -/
  | hold (tag holdTag : Byte)
  /-- RESUME (R166) -/
  | resume (tag number : Byte)
  /-- BENCH (R56) -/
  | bench (tag slot seconds : Byte)
  /-- REINSTATE (R58) -/
  | reinstate (tag slot : Byte)
  /-- EJECT (R59) -/
  | eject (tag slot : Byte)
  /-- SIGNAL (R62) -/
  | signal (tag slot setMask clearMask : Byte)
  /-- SET_WINDOW (R115) -/
  | setWindow (tag index control : Byte)
  /-- SET_QUOTA (R124) -/
  | setQuota (tag index quota : Byte)
  /-- SET_LAMP (R127) -/
  | setLamp (tag index mode : Byte)
  /-- SET_GATE (R142) -/
  | setGate (tag index setpoint : Byte)
  /-- DRIVE_CARRIAGE (R148) -/
  | driveCarriage (tag index command direction : Byte)
  /-- READ_ELEMENT (R17) -/
  | readElement (tag index : Byte)
  /-- READ_ROBOT (R65) -/
  | readRobot (tag slot : Byte)
  /-- ADJUST (R173): points signed, two's complement -/
  | adjust (tag row column : Byte) (points : Half)
  /-- SHEET (R174) -/
  | sheet (tag mode order : Byte)
  /-- SHEET_STOP (R177) -/
  | sheetStop (tag : Byte)
  /-- CYCLE_START (R69) -/
  | cycleStart
  /-- ROBOT_SILENT (R54) -/
  | robotSilent (slot : Slot)
  /-- DROP (R55) -/
  | drop (slot : Slot)
  /-- SLOT_FRAME (R74): the window of the reception and the delivered bytes -/
  | slotFrame (window : Window) (frame : List Byte)
  /-- JOIN (R48, R75): the window of the reception and the delivered bytes -/
  | join (window : Window) (frame : List Byte)
  /-- CLAIM (R23): robot slot, request number, element index 0 to 255 -/
  | claim (slot : Slot) (number : BitVec 4) (element : Byte)
  /-- RELEASE (R29) -/
  | release (slot : Slot) (number : BitVec 4) (element : Byte)
  /-- CANCEL (R30) -/
  | cancel (slot : Slot) (number : BitVec 4)
  /-- ACT (R141) -/
  | act (slot : Slot) (number : BitVec 4) (element : Byte) (setpoint : GateTarget)
  /-- ACK_SIGNAL (R63) -/
  | ackSignal (slot : Slot) (number : BitVec 4) (mask : Byte)
  /-- TRANSACTION_SELECT (R93) -/
  | transactionSelect
  /-- TURNAROUND_EXPIRY (R88) -/
  | turnaroundExpiry
  /-- BUS_REPLY (R87): the bytes of the received frame -/
  | busReply (frame : List Byte)
  /-- REPLY_TIMEOUT (R87) -/
  | replyTimeout
  /-- STOP_ALL_SENT (R89) -/
  | stopAllSent
  /-- REFRESH_DUE (R94) -/
  | refreshDue (index : Index)
  /-- REFRESH_POLL_OVERDUE (R95) -/
  | refreshPollOverdue (index : Index)
  /-- BUS_QUIET_TIME_END (R86) -/
  | busQuietTimeEnd
  /-- MATCH_TENTH (R158) -/
  | matchTenth
  /-- CLAIM_EXPIRY (R33) -/
  | claimExpiry (index : Index)
  /-- GUARD_RUN_OUT (R32) -/
  | guardRunOut (index : Index)
  /-- BENCH_ENDED (R57) -/
  | benchEnded (slot : Slot)
  /-- STATION_ACCRUAL_SECOND (R136) -/
  | stationAccrualSecond (index : Index)
  /-- RAN_OUT (R158) -/
  | ranOut
  /-- HOST_SILENCE_EXPIRY (R164) -/
  | hostSilenceExpiry
  /-- FIELD_STOP_LINE_CHANGE (R163): the raw level the line changes to -/
  | fieldStopLineChange (asserted : Bool)
  /-- FIELD_STOP_ASSERTED (R163) -/
  | fieldStopAsserted
  /-- FIELD_STOP_RELEASED (R163) -/
  | fieldStopReleased
  /-- GATE_TRAVEL_LIMIT (R144) -/
  | gateTravelLimit (index : Index)
  deriving DecidableEq, Repr

end Sys2Proof
end

