-- ==== Sys2Proof/Machine/State.lean ====
section
/-! DEFINITION. The state of the part as plain data, block by block (Table 0-2), the frames of its outbound queue, the reasons a step can stop, and the state right after reset. -/
namespace Sys2Proof.Machine

/-! ## Names the blocks share -/

/-- The match phases (Table 8-1). -/
inductive Phase where
  | setup
  | staged
  | opening
  | transition
  | play
  | finale
  | ended
  deriving DecidableEq, Repr

/-- The alliances A to D. An element's NONE and a VACANT slot's absent alliance are `none` of `Option Alliance`. -/
inductive Alliance where
  | a
  | b
  | c
  | d
  deriving DecidableEq, Repr

/-- The element kinds (Table 1-1). -/
inductive Kind where
  | goal
  | gate
  | station
  | carriage
  deriving DecidableEq, Repr

/-- The status codes of Table 10-2, in its order. -/
inductive Status where
  | ok
  | unknownRequest
  | badLength
  | badValue
  | wrongPhase
  | wrongKind
  | noSuchElement
  | noSuchRobot
  | addressInUse
  | teamInUse
  | busy
  | holdFull
  | wrongHold
  | stopActive
  | lampSequence
  | queueFull
  | notReady
  | noImage
  | elementFault
  deriving DecidableEq, Repr

/-- The answer codes of Table 11-7 but NONE, in its order. -/
inductive Answer where
  | wait
  | granted
  | queued
  | alreadyHolder
  | alreadyWaiting
  | guarded
  | tooMany
  | listFull
  | notClaimable
  | notYours
  | elementFault
  | benched
  | notNow
  | noElement
  | released
  | notHolder
  | cancelled
  | notWaiting
  | acked
  | notAGate
  | busy
  | done
  | failed
  | busFull
  deriving DecidableEq, Repr

/-! ## Robot roster (Chapter 3) -/

/-- The robot states (Table 3-1). -/
inductive RobotState where
  | vacant
  | assigned
  | linked
  | ready
  | active
  | benched
  | ejected
  deriving DecidableEq, Repr

/-- The kinds of robot request (Table 3-8). -/
inductive ReqKind where
  | claim
  | release
  | cancel
  | act
  | ackSignal
  deriving DecidableEq, Repr

/-- The open request record (Table 3-8). Its status is PENDING exactly while `answered` is false. -/
structure OpenRequest where
  number : BitVec 4
  kind : ReqKind
  element : Option Byte
  answered : Bool
  code : Answer
  detail : Option Nat
  deriving DecidableEq, Repr

/-- The robot record (Table 3-1); the slot is its place in the roster. -/
structure RobotRecord where
  state : RobotState
  team : Option Half
  alliance : Option Alliance
  robotId : Option Half
  kitRevision : Option Byte
  silent : Bool
  unheard : Nat
  bench : Option Nat
  signals : Byte
  ejectedMark : Bool
  openRequest : Option OpenRequest
  deriving DecidableEq, Repr

/-- The roster: 24 records and the two limits that apply to all slots (R45). -/
structure Roster where
  robots : Vector RobotRecord 24
  silenceLimit : Nat
  dropLimit : Nat
  deriving DecidableEq, Repr

/-! ## Field table (Chapters 1, 2, 6 and 7) -/

/-- Why a record is in FAULT (Table 1-1). -/
inductive FaultReason where
  | missing
  | sensor
  deriving DecidableEq, Repr

/-- The state of a defined record; UNDEFINED is an absent record. The fault reason is present exactly in FAULT. -/
inductive ElementState where
  | probing
  | online
  | fault (reason : FaultReason)
  deriving DecidableEq, Repr

/-- Gate positions (Table 11-8). -/
inductive GatePosition where
  | closed
  | opened
  | moving
  | stopped
  | jammed
  deriving DecidableEq, Repr

/-- A poll reply's reading, by kind (Table 11-8). -/
inductive Reading where
  | goal (counter : Byte) (sensorBreak : Bool)
  | gate (position : GatePosition)
  | station (occupied : Bool)
  | carriage (zone : Fin 8) (front rear encoderFault : Bool) (speed : Int)
  deriving DecidableEq, Repr

/-- The sticky flags (R16). -/
structure Sticky where
  restarted : Bool
  trespass : Bool
  overrange : Bool
  recordFresh : Bool
  overwritten : Bool
  incomplete : Bool
  deriving DecidableEq, Repr

/-- The guard record (Table 2-1). -/
structure Guard where
  slot : Slot
  remaining : Nat
  deriving DecidableEq, Repr

/-- The claim part (Table 2-1). The waiting list is oldest first. -/
structure ClaimPart where
  holder : Option Slot
  heldFor : Nat
  waiting : List Slot
  guardRecord : Option Guard
  deriving DecidableEq, Repr

/-- Who decides a window (Table 6-1). -/
inductive WindowControl where
  | auto
  | forcedOpen
  | forcedClosed
  deriving DecidableEq, Repr

/-- The state of a goal window; a station window is CLOSED or OPEN (Tables 6-1 and 7-1). -/
inductive WindowState where
  | closed
  | opened
  | closing
  deriving DecidableEq, Repr

/-- The lamp modes (Table 6-1). -/
inductive LampMode where
  | auto
  | off
  | on
  deriving DecidableEq, Repr

/-- The closing record (Table 6-3). -/
structure ClosingRecord where
  window : Half
  finalCount : Int
  windowPieces : Nat
  filled : Bool
  overrange : Bool
  incomplete : Bool
  deriving DecidableEq, Repr

/-- The goal kind part (Table 6-1). Bit i of the phase set stands for OPENING, TRANSITION, PLAY, FINALE. The five piece
counters and the window number wrap at 16 bits, so they are bit vectors; window pieces saturate. -/
structure GoalPart where
  phaseSet : BitVec 4
  control : WindowControl
  window : WindowState
  reopenWanted : Bool
  closingInMatch : Bool
  windowNumber : Half
  quota : Nat
  pendingQuota : Option Nat
  count : Int
  filled : Bool
  overrangeNoted : Bool
  windowPieces : Nat
  pointsPerPiece : Nat
  fillBonus : Nat
  lampMode : LampMode
  lit : Bool
  lampResync : Bool
  pieceTotal : Half
  counted : Half
  held : Half
  idle : Half
  unattributed : Half
  record : Option ClosingRecord
  deriving DecidableEq, Repr

/-- The station kind part (Table 7-1). Presence is absent, OCCUPIED (true) or EMPTY (false). -/
structure StationPart where
  phaseSet : BitVec 4
  control : WindowControl
  windowOpen : Bool
  pointsPerSecond : Nat
  accrual : Nat
  presence : Option Bool
  trespassEpisode : Bool
  lampMode : LampMode
  lit : Bool
  lampResync : Bool
  deriving DecidableEq, Repr

/-- Who asked for a transaction (Table 5-1) or a gate motion (Table 7-4). -/
inductive Origin where
  | internal
  | host (tag : Byte)
  | robot (slot : Slot) (number : BitVec 4)
  deriving DecidableEq, Repr

/-- The motion state with the fields present in it: target, origin and travel timer (Table 7-4). The timer counts slices
of wall time since the drive completed. -/
inductive GateMotion where
  | idle
  | sent (target : GateTarget) (origin : Origin)
  | travelling (target : GateTarget) (origin : Origin) (elapsed : Nat)
  deriving DecidableEq, Repr

/-- The gate kind part (Table 7-4). The travel limit is in tenths of a second. -/
structure GatePart where
  position : Option GatePosition
  travelLimit : Nat
  motion : GateMotion
  deriving DecidableEq, Repr

/-- What a carriage does at the end stop it runs into (Table 7-10). -/
inductive EndMode where
  | stop
  | shuttle
  deriving DecidableEq, Repr

/-- The direction of travel (Table 7-10). -/
inductive Direction where
  | forward
  | reverse
  deriving DecidableEq, Repr

/-- Whether and why a carriage moves or stands (Table 7-10). -/
inductive RunState where
  | stopped
  | running
  | parked
  | halted
  deriving DecidableEq, Repr

/-- The carriage kind part (Table 7-10). -/
structure CarriagePart where
  zoneSpeeds : Vector Nat 8
  endMode : EndMode
  direction : Direction
  runState : RunState
  homing : Bool
  speedZone : Option (Fin 8)
  commanded : Int
  speedResync : Bool
  deriving DecidableEq, Repr

/-- The kind part of a record; it carries the record's kind. -/
inductive KindPart where
  | goal (p : GoalPart)
  | gate (p : GatePart)
  | station (p : StationPart)
  | carriage (p : CarriagePart)
  deriving DecidableEq, Repr

/-- A defined element record: common part (Table 1-1), claim part, kind part. The poll period is in milliseconds, hold
limit and guard time in tenths. -/
structure ElementRecord where
  address : Byte
  alliance : Option Alliance
  state : ElementState
  failures : Nat
  epoch : Option Byte
  reading : Option Reading
  pollPeriod : Nat
  faultHolds : Bool
  holdLimit : Nat
  guardTime : Nat
  sticky : Sticky
  claim : ClaimPart
  part : KindPart
  deriving DecidableEq, Repr

/-! ## Element bus (Chapter 5) -/

/-- The poll roles (Table 5-1). -/
inductive PollRole where
  | refresh
  | closing
  deriving DecidableEq, Repr

/-- What a MOTION sets: a gate's target or a carriage's speed (Table 5-1). -/
inductive Motion where
  | gate (target : GateTarget)
  | carriage (speed : Int)
  deriving DecidableEq, Repr

/-- The operation of a transaction with its role or setpoint (Table 5-1). -/
inductive BusOp where
  | poll (role : PollRole)
  | lamp (on : Bool)
  | motion (m : Motion)
  | stopAll
  deriving DecidableEq, Repr

/-- The classes of transactions, highest first (R91). -/
inductive TxClass where
  | safety
  | control
  | refresh
  | cosmetic
  deriving DecidableEq, Repr

/-- A transaction entry (Table 5-1). An absent element is BROADCAST. -/
structure Entry where
  age : Nat
  enteredAt : Nat
  element : Option Index
  op : BusOp
  cls : TxClass
  origin : Origin
  deriving DecidableEq, Repr

/-- The in-flight transaction: its entry's fields, the node address its frame was sent to, the wall time since it started,
and the orphaned mark (R86, R87). -/
structure InFlight where
  entry : Entry
  address : Byte
  elapsed : Nat
  orphaned : Bool
  deriving DecidableEq, Repr

/-- What the EBC keeps for one element index: refresh due time, refresh owed, and the four pending marks (R86). -/
structure Sched where
  due : Option Nat
  owed : Bool
  pollDue : Bool
  closingWanted : Bool
  lampSync : Bool
  carriageSync : Bool
  deriving DecidableEq, Repr

/-- The element bus controller (R86). `turnaround` and `quiet` are present while those times run, with the time elapsed. -/
structure Ebc where
  queue : List Entry
  inFlight : Option InFlight
  turnaround : Option Nat
  quiet : Option Nat
  sched : Vector Sched 48
  nextAge : Nat
  busTx : List Byte
  deriving DecidableEq, Repr

/-! ## Match clock and holds (Chapter 8) -/

/-- The causes of a hold (Table 8-5). -/
inductive HoldCause where
  | fieldStop
  | hostHold
  | elementFault
  | hostLost
  deriving DecidableEq, Repr

/-- A hold record (Table 8-5). -/
structure Hold where
  number : Byte
  cause : HoldCause
  detail : Option Byte
  matchTime : Nat
  phase : Phase
  deriving DecidableEq, Repr

/-- The pending set: at most one hold of each cause but HOST_HOLD (R161). -/
structure PendingSet where
  fieldStop : Bool
  hostLost : Bool
  elementFault : Option Index
  deriving DecidableEq, Repr

/-- The four phase durations in tenths (Table 8-2). -/
structure Durations where
  opening : Nat
  transition : Nat
  play : Nat
  finale : Nat
  deriving DecidableEq, Repr

/-- The match clock and hold stack (R153). The head of `stack` is the top hold. `tenthTimer`, `rawHeld` and
`silenceElapsed` count slices of wall time. -/
structure Mch where
  phase : Phase
  remaining : Nat
  matchTime : Nat
  tenthTimer : Nat
  durations : Durations
  stack : List Hold
  pendingSet : PendingSet
  lastNumber : Byte
  filtered : Bool
  raw : Bool
  rawHeld : Nat
  hostLimit : Nat
  silenceElapsed : Nat
  silenceExpired : Bool
  deriving DecidableEq, Repr

/-! ## Tally (Chapter 9) -/

/-- A tally cell: its value and its saturated mark (R170). -/
structure Cell where
  value : Int
  saturated : Bool
  deriving DecidableEq, Repr

/-- The alliance totals (R172). -/
structure Totals where
  a : Int
  b : Int
  c : Int
  d : Int
  deriving DecidableEq, Repr

/-- The orders of a sheet send (R174). -/
inductive SheetOrder where
  | rows
  | columns
  deriving DecidableEq, Repr

/-- The export image (Table 9-1). -/
structure Image where
  number : Byte
  isFinal : Bool
  phase : Phase
  matchTime : Nat
  cells : Vector Cell 1344
  totals : Totals
  deriving DecidableEq, Repr

/-- A send in flight: its order and the number of parts queued (R170). -/
structure Send where
  order : SheetOrder
  parts : Nat
  deriving DecidableEq, Repr

/-- The tally unit (R170). Cell (row, column) stands at row × 48 + column. -/
structure Tu where
  cells : Vector Cell 1344
  totals : Totals
  image : Option Image
  lastSnapshot : Byte
  sending : Option Send
  finalWait : Option (List Index)
  deriving DecidableEq, Repr

/-! ## Radio cycle (Chapter 4) -/

/-- The answers to a JOIN (Table 3-4). -/
inductive JoinResult where
  | joined (slot : Slot)
  | unknownTeam
  | teamTaken
  deriving DecidableEq, Repr

/-- A join answer with the robot id it answers (R75). -/
structure JoinAnswer where
  robotId : Half
  result : JoinResult
  deriving DecidableEq, Repr

/-- What a robot holds, ascending, and what it waits on with its position (R20). -/
structure ClaimPicture where
  held : List Index
  waited : Option (Index × Nat)
  deriving DecidableEq, Repr

/-- A slot entry of the beacon (Tables 4-5 and 11-6). -/
structure SlotEntry where
  run : Bool
  request : Option OpenRequest
  picture : ClaimPicture
  signals : Byte
  deriving DecidableEq, Repr

/-- The beacon image (R79 to R83). -/
structure Beacon where
  cycle : Half
  phase : Phase
  holdFlag : Bool
  stopFlag : Bool
  remaining : Nat
  joinAnswer : Option JoinAnswer
  slots : List SlotEntry
  deriving DecidableEq, Repr

/-- One row of Table 4-1: a window with its start and its end, in slices from the cycle start. -/
structure WindowBound where
  window : Window
  first : Nat
  afterLast : Nat
  deriving DecidableEq, Repr

/-- What the RCC hands to the radio module at a cycle start (R69). -/
structure RadioOut where
  frame : List Byte
  windows : List WindowBound
  deriving DecidableEq, Repr

/-- The radio cycle controller (R68). -/
structure Rcc where
  cycle : Half
  interval : Nat
  pendingInterval : Option Nat
  beacon : Option Beacon
  joinAnswer : Option JoinAnswer
  takenSlots : Vector Bool 24
  takenJoin : Bool
  firstCycle : Bool
  elapsed : Nat
  radioTx : Option RadioOut
  deriving DecidableEq, Repr

/-! ## Host link (Chapter 10) -/

/-- The recorded reset cause (R189). -/
inductive ResetCause where
  | powerOn
  | resetLine
  | resetRequest
  deriving DecidableEq, Repr

/-- Why a phase was entered (R157). -/
inductive PhaseCause where
  | arm
  | start
  | ranOut
  | endMatch
  | clearMatch
  deriving DecidableEq, Repr

/-- Why a holder was vacated (R37, R38). -/
inductive VacateCause where
  | bench
  | eject
  | drop
  deriving DecidableEq, Repr

/-- The kinds of HOLD notice (Table 8-9). -/
inductive HoldNotice where
  | pushed (number : Byte) (cause : HoldCause) (detail : Option Byte) (depth : Nat)
  | pended (cause : HoldCause) (detail : Option Byte)
  | absorbed (cause : HoldCause) (detail : Option Byte)
  | popped (number : Byte) (cause : HoldCause) (detail : Option Byte) (depth : Nat)
  | cleared (numbers : List Byte) (causes : List HoldCause)
  deriving DecidableEq, Repr

/-- The kinds of ROBOT notice (Table 3-9). -/
inductive RobotNotice where
  | joined (robotId : Half) (kitRevision : Byte)
  | rejoined (robotId : Half) (kitRevision : Byte) (state : RobotState)
  | duplicateTeam (bound offered : Half)
  | ready
  | notReady
  | lateArrival
  | silent (unheard : Nat)
  | heard
  | dropped (former : RobotState)
  | benched (remaining : Nat)
  | benchEnded
  | reinstated
  | ejected (former : RobotState)
  | signalAcknowledged (cleared : Byte)
  deriving DecidableEq, Repr

/-- The kinds of CLAIM notice (Table 2-7). -/
inductive ClaimNotice where
  | granted (index : Index) (slot : Slot) (withdrawn : Option Index)
  | released (index : Index) (slot : Slot)
  | expired (index : Index) (slot : Slot) (guardSet : Nat)
  | vacated (index : Index) (slot : Slot) (cause : VacateCause)
  | promoted (index : Index) (slot : Slot) (left : Nat)
  | cleared (holders waiters : Nat)
  deriving DecidableEq, Repr

/-- The kinds of GOAL notice (Table 6-7). The row of `filled` is absent for NONE. -/
inductive GoalNotice where
  | opened (quota : Nat)
  | filled (row : Option (Fin 28))
  | overrange
  | closed (record : ClosingRecord) (overwritten : Bool)
  deriving DecidableEq, Repr

/-- Why a host gate motion failed (Table 7-13). -/
inductive GateFailure where
  | driveFailed
  | jammed
  | stopped
  | timeout
  deriving DecidableEq, Repr

/-- Why a carriage was stopped (Table 7-13). -/
inductive CarriageStop where
  | encoder
  | missing
  deriving DecidableEq, Repr

/-- The kinds of ELEMENT notice (chapter 11.2). -/
inductive ElementNotice where
  | defined (kind : Kind)
  | removed
  | online
  | restarted
  | fault (reason : FaultReason)
  | restored
  | driveDiscarded (setpoint : Motion)
  | trespass (phase : Phase)
  | gateDone (target : GateTarget) (position : Option GatePosition)
  | gateFailed (target : GateTarget) (position : Option GatePosition) (cause : GateFailure)
  | parked (front : Bool)
  | carriageStopped (cause : CarriageStop)
  deriving DecidableEq, Repr

/-- A notice, or one of the two sheet records (R157, R169, R66, R41, R131, R152, R181). -/
inductive Notice where
  | phase (entered : Phase) (cause : PhaseCause) (matchTime remaining : Nat) (held : Bool)
  | hold (matchTime : Nat) (phase : Phase) (what : HoldNotice)
  | robot (slot : Slot) (what : RobotNotice)
  | claim (what : ClaimNotice)
  | goal (index : Index) (window : Half) (what : GoalNotice)
  | element (index : Index) (what : ElementNotice)
  | snapshotTaken (number : Byte) (phase : Phase) (matchTime : Nat)
  | finalReady (number : Byte) (matchTime : Nat)
  | sheetPart (number : Byte) (order : SheetOrder) (firstCell : Nat) (cells : List Cell)
  | sheetDone (number : Byte) (order : SheetOrder) (isFinal : Bool) (totals : Totals) (parts : Nat) (stopped : Bool)
  deriving DecidableEq, Repr

/-- Every timing setting, as a SET-TIMING reply gives them (R154, assumption 10). -/
structure TimingView where
  interval : Nat
  silenceLimit : Nat
  dropLimit : Nat
  durations : Durations
  hostLimit : Nat
  deriving DecidableEq, Repr

/-- What READ-MATCH shows of an export image (R181). -/
structure ImageView where
  number : Byte
  isFinal : Bool
  phase : Phase
  matchTime : Nat
  deriving DecidableEq, Repr

/-- What READ-MATCH shows of the in-flight transaction (R112). -/
structure InFlightView where
  op : BusOp
  element : Option Index
  orphaned : Bool
  deriving DecidableEq, Repr

/-- The whole-match view of READ-MATCH: the fields of R84, R112, R169, R181 and R192, in that order. -/
structure MatchView where
  cycle : Half
  interval : Nat
  pendingInterval : Option Nat
  safety : Nat
  control : Nat
  refresh : Nat
  cosmetic : Nat
  pollDueMarks : Nat
  closingMarks : Nat
  lampMarks : Nat
  carriageMarks : Nat
  inFlight : Option InFlightView
  phase : Phase
  remaining : Nat
  matchTime : Nat
  durations : Durations
  hostLimit : Nat
  stack : List Hold
  pendingSet : PendingSet
  filtered : Bool
  haltOut : Bool
  silenceRunning : Bool
  silenceElapsed : Nat
  totals : Totals
  image : Option ImageView
  sending : Option Send
  finalWait : Option Nat
  mask : BitVec 7
  replies : Nat
  notices : Nat
  lost : Bool
  cause : ResetCause
  deriving DecidableEq, Repr

/-- The body of a reply after its status byte, by request; `empty` for a refused request and for one whose rule names no
field. -/
inductive ReplyBody where
  | empty
  | identify (revision : Byte) (cause : ResetCause)
  | mask (mask : BitVec 7)
  | timing (view : TimingView)
  | holdNumber (number : Byte)
  | resumed (depth : Nat) (pushed : Option Byte)
  | signals (flags : Byte)
  | window (state : WindowState)
  | quota (applied : Nat) (pending : Option Nat)
  | lamp (mode : LampMode) (lit : Bool)
  | gate (driveQueued : Bool)
  | carriage (runState : RunState) (direction : Direction) (commanded : Int)
  | element (index : Index) (record : ElementRecord)
  | robot (slot : Slot) (record : RobotRecord) (picture : ClaimPicture) (run : Bool)
  | matchView (view : MatchView)
  | adjusted (cell : Cell) (change : Int)
  | sheet (number : Byte) (isFinal : Bool) (parts : Option Nat)
  | sheetStopped (parts : Nat)
  | sheetIdle
  deriving DecidableEq, Repr

/-- A frame of the outbound queue: a reply with its request's KIND and TAG, or a notice or sheet record with its LOST flag
(R185, R186). -/
inductive OutFrame where
  | reply (kind tag : Byte) (status : Status) (body : ReplyBody)
  | notice (lost : Bool) (what : Notice)
  deriving DecidableEq, Repr

/-- The host link port (R182 to R190). -/
structure Hlp where
  rx : List Byte
  rxGap : Nat
  out : List OutFrame
  txBits : Nat
  mask : BitVec 7
  lost : Bool
  cause : ResetCause
  resetRequested : Bool
  hostTx : List Byte
  deriving DecidableEq, Repr

/-! ## The whole part -/

/-- The state of the part, by block (Table 0-2), with the model's wall clock `now` in slices of 50 microseconds and the
queue of commands that wait. -/
structure State where
  hlp : Hlp
  rcc : Rcc
  roster : Roster
  elems : Vector (Option ElementRecord) 48
  ebc : Ebc
  mch : Mch
  tu : Tu
  now : Nat
  pending : List Instr
  deriving DecidableEq, Repr

/-- The reasons a step can stop the part. The manual names none: every command leaves the part working, so no constructor
exists and no step can fault (safe). -/
inductive Fault where
  deriving DecidableEq, Repr

/-- The reasons a command has no meaning in the model. -/
inductive Refusal where
  /-- Raised by an arm of `exec` whose meaning is not written yet; safe, since nothing is claimed of it. -/
  | notModelled (mnemonic : String)
  deriving DecidableEq, Repr

/-- A VACANT robot record (R45). -/
def RobotRecord.vacant : RobotRecord :=
  { state := .vacant, team := none, alliance := none, robotId := none, kitRevision := none, silent := false, unheard := 0,
    bench := none, signals := 0, ejectedMark := false, openRequest := none }

/-- What the EBC keeps for an index with no element and no mark (R86). -/
def Sched.clear : Sched :=
  { due := none, owed := false, pollDue := false, closingWanted := false, lampSync := false, carriageSync := false }

/-- An empty pending set (R153). -/
def PendingSet.empty : PendingSet := { fieldStop := false, hostLost := false, elementFault := none }

/-- A tally cell at 0 with its mark clear (R170). -/
def Cell.zero : Cell := { value := 0, saturated := false }

/-- Alliance totals of 0 (R170). -/
def Totals.zero : Totals := { a := 0, b := 0, c := 0, d := 0 }

/-- The host link port at the end of a reset (R189). The gap and the RESET-PART mark are DEDUCED (assumption 35); `txBits`
and the output latch are the model's own (assumptions 19 and 9). -/
def Hlp.reset (cause : ResetCause) : Hlp :=
  { rx := [], rxGap := 0, out := [], txBits := 0, mask := BitVec.allOnes 7, lost := false, cause := cause,
    resetRequested := false, hostTx := [] }

/-- The radio cycle controller at the end of a reset (R68). The due first cycle and the time since the cycle start are
DEDUCED (assumptions 20 and 35); the output latch is the model's own (assumption 9). -/
def Rcc.reset : Rcc :=
  { cycle := 0, interval := 40, pendingInterval := none, beacon := none, joinAnswer := none,
    takenSlots := Vector.replicate 24 false, takenJoin := false, firstCycle := true, elapsed := 0, radioTx := none }

/-- The roster at the end of a reset (R45). -/
def Roster.reset : Roster :=
  { robots := Vector.replicate 24 RobotRecord.vacant, silenceLimit := 6, dropLimit := 50 }

/-- The element bus controller at the end of a reset (R86). R86 gives the turnaround timer no value after a reset:
DESIGN CHOICE, stopped (assumption 34). It gives the age source no first number either: DESIGN CHOICE, 0 (assumption 21). The
output latch `busTx` is the model's own (assumption 9). -/
def Ebc.reset : Ebc :=
  { queue := [], inFlight := none, turnaround := none, quiet := some 0, sched := Vector.replicate 48 Sched.clear,
    nextAge := 0, busTx := [] }

/-- The match clock and hold stack at the end of a reset, with the raw FIELD_STOP level the pin has (R153). -/
def Mch.reset (raw : Bool) : Mch :=
  { phase := .setup, remaining := 0, matchTime := 0, tenthTimer := 0,
    durations := { opening := 150, transition := 50, play := 1200, finale := 300 }, stack := [],
    pendingSet := PendingSet.empty, lastNumber := 0, filtered := false, raw := raw, rawHeld := 0, hostLimit := 0,
    silenceElapsed := 0, silenceExpired := false }

/-- The tally unit at the end of a reset (R170). -/
def Tu.reset : Tu :=
  { cells := Vector.replicate 1344 Cell.zero, totals := Totals.zero, image := none, lastSnapshot := 0, sending := none,
    finalWait := none }

/-- The part right after a reset of a given cause, with the raw FIELD_STOP level and the waiting commands as they are. -/
def State.afterReset (cause : ResetCause) (raw : Bool) (pending : List Instr) : State :=
  { hlp := Hlp.reset cause, rcc := Rcc.reset, roster := Roster.reset, elems := Vector.replicate 48 none,
    ebc := Ebc.reset, mch := Mch.reset raw, tu := Tu.reset, now := 0, pending := pending }

/-- The part right after a power-on reset, with FIELD_STOP released (assumption 6; the other choices: 8, 9, 21 and 34) and no command waiting. -/
def State.reset : State := State.afterReset .powerOn false []

end Sys2Proof.Machine
end

