-- ==== Sys2Proof/Machine/Ops.lean ====
section
/-! DEFINITION. The named operations over the state that every block shares: setters, lookups, notices and replies entering the outbound queue, walks over the field table and the roster, and the questions asked of the match clock. -/
namespace Sys2Proof.Machine

/-! ## One setter per block -/

/-- The state with another host link port. -/
def State.setHlp (s : State) (h : Hlp) : State := { s with hlp := h }
/-- The state with another radio cycle controller. -/
def State.setRcc (s : State) (r : Rcc) : State := { s with rcc := r }
/-- The state with another roster. -/
def State.setRoster (s : State) (r : Roster) : State := { s with roster := r }
/-- The state with another element bus controller. -/
def State.setEbc (s : State) (e : Ebc) : State := { s with ebc := e }
/-- The state with another match clock and hold stack. -/
def State.setMch (s : State) (m : Mch) : State := { s with mch := m }
/-- The state with another tally unit. -/
def State.setTu (s : State) (t : Tu) : State := { s with tu := t }
/-- The state with another record at one index of the field table. -/
def State.setElem (s : State) (i : Index) (r : Option ElementRecord) : State := { s with elems := s.elems.set i.val r }
/-- The state with another record at one slot of the roster. -/
def State.setRobot (s : State) (k : Slot) (r : RobotRecord) : State :=
  s.setRoster { s.roster with robots := s.roster.robots.set k.val r }
/-- The state with other bus bookkeeping at one index. -/
def State.setSched (s : State) (i : Index) (c : Sched) : State :=
  s.setEbc { s.ebc with sched := s.ebc.sched.set i.val c }

/-! ## Lookups -/

/-- The record at an index; absent when UNDEFINED. -/
def State.elem (s : State) (i : Index) : Option ElementRecord := s.elems[i.val]
/-- The robot record of a slot. -/
def State.robot (s : State) (k : Slot) : RobotRecord := s.roster.robots[k.val]
/-- The bus bookkeeping of an index. -/
def State.sched (s : State) (i : Index) : Sched := s.ebc.sched[i.val]

/-- The index a byte names, when it is not above 47. -/
def indexOf (b : Byte) : Option Index := if h : b.toNat < 48 then some ⟨b.toNat, h⟩ else none
/-- The slot a byte names, when it is not above 23. -/
def slotOf (b : Byte) : Option Slot := if h : b.toNat < 24 then some ⟨b.toNat, h⟩ else none

/-- Change a defined record; an UNDEFINED index is left as it is. -/
def State.modElem (s : State) (i : Index) (f : ElementRecord → ElementRecord) : State :=
  match s.elem i with
  | some r => s.setElem i (some (f r))
  | none => s

/-- Change a robot record. -/
def State.modRobot (s : State) (k : Slot) (f : RobotRecord → RobotRecord) : State := s.setRobot k (f (s.robot k))

/-- Change the bus bookkeeping of an index. -/
def State.modSched (s : State) (i : Index) (f : Sched → Sched) : State := s.setSched i (f (s.sched i))

/-- The indices 0 to 47, ascending. -/
def indices : List Index := List.finRange 48
/-- The slots 0 to 23, ascending. -/
def slots : List Slot := List.finRange 24

/-- Do something at each index, in ascending order. -/
def State.eachIndex (s : State) (f : Index → State → State) : State := indices.foldl (fun t i => f i t) s
/-- Do something at each slot, in ascending order. -/
def State.eachSlot (s : State) (f : Slot → State → State) : State := slots.foldl (fun t k => f k t) s

/-- The kind of a record. -/
def KindPart.kind : KindPart → Kind
  | .goal _ => .goal
  | .gate _ => .gate
  | .station _ => .station
  | .carriage _ => .carriage

/-- The record is in FAULT. -/
def ElementRecord.inFault (r : ElementRecord) : Bool :=
  match r.state with
  | .fault _ => true
  | .probing => false
  | .online => false

/-- The record with another claim part. -/
def ElementRecord.setClaim (r : ElementRecord) (c : ClaimPart) : ElementRecord := { r with claim := c }
/-- The record with another kind part. -/
def ElementRecord.setPart (r : ElementRecord) (p : KindPart) : ElementRecord := { r with part := p }

/-- The goal kind part at an index. -/
def State.goalAt (s : State) (i : Index) : Option GoalPart :=
  match s.elem i with
  | some r => match r.part with
    | .goal p => some p
    | _ => none
  | none => none

/-- The station kind part at an index. -/
def State.stationAt (s : State) (i : Index) : Option StationPart :=
  match s.elem i with
  | some r => match r.part with
    | .station p => some p
    | _ => none
  | none => none

/-- The gate kind part at an index. -/
def State.gateAt (s : State) (i : Index) : Option GatePart :=
  match s.elem i with
  | some r => match r.part with
    | .gate p => some p
    | _ => none
  | none => none

/-- The carriage kind part at an index. -/
def State.carriageAt (s : State) (i : Index) : Option CarriagePart :=
  match s.elem i with
  | some r => match r.part with
    | .carriage p => some p
    | _ => none
  | none => none

/-- Replace the kind part of a defined record. -/
def State.setPart (s : State) (i : Index) (p : KindPart) : State := s.modElem i (·.setPart p)

/-- The robot that holds an element (R42). -/
def State.holder (s : State) (i : Index) : Option Slot := (s.elem i).bind (·.claim.holder)

/-! ## Phases, holds and the stop line -/

/-- OPENING to FINALE: the four match phases. -/
def Phase.inMatch : Phase → Bool
  | .opening | .transition | .play | .finale => true
  | .setup | .staged | .ended => false

/-- STAGED to FINALE. -/
def Phase.stagedToFinale : Phase → Bool
  | .staged | .opening | .transition | .play | .finale => true
  | .setup | .ended => false

/-- The phase is in a phase set, whose bits 0 to 3 stand for OPENING, TRANSITION, PLAY and FINALE (chapter 11). -/
def Phase.inSet (p : Phase) (set : BitVec 4) : Bool :=
  match p with
  | .opening => set.getLsbD 0
  | .transition => set.getLsbD 1
  | .play => set.getLsbD 2
  | .finale => set.getLsbD 3
  | .setup | .staged | .ended => false

/-- The hold stack is non-empty. -/
def State.held (s : State) : Bool := !s.mch.stack.isEmpty

/-- Match time runs: OPENING to FINALE and the hold stack empty (R158). -/
def State.matchRuns (s : State) : Bool := s.mch.phase.inMatch && !s.held

/-- The HALT_OUT line (R167). -/
def State.haltOut (s : State) : Bool := s.held || s.mch.filtered

/-- The host silence timer runs (R164). -/
def State.silenceRunning (s : State) : Bool :=
  s.mch.phase.stagedToFinale && s.mch.hostLimit != 0 && !s.mch.silenceExpired

/-! ## The outbound frame queue (R185, R186) -/

/-- The frame is a reply. -/
def OutFrame.isReply : OutFrame → Bool
  | .reply _ _ _ _ => true
  | .notice _ _ => false

/-- The notices, SHEET_PART and SHEET_DONE records in the queue. -/
def Hlp.notices (h : Hlp) : Nat := h.out.countP (fun f => !f.isReply)
/-- The occupied reply places. -/
def Hlp.replies (h : Hlp) : Nat := h.out.countP OutFrame.isReply

/-- The bit of the notice class mask a notice falls under; absent for SHEET_PART and SHEET_DONE, which pass every mask
(R187). -/
def Notice.classBit : Notice → Option (Fin 7)
  | .phase _ _ _ _ _ => some 0
  | .hold _ _ _ => some 1
  | .robot _ _ => some 2
  | .claim _ => some 3
  | .goal _ _ _ => some 4
  | .element _ _ => some 5
  | .snapshotTaken _ _ _ => some 6
  | .finalReady _ _ => some 6
  | .sheetPart _ _ _ _ => none
  | .sheetDone _ _ _ _ _ _ => none

/-- The notice passes the class mask. -/
def Notice.passes (n : Notice) (mask : BitVec 7) : Bool :=
  match n.classBit with
  | some c => mask.getLsbD c.val
  | none => true

/-- A notice raised (R186, Table 10-3). -/
def Hlp.raise (h : Hlp) (n : Notice) : Hlp :=
  if n.passes h.mask then
    if Config.noticeLimit ≤ h.notices then { h with lost := true }
    else { h with out := h.out ++ [.notice h.lost n], lost := false }
  else h

/-- A notice raised (R186). -/
def State.raise (s : State) (n : Notice) : State := s.setHlp (s.hlp.raise n)

/-- A HOLD notice, with the match time and the phase at the moment it is raised (R169). -/
def State.raiseHold (s : State) (w : HoldNotice) : State := s.raise (.hold s.mch.matchTime s.mch.phase w)
/-- A ROBOT notice (R66). -/
def State.raiseRobot (s : State) (k : Slot) (w : RobotNotice) : State := s.raise (.robot k w)
/-- A CLAIM notice (R41). -/
def State.raiseClaim (s : State) (w : ClaimNotice) : State := s.raise (.claim w)
/-- An ELEMENT notice. -/
def State.raiseElement (s : State) (i : Index) (w : ElementNotice) : State := s.raise (.element i w)

/-- A reply enters the outbound queue in a reply place (R185). -/
def State.queueReply (s : State) (kind tag : Byte) (status : Status) (body : ReplyBody) : State :=
  s.setHlp { s.hlp with out := s.hlp.out ++ [.reply kind tag status body] }

/-! ## Host requests (R183, R184) -/

/-- What an owner makes of a request: the state after it, the status, and the reply's body. -/
structure Answered where
  state : State
  status : Status
  body : ReplyBody

/-- The reply to a request enters the outbound queue in a reply place, after the notices its taking raised (R184, R185). -/
def Answered.send (a : Answered) (kind tag : Byte) : State := a.state.queueReply kind tag a.status a.body

/-- The reply, and behind the reply to a request that was taken what the request sets going (R185). -/
def Answered.sendThen (a : Answered) (kind tag : Byte) (behind : State → State) : State :=
  if a.status = .ok then behind (a.send kind tag) else a.send kind tag

/-- A refusal: the state as it was, a status code, and an empty body (R184). -/
def refuse (s : State) (status : Status) : Answered := { state := s, status := status, body := .empty }

/-- A request taken: OK with the body its rule names. -/
def taken (s : State) (body : ReplyBody) : Answered := { state := s, status := .ok, body := body }

/-- The host silence timer restarts from 0 at a good frame while it is started (R164). -/
def State.restartSilence (s : State) : State :=
  if s.mch.phase.stagedToFinale && s.mch.hostLimit != 0 then
    s.setMch { s.mch with silenceElapsed := 0, silenceExpired := false }
  else s

/-- The HLP dispatches requests: no RESET-PART has been taken (R190). -/
def State.listening (s : State) : Bool := !s.hlp.resetRequested

/-- Both reply places are free or one of them is (R183). -/
def State.replyRoom (s : State) : Bool := decide (s.hlp.replies < Config.replyPlaces)

/-- A good frame arrives (R183, R190): it is discarded unread once RESET-PART has been taken; otherwise the host silence
timer restarts and, when a reply place is free, the request is dispatched and answered. What the request sets going behind
its reply follows (R185). -/
def State.goodFrameThen (s : State) (kind tag : Byte) (owner : State → Answered) (behind : State → State) : State :=
  if s.listening then
    if s.replyRoom then (owner s.restartSilence).sendThen kind tag behind else s.restartSilence
  else s

/-- A good frame whose request sets nothing going behind its reply. -/
def State.goodFrame (s : State) (kind tag : Byte) (owner : State → Answered) : State := s.goodFrameThen kind tag owner id

/-! ## Open requests (R61) -/

/-- A linked robot: LINKED or any state after it in Table 3-1. -/
def RobotState.isLinked : RobotState → Bool
  | .linked | .ready | .active | .benched | .ejected => true
  | .vacant | .assigned => false

/-- The open request of a robot takes an answer as its request is taken (R61). -/
def State.answerNow (s : State) (k : Slot) (code : Answer) (detail : Option Nat) : State :=
  s.modRobot k fun r =>
    { r with openRequest := r.openRequest.map fun o => { o with answered := true, code := code, detail := detail } }

/-- The open request is still the ACT on this element with this number, and PENDING (R61, assumption 22). -/
def OpenRequest.awaits (o : OpenRequest) (i : Index) (number : BitVec 4) : Bool :=
  !o.answered && o.number == number && o.kind == .act && o.element == some (BitVec.ofNat 8 i.val)

/-- An answer given later than the taking of its request: written only while the open request is still the one it was given
for and still PENDING (R61). -/
def State.answerLater (s : State) (k : Slot) (i : Index) (number : BitVec 4) (code : Answer) (detail : Option Nat) : State :=
  match (s.robot k).openRequest with
  | some o => if o.awaits i number then s.answerNow k code detail else s
  | none => s

/-! ## Claims as other blocks see them (R20, R42) -/

/-- The indices a robot holds, ascending (R20). -/
def State.heldBy (s : State) (k : Slot) : List Index := indices.filter fun i => s.holder i == some k

/-- The waiting list of an element; empty for an UNDEFINED record. -/
def State.waiters (s : State) (i : Index) : List Slot :=
  match s.elem i with
  | some r => r.claim.waiting
  | none => []

/-- The element a robot waits on (R20). -/
def State.waitsOn (s : State) (k : Slot) : Option Index := indices.find? fun i => (s.waiters i).contains k

/-- The position of a robot on a waiting list, counted from 1. -/
def positionIn (l : List Slot) (k : Slot) : Nat := l.idxOf k + 1

/-- A robot's claim picture (R20). -/
def State.picture (s : State) (k : Slot) : ClaimPicture :=
  { held := s.heldBy k, waited := (s.waitsOn k).map fun i => (i, positionIn (s.waiters i) k) }

/-- The motion grant: RUN when every condition of R64 holds. -/
def State.runs (s : State) (k : Slot) : Bool :=
  (s.robot k).state == .active && !(s.robot k).silent
    && (s.mch.phase == .opening || s.mch.phase == .play || s.mch.phase == .finale)
    && !s.held && !s.mch.filtered

end Sys2Proof.Machine
end

