-- ==== Sys2Proof/Machine/Flags.lean ====
section
/-! DEFINITION. The flags: the six sticky flags of an element, the eight signal flags of a slot, and the lit state of a lamp. -/
namespace Sys2Proof.Machine

/-! ## Sticky flags (R16) -/

/-- Every flag clear (R4). -/
def Sticky.clear : Sticky :=
  { restarted := false, trespass := false, overrange := false, recordFresh := false, overwritten := false,
    incomplete := false }

/-- READ-ELEMENT clears RESTARTED, TRESPASS, OVERRANGE, RECORD_FRESH and OVERWRITTEN, and leaves INCOMPLETE (R17). -/
def Sticky.afterRead (f : Sticky) : Sticky :=
  { f with restarted := false, trespass := false, overrange := false, recordFresh := false, overwritten := false }

/-- CLEAR-MATCH clears every flag but RESTARTED (R18). -/
def Sticky.afterClearMatch (f : Sticky) : Sticky :=
  { f with trespass := false, overrange := false, recordFresh := false, overwritten := false, incomplete := false }

/-- A capture: OVERWRITTEN is set when RECORD_FRESH still stands, RECORD_FRESH is set, and INCOMPLETE follows the capture
(R118). -/
def Sticky.afterCapture (f : Sticky) (incomplete : Bool) : Sticky :=
  { f with overwritten := f.overwritten || f.recordFresh, recordFresh := true, incomplete := incomplete }

/-- Change the sticky flags of a defined record. -/
def State.modSticky (s : State) (i : Index) (f : Sticky → Sticky) : State :=
  s.modElem i fun r => { r with sticky := f r.sticky }

/-! ## Signal flags (R62, R63) -/

/-- SIGNAL: every flag named in the set mask is set, then every flag named in the clear mask is cleared (R62). -/
def signalFlags (flags setMask clearMask : Byte) : Byte := (flags ||| setMask) &&& ~~~clearMask

/-- ACK-SIGNAL: every flag named in the mask is cleared (R63). -/
def ackFlags (flags mask : Byte) : Byte := flags &&& ~~~mask

/-! ## Lit states (R125, R137) -/

/-- The lit state a lamp mode gives: in AUTO the handler's own condition, in OFF no, in ON yes (Tables 6-5 and 7-2). -/
def LampMode.lit (m : LampMode) (auto : Bool) : Bool :=
  match m with
  | .auto => auto
  | .off => false
  | .on => true

end Sys2Proof.Machine
end

