-- ==== Sys2Proof/Decode.lean ====
section
/-! DEFINITION. Reading bytes: two-byte fields, the CRCs of the three links, and the request codes and bodies of Table 11-2 in both directions. The operation table gives no row bits. -/
namespace Sys2Proof

/-- The command a table word spells. No row of the operation table gives bits, so no word spells one. -/
def decodeTableWord (_nbits _w : Nat) : Option Instr := none

/-! ## Byte order and CRC -/

/-- A two-byte field, most significant byte first (chapter 0.5, byte order). -/
def half (hi lo : Byte) : Half := hi ++ lo

/-- The bytes of a two-byte field. -/
def halfBytes (w : Half) : List Byte := [w.extractLsb' 8 8, w.extractLsb' 0 8]

/-- A number as one byte. -/
def byteOf (n : Nat) : Byte := BitVec.ofNat 8 n

/-- A number as a two-byte field. -/
def halfOf (n : Nat) : List Byte := halfBytes (BitVec.ofNat 16 n)

/-- A signed number as one byte, two's complement (chapter 11). -/
def signedByte (z : Int) : Byte := BitVec.ofInt 8 z

/-- A signed number as a two-byte field, two's complement (chapter 11). -/
def signedHalf (z : Int) : List Byte := halfBytes (BitVec.ofInt 16 z)

/-- A signed number as a four-byte field, two's complement (chapter 11). -/
def signedWord (z : Int) : List Byte :=
  let w := BitVec.ofInt 32 z
  [w.extractLsb' 24 8, w.extractLsb' 16 8, w.extractLsb' 8 8, w.extractLsb' 0 8]

/-- One bit step of a CRC-16 that works most significant bit first. -/
def crcBit (poly crc : Half) : Half :=
  if crc.msb then (crc <<< 1) ^^^ poly else crc <<< 1

/-- One byte of a CRC-16, most significant bit first. -/
def crcByte (poly crc : Half) (b : Byte) : Half :=
  let c := crc ^^^ half b 0#8
  crcBit poly (crcBit poly (crcBit poly (crcBit poly (crcBit poly (crcBit poly (crcBit poly (crcBit poly c)))))))

/-- A CRC-16 over bytes from a start value, with no final inversion. -/
def crc16 (poly start : Half) (bytes : List Byte) : Half := bytes.foldl (crcByte poly) start

/-- The host link's CRC: polynomial 1021h from FFFFh (R183). -/
def hostCrc (bytes : List Byte) : Half := crc16 0x1021#16 0xFFFF#16 bytes
/-- The radio frames' CRC: polynomial 8005h from 0000h (R194). -/
def radioCrc (bytes : List Byte) : Half := crc16 0x8005#16 0#16 bytes
/-- The element bus frames' CRC: polynomial 1021h from 0000h (R195). -/
def busCrc (bytes : List Byte) : Half := crc16 0x1021#16 0#16 bytes

/-- A frame as its bytes before the CRC and the CRC field it carries. -/
def splitCrc (frame : List Byte) : List Byte × List Byte :=
  (frame.take (frame.length - 2), frame.drop (frame.length - 2))

/-- The frame ends in the CRC of the bytes before it. -/
def crcRight (crc : Half) (field : List Byte) : Bool := field == halfBytes crc

/-! ## Requests of the host (Table 11-2) -/

/-- One optional one-byte field of SET-TIMING. -/
def takeByte (present : Bool) (l : List Byte) : Option (Option Byte × List Byte) :=
  match present, l with
  | false, l => some (none, l)
  | true, b :: rest => some (some b, rest)
  | true, [] => none

/-- One optional two-byte field of SET-TIMING. -/
def takeHalf (present : Bool) (l : List Byte) : Option (Option Half × List Byte) :=
  match present, l with
  | false, l => some (none, l)
  | true, hi :: lo :: rest => some (some (half hi lo), rest)
  | true, _ => none

/-- The fields of a SET-TIMING body after its presence byte, whose bits 0 to 7 mark them (Table 11-2). -/
def decodeTiming (presence : Byte) (l : List Byte) : Option TimingFields :=
  (takeByte (presence.getLsbD 0) l).bind fun (interval, l) =>
  (takeByte (presence.getLsbD 1) l).bind fun (silenceLimit, l) =>
  (takeByte (presence.getLsbD 2) l).bind fun (dropLimit, l) =>
  (takeHalf (presence.getLsbD 3) l).bind fun (openingTenths, l) =>
  (takeHalf (presence.getLsbD 4) l).bind fun (transitionTenths, l) =>
  (takeHalf (presence.getLsbD 5) l).bind fun (playTenths, l) =>
  (takeHalf (presence.getLsbD 6) l).bind fun (finaleTenths, l) =>
  (takeByte (presence.getLsbD 7) l).bind fun (hostSilence, l) =>
    if l.isEmpty then
      some { interval, silenceLimit, dropLimit, openingTenths, transitionTenths, playTenths, finaleTenths, hostSilence }
    else none

/-- The presence byte of a SET-TIMING body. -/
def presenceByte (t : TimingFields) : Byte :=
  byteOf (t.interval.isSome.toNat + 2 * t.silenceLimit.isSome.toNat + 4 * t.dropLimit.isSome.toNat
    + 8 * t.openingTenths.isSome.toNat + 16 * t.transitionTenths.isSome.toNat + 32 * t.playTenths.isSome.toNat
    + 64 * t.finaleTenths.isSome.toNat + 128 * t.hostSilence.isSome.toNat)

/-- The bytes of an optional one-byte field of SET-TIMING. -/
def giveByte : Option Byte → List Byte
  | none => []
  | some b => [b]

/-- The bytes of an optional two-byte field of SET-TIMING. -/
def giveHalf : Option Half → List Byte
  | none => []
  | some w => halfBytes w

/-- The body of a SET-TIMING. -/
def encodeTiming (t : TimingFields) : List Byte :=
  presenceByte t :: (giveByte t.interval ++ (giveByte t.silenceLimit ++ (giveByte t.dropLimit
    ++ (giveHalf t.openingTenths ++ (giveHalf t.transitionTenths ++ (giveHalf t.playTenths
    ++ (giveHalf t.finaleTenths ++ giveByte t.hostSilence)))))))

/-- What the HLP's two steps make of a good frame (R184). -/
inductive Decoded where
  /-- the KIND names no request -/
  | unknownRequest
  /-- the body's length does not fit the request -/
  | badLength
  /-- a request, handed to its owner -/
  | request (i : Instr)
  deriving DecidableEq, Repr

/-- The request a KIND, a TAG and a body make, when the body has the length Table 11-2 gives. -/
def decodeBody (kind : Nat) (tag : Byte) (body : List Byte) : Option Instr :=
  match kind with
  | 0x01 => match body with
    | [] => some (.identify tag)
    | _ => none
  | 0x02 => match body with
    | [] => some (.resetPart tag)
    | _ => none
  | 0x03 => match body with
    | presence :: rest => (decodeTiming presence rest).map (.setTiming tag)
    | [] => none
  | 0x04 => match body with
    | [mask] => some (.setNotices tag mask)
    | _ => none
  | 0x05 => match body with
    | index :: kind :: address :: alliance :: pollPeriod :: faultHolds :: holdLimit :: guardTime :: kindPart =>
      if kindPart.length = 9 then
        some (.defineElement tag { index, kind, address, alliance, pollPeriod, faultHolds, holdLimit, guardTime, kindPart })
      else none
    | _ => none
  | 0x06 => match body with
    | [index] => some (.removeElement tag index)
    | _ => none
  | 0x07 => match body with
    | [slot, hi, lo, alliance] => some (.assignRobot tag slot (half hi lo) alliance)
    | _ => none
  | 0x08 => match body with
    | [slot] => some (.unassignRobot tag slot)
    | _ => none
  | 0x09 => match body with
    | [] => some (.arm tag)
    | _ => none
  | 0x0A => match body with
    | [force] => some (.start tag force)
    | _ => none
  | 0x0B => match body with
    | [] => some (.endMatch tag)
    | _ => none
  | 0x0C => match body with
    | [] => some (.clearMatch tag)
    | _ => none
  | 0x0D => match body with
    | [holdTag] => some (.hold tag holdTag)
    | _ => none
  | 0x0E => match body with
    | [number] => some (.resume tag number)
    | _ => none
  | 0x0F => match body with
    | [slot, seconds] => some (.bench tag slot seconds)
    | _ => none
  | 0x10 => match body with
    | [slot] => some (.reinstate tag slot)
    | _ => none
  | 0x11 => match body with
    | [slot] => some (.eject tag slot)
    | _ => none
  | 0x12 => match body with
    | [slot, setMask, clearMask] => some (.signal tag slot setMask clearMask)
    | _ => none
  | 0x13 => match body with
    | [index, control] => some (.setWindow tag index control)
    | _ => none
  | 0x14 => match body with
    | [index, quota] => some (.setQuota tag index quota)
    | _ => none
  | 0x15 => match body with
    | [index, mode] => some (.setLamp tag index mode)
    | _ => none
  | 0x16 => match body with
    | [index, setpoint] => some (.setGate tag index setpoint)
    | _ => none
  | 0x17 => match body with
    | [index, command, direction] => some (.driveCarriage tag index command direction)
    | _ => none
  | 0x18 => match body with
    | [index] => some (.readElement tag index)
    | _ => none
  | 0x19 => match body with
    | [slot] => some (.readRobot tag slot)
    | _ => none
  | 0x1A => match body with
    | [] => some (.readMatch tag)
    | _ => none
  | 0x1B => match body with
    | [row, column, hi, lo] => some (.adjust tag row column (half hi lo))
    | _ => none
  | 0x1C => match body with
    | [mode, order] => some (.sheet tag mode order)
    | _ => none
  | 0x1D => match body with
    | [] => some (.sheetStop tag)
    | _ => none
  | _ => none

/-- The two checks of R184: the KIND names one of the 29 requests, and the body's length fits it. -/
def decodeRequest (kind tag : Byte) (body : List Byte) : Decoded :=
  if kind.toNat = 0 ∨ 0x1D < kind.toNat then .unknownRequest
  else match decodeBody kind.toNat tag body with
    | some i => .request i
    | none => .badLength

/-- The KIND, TAG and body of a host request; none for a command that is no host request (Table 11-2). -/
def encodeRequest : Instr → Option (Byte × Byte × List Byte)
  | .identify tag => some (0x01, tag, [])
  | .resetPart tag => some (0x02, tag, [])
  | .setTiming tag fields => some (0x03, tag, encodeTiming fields)
  | .setNotices tag mask => some (0x04, tag, [mask])
  | .defineElement tag f => some (0x05, tag,
      f.index :: f.kind :: f.address :: f.alliance :: f.pollPeriod :: f.faultHolds :: f.holdLimit :: f.guardTime :: f.kindPart)
  | .removeElement tag index => some (0x06, tag, [index])
  | .assignRobot tag slot team alliance => some (0x07, tag, slot :: (halfBytes team ++ [alliance]))
  | .unassignRobot tag slot => some (0x08, tag, [slot])
  | .arm tag => some (0x09, tag, [])
  | .start tag force => some (0x0A, tag, [force])
  | .endMatch tag => some (0x0B, tag, [])
  | .clearMatch tag => some (0x0C, tag, [])
  | .hold tag holdTag => some (0x0D, tag, [holdTag])
  | .resume tag number => some (0x0E, tag, [number])
  | .bench tag slot seconds => some (0x0F, tag, [slot, seconds])
  | .reinstate tag slot => some (0x10, tag, [slot])
  | .eject tag slot => some (0x11, tag, [slot])
  | .signal tag slot setMask clearMask => some (0x12, tag, [slot, setMask, clearMask])
  | .setWindow tag index control => some (0x13, tag, [index, control])
  | .setQuota tag index quota => some (0x14, tag, [index, quota])
  | .setLamp tag index mode => some (0x15, tag, [index, mode])
  | .setGate tag index setpoint => some (0x16, tag, [index, setpoint])
  | .driveCarriage tag index command direction => some (0x17, tag, [index, command, direction])
  | .readElement tag index => some (0x18, tag, [index])
  | .readRobot tag slot => some (0x19, tag, [slot])
  | .readMatch tag => some (0x1A, tag, [])
  | .adjust tag row column points => some (0x1B, tag, row :: column :: halfBytes points)
  | .sheet tag mode order => some (0x1C, tag, [mode, order])
  | .sheetStop tag => some (0x1D, tag, [])
  | .powerOnReset | .lineReset | .resetPartEffect | .hostFrame _ | .hostFrameGapTimeout => none
  | .frameInAssemblyDiscarded _ _ | .outboundFrameSent | .cycleStart | .robotSilent _ | .drop _ => none
  | .slotFrame _ _ | .join _ _ | .claim _ _ _ | .release _ _ _ | .cancel _ _ | .act _ _ _ _ | .ackSignal _ _ _ => none
  | .transactionSelect | .turnaroundExpiry | .busReply _ | .replyTimeout | .stopAllSent | .refreshDue _ => none
  | .refreshPollOverdue _ | .busQuietTimeEnd | .matchTenth | .claimExpiry _ | .guardRunOut _ | .benchEnded _ => none
  | .stationAccrualSecond _ | .ranOut | .hostSilenceExpiry | .fieldStopLineChange _ | .fieldStopAsserted => none
  | .fieldStopReleased | .gateTravelLimit _ => none

/-- A LEN byte that ends the frame as discarded (R182). -/
def badLen (len : Byte) : Bool := decide (len.toNat < 2) || decide (250 < len.toNat)

/-- A host frame around a KIND, a TAG and a body: SYNC, LEN, and the CRC from LEN on (Table 11-1, R183). -/
def hostFrameBytes (kind tag : Byte) (body : List Byte) : List Byte :=
  let counted := byteOf (body.length + 2) :: kind :: tag :: body
  0x5E#8 :: (counted ++ halfBytes (hostCrc counted))

end Sys2Proof
end

