-- ==== Sys2Proof/Machine/Operands.lean ====
section
/-! DEFINITION. The operand forms: the codes of every enumeration (chapter 11.1 to 11.4), the bytes a request may carry for it, and the settings that a DEFINE-ELEMENT or SET-TIMING carries, checked. -/
namespace Sys2Proof.Machine

/-! ## Codes (chapter 11: the position in the list where the manual first gives it, or the code chapter 11 states) -/

/-- Phase codes (Table 0-3, Table 4-4). -/
def Phase.code : Phase → Byte
  | .setup => 0
  | .staged => 1
  | .opening => 2
  | .transition => 3
  | .play => 4
  | .finale => 5
  | .ended => 6

/-- Kind codes: GOAL 0, GATE 1, STATION 2, CARRIAGE 3. -/
def Kind.code : Kind → Byte
  | .goal => 0
  | .gate => 1
  | .station => 2
  | .carriage => 3

/-- The kind a byte codes. -/
def kindOf (b : Byte) : Option Kind :=
  match b.toNat with
  | 0 => some .goal
  | 1 => some .gate
  | 2 => some .station
  | 3 => some .carriage
  | _ => none

/-- Alliance codes A to D: 1 to 4. -/
def Alliance.code : Alliance → Byte
  | .a => 1
  | .b => 2
  | .c => 3
  | .d => 4

/-- Alliance codes with NONE: 0. -/
def allianceCode : Option Alliance → Byte
  | some alliance => alliance.code
  | none => 0

/-- The value an alliance byte codes: NONE is 0 and A to D are 1 to 4; absent when it codes no value of the list (R193). -/
def allianceOf (b : Byte) : Option (Option Alliance) :=
  match b.toNat with
  | 0 => some none
  | 1 => some (some .a)
  | 2 => some (some .b)
  | 3 => some (some .c)
  | 4 => some (some .d)
  | _ => none

/-- Status codes 00h to 12h in the order of Table 10-2 (R193). -/
def Status.code : Status → Byte
  | .ok => 0x00
  | .unknownRequest => 0x01
  | .badLength => 0x02
  | .badValue => 0x03
  | .wrongPhase => 0x04
  | .wrongKind => 0x05
  | .noSuchElement => 0x06
  | .noSuchRobot => 0x07
  | .addressInUse => 0x08
  | .teamInUse => 0x09
  | .busy => 0x0A
  | .holdFull => 0x0B
  | .wrongHold => 0x0C
  | .stopActive => 0x0D
  | .lampSequence => 0x0E
  | .queueFull => 0x0F
  | .notReady => 0x10
  | .noImage => 0x11
  | .elementFault => 0x12

/-- Answer codes (Table 11-7). -/
def Answer.code : Answer → Byte
  | .wait => 0x01
  | .granted => 0x02
  | .queued => 0x03
  | .alreadyHolder => 0x04
  | .alreadyWaiting => 0x05
  | .guarded => 0x06
  | .tooMany => 0x07
  | .listFull => 0x08
  | .notClaimable => 0x09
  | .notYours => 0x0A
  | .elementFault => 0x0B
  | .benched => 0x0C
  | .notNow => 0x0D
  | .noElement => 0x0E
  | .released => 0x0F
  | .notHolder => 0x10
  | .cancelled => 0x11
  | .notWaiting => 0x12
  | .acked => 0x13
  | .notAGate => 0x14
  | .busy => 0x15
  | .done => 0x16
  | .failed => 0x17
  | .busFull => 0x18

/-- Robot state codes (Table 3-1). -/
def RobotState.code : RobotState → Byte
  | .vacant => 0
  | .assigned => 1
  | .linked => 2
  | .ready => 3
  | .active => 4
  | .benched => 5
  | .ejected => 6

/-- Request kind codes (chapter 11.3). -/
def ReqKind.code : ReqKind → Byte
  | .claim => 1
  | .release => 2
  | .cancel => 3
  | .act => 4
  | .ackSignal => 5

/-- Element state codes: UNDEFINED 0, PROBING 1, ONLINE 2, FAULT 3 (Table 1-1). -/
def ElementState.code : ElementState → Byte
  | .probing => 1
  | .online => 2
  | .fault _ => 3

/-- Fault reason codes (Table 1-1). -/
def FaultReason.code : FaultReason → Byte
  | .missing => 0
  | .sensor => 1

/-- Window control codes (Table 6-1). -/
def WindowControl.code : WindowControl → Byte
  | .auto => 0
  | .forcedOpen => 1
  | .forcedClosed => 2

/-- The window control a byte codes. -/
def windowControlOf (b : Byte) : Option WindowControl :=
  match b.toNat with
  | 0 => some .auto
  | 1 => some .forcedOpen
  | 2 => some .forcedClosed
  | _ => none

/-- Window state codes (Table 6-1). -/
def WindowState.code : WindowState → Byte
  | .closed => 0
  | .opened => 1
  | .closing => 2

/-- Lamp mode codes (Table 6-1). -/
def LampMode.code : LampMode → Byte
  | .auto => 0
  | .off => 1
  | .on => 2

/-- The lamp mode a byte codes. -/
def lampModeOf (b : Byte) : Option LampMode :=
  match b.toNat with
  | 0 => some .auto
  | 1 => some .off
  | 2 => some .on
  | _ => none

/-- Gate setpoint codes: 1 OPEN, 2 CLOSE on every link (chapter 11.1). -/
def gateCode : GateTarget → Byte
  | .opening => 1
  | .closing => 2

/-- The gate setpoint a byte codes. -/
def gateTargetOf (b : Byte) : Option GateTarget :=
  match b.toNat with
  | 1 => some .opening
  | 2 => some .closing
  | _ => none

/-- Gate position codes (Table 11-8). -/
def GatePosition.code : GatePosition → Byte
  | .closed => 0
  | .opened => 1
  | .moving => 2
  | .stopped => 3
  | .jammed => 4

/-- The gate position a byte codes. -/
def gatePositionOf (b : Byte) : Option GatePosition :=
  match b.toNat with
  | 0 => some .closed
  | 1 => some .opened
  | 2 => some .moving
  | 3 => some .stopped
  | 4 => some .jammed
  | _ => none

/-- End mode codes (Table 7-10). -/
def EndMode.code : EndMode → Byte
  | .stop => 0
  | .shuttle => 1

/-- The end mode a byte codes. -/
def endModeOf (b : Byte) : Option EndMode :=
  match b.toNat with
  | 0 => some .stop
  | 1 => some .shuttle
  | _ => none

/-- Direction codes: 0 FORWARD, 1 REVERSE (chapter 11.1). -/
def Direction.code : Direction → Byte
  | .forward => 0
  | .reverse => 1

/-- The direction a byte codes. -/
def directionOf (b : Byte) : Option Direction :=
  match b.toNat with
  | 0 => some .forward
  | 1 => some .reverse
  | _ => none

/-- The DRIVE-CARRIAGE commands. -/
inductive CarriageCommand where
  | run
  | stop
  | home
  deriving DecidableEq, Repr

/-- The command a byte codes: 0 RUN, 1 STOP, 2 HOME (chapter 11.1). -/
def carriageCommandOf (b : Byte) : Option CarriageCommand :=
  match b.toNat with
  | 0 => some .run
  | 1 => some .stop
  | 2 => some .home
  | _ => none

/-- Run state codes (Table 7-10). -/
def RunState.code : RunState → Byte
  | .stopped => 0
  | .running => 1
  | .parked => 2
  | .halted => 3

/-- Hold cause codes (Table 8-5). -/
def HoldCause.code : HoldCause → Byte
  | .fieldStop => 0
  | .hostHold => 1
  | .elementFault => 2
  | .hostLost => 3

/-- Phase cause codes (R157). -/
def PhaseCause.code : PhaseCause → Byte
  | .arm => 0
  | .start => 1
  | .ranOut => 2
  | .endMatch => 3
  | .clearMatch => 4

/-- Vacate cause codes (Table 2-7). -/
def VacateCause.code : VacateCause → Byte
  | .bench => 0
  | .eject => 1
  | .drop => 2

/-- Gate failure codes (Table 7-13). -/
def GateFailure.code : GateFailure → Byte
  | .driveFailed => 0
  | .jammed => 1
  | .stopped => 2
  | .timeout => 3

/-- Carriage stop codes (Table 7-13). -/
def CarriageStop.code : CarriageStop → Byte
  | .encoder => 0
  | .missing => 1

/-- The modes of SHEET (chapter 9.2). -/
inductive SheetMode where
  | snapshot
  | send
  | exportBoth
  deriving DecidableEq, Repr

/-- The SHEET mode a byte codes: SNAPSHOT 0, SEND 1, EXPORT 2. -/
def sheetModeOf (b : Byte) : Option SheetMode :=
  match b.toNat with
  | 0 => some .snapshot
  | 1 => some .send
  | 2 => some .exportBoth
  | _ => none

/-- Sheet order codes: ROWS 0, COLUMNS 1. -/
def SheetOrder.code : SheetOrder → Byte
  | .rows => 0
  | .columns => 1

/-- The sheet order a byte codes. -/
def sheetOrderOf (b : Byte) : Option SheetOrder :=
  match b.toNat with
  | 0 => some .rows
  | 1 => some .columns
  | _ => none

/-- Reset cause codes (R189). -/
def ResetCause.code : ResetCause → Byte
  | .powerOn => 0
  | .resetLine => 1
  | .resetRequest => 2

/-- Bus operation codes (chapter 11.4). -/
def BusOp.code : BusOp → Byte
  | .poll _ => 0x01
  | .lamp _ => 0x02
  | .motion _ => 0x03
  | .stopAll => 0x0F

/-- Poll role codes (Table 5-1). -/
def PollRole.code : PollRole → Byte
  | .refresh => 0
  | .closing => 1

/-- A yes or no byte is 00h or 01h; another has a bit set above the flag it defines (R193). -/
def yesNoOf (b : Byte) : Option Bool :=
  match b.toNat with
  | 0 => some false
  | 1 => some true
  | _ => none

/-- Yes and no as a byte (chapter 11.1). -/
def yesNo : Bool → Byte
  | true => 1
  | false => 0

/-- A phase set byte, bits 0 to 3; absent when a bit above them is set (R193). -/
def phaseSetOf (b : Byte) : Option (BitVec 4) :=
  if b.toNat < 16 then some (b.extractLsb' 0 4) else none

/-- A notice class mask byte, bits 0 to 6; absent when bit 7 is set (R193). -/
def maskOf (b : Byte) : Option (BitVec 7) :=
  if b.toNat < 128 then some (b.extractLsb' 0 7) else none

/-- The signed points of ADJUST; absent for −32768, which no signed two-byte field may hold (R193). -/
def pointsOf (w : Half) : Option Int := if w = 0x8000#16 then none else some w.toInt

/-! ## The settings of DEFINE-ELEMENT (R3, R113, R133, R140, R147) -/

/-- The lit state a lamp starts with: yes for lamp mode ON and no otherwise (R113, R133). -/
def LampMode.startsLit : LampMode → Bool
  | .on => true
  | .auto | .off => false

/-- A goal kind part at its initial values (R113). -/
def goalStart (phaseSet : BitVec 4) (quota pointsPerPiece fillBonus : Nat) (lampMode : LampMode) : GoalPart :=
  { phaseSet, control := .auto, window := .closed, reopenWanted := false, closingInMatch := false, windowNumber := 0,
    quota, pendingQuota := none, count := quota, filled := false, overrangeNoted := false, windowPieces := 0,
    pointsPerPiece, fillBonus, lampMode, lit := lampMode.startsLit, lampResync := false, pieceTotal := 0, counted := 0,
    held := 0, idle := 0, unattributed := 0, record := none }

/-- A station kind part at its initial values (R133). -/
def stationStart (phaseSet : BitVec 4) (pointsPerSecond : Nat) (lampMode : LampMode) : StationPart :=
  { phaseSet, control := .auto, windowOpen := false, pointsPerSecond, accrual := 0, presence := none,
    trespassEpisode := false, lampMode, lit := lampMode.startsLit, lampResync := false }

/-- A gate kind part at its initial values (R140). -/
def gateStart (travelLimit : Nat) : GatePart := { position := none, travelLimit, motion := .idle }

/-- A carriage kind part at its initial values (R147). -/
def carriageStart (zoneSpeeds : Vector Nat 8) (endMode : EndMode) : CarriagePart :=
  { zoneSpeeds, endMode, direction := .forward, runState := .stopped, homing := false, speedZone := none, commanded := 0,
    speedResync := false }

/-- The coding of a kind part's enumeration and flag bytes (R193): phase set and lamp mode of a GOAL or STATION, end mode of
a CARRIAGE. Bytes the kind does not use are not examined. -/
def kindPartCoded (k : Kind) (bytes : List Byte) : Bool :=
  match k, bytes with
  | .goal, [set, _, _, _, lamp, _, _, _, _] => (phaseSetOf set).isSome && (lampModeOf lamp).isSome
  | .station, [set, _, lamp, _, _, _, _, _, _] => (phaseSetOf set).isSome && (lampModeOf lamp).isSome
  | .gate, [_, _, _, _, _, _, _, _, _] => true
  | .carriage, [_, _, _, _, _, _, _, _, mode] => (endModeOf mode).isSome
  | _, _ => false

/-- The kind part a DEFINE-ELEMENT asks for, at its initial values; absent when a setting lies outside its range (R113, R133,
R140, R147; layout in chapter 11.2). A gate's travel limit is in tenths and so takes two bytes (chapter 11.1); the fill bonus,
which the list of widths does not name, is read from one byte (assumption 11). -/
def kindPartOf (k : Kind) (bytes : List Byte) : Option KindPart :=
  match k, bytes with
  | .goal, [set, quota, points, bonus, lamp, _, _, _, _] =>
    match phaseSetOf set, lampModeOf lamp with
    | some set, some lamp =>
      if points.toNat ≤ 100 then some (.goal (goalStart set quota.toNat points.toNat bonus.toNat lamp)) else none
    | _, _ => none
  | .station, [set, points, lamp, _, _, _, _, _, _] =>
    match phaseSetOf set, lampModeOf lamp with
    | some set, some lamp =>
      if points.toNat ≤ 50 then some (.station (stationStart set points.toNat lamp)) else none
    | _, _ => none
  | .gate, [high, low, _, _, _, _, _, _, _] =>
    if 5 ≤ (half high low).toNat ∧ (half high low).toNat ≤ 50 then some (.gate (gateStart (half high low).toNat)) else none
  | .carriage, [z0, z1, z2, z3, z4, z5, z6, z7, mode] =>
    match endModeOf mode with
    | some mode =>
      if z0.toNat ≤ 100 ∧ z1.toNat ≤ 100 ∧ z2.toNat ≤ 100 ∧ z3.toNat ≤ 100 ∧ z4.toNat ≤ 100 ∧ z5.toNat ≤ 100
          ∧ z6.toNat ≤ 100 ∧ z7.toNat ≤ 100 then
        some (.carriage (carriageStart
          #v[z0.toNat, z1.toNat, z2.toNat, z3.toNat, z4.toNat, z5.toNat, z6.toNat, z7.toNat] mode))
      else none
    | none => none
  | _, _ => none

/-- The poll period in milliseconds of a DEFINE-ELEMENT: 0 selects 100 ms, otherwise 20 to 1000 ms in steps of 10 (R3,
chapter 11.2). -/
def pollPeriodOf (b : Byte) : Option Nat :=
  if b.toNat = 0 then some 100 else if 2 ≤ b.toNat ∧ b.toNat ≤ 100 then some (b.toNat * 10) else none

/-- An element is claimable: a GATE, a STATION, or a GOAL whose alliance is NONE (R21). -/
def claimable (k : Kind) (alliance : Option Alliance) : Bool :=
  match k with
  | .gate | .station => true
  | .goal => alliance.isNone
  | .carriage => false

/-- The bytes of a DEFINE-ELEMENT pass the coding check of R193. A byte that codes no kind is left to R3. -/
def fieldsCoded (f : ElementFields) : Bool :=
  (allianceOf f.alliance).isSome && (yesNoOf f.faultHolds).isSome
    && match kindOf f.kind with
      | some k => kindPartCoded k f.kindPart
      | none => true

/-- The index and the record a DEFINE-ELEMENT asks for, or none when the second row of Table 1-2 answers BAD_VALUE (R3, R4). -/
def recordOf (f : ElementFields) : Option (Index × ElementRecord) :=
  match indexOf f.index, kindOf f.kind, allianceOf f.alliance, pollPeriodOf f.pollPeriod, yesNoOf f.faultHolds with
  | some i, some k, some alliance, some period, some faultHolds =>
    if f.address.toNat = 0 ∨ 63 < f.address.toNat then none
    else if k = .carriage ∧ alliance ≠ none then none
    else if 120 < f.holdLimit.toNat ∨ 30 < f.guardTime.toNat then none
    else if claimable k alliance = false ∧ (f.holdLimit.toNat ≠ 0 ∨ f.guardTime.toNat ≠ 0) then none
    else match kindPartOf k f.kindPart with
      | some part => some (i,
          { address := f.address, alliance := alliance, state := .probing, failures := 0, epoch := none, reading := none,
            pollPeriod := period, faultHolds := faultHolds, holdLimit := f.holdLimit.toNat * 10,
            guardTime := f.guardTime.toNat * 10,
            sticky := { restarted := false, trespass := false, overrange := false, recordFresh := false,
                        overwritten := false, incomplete := false },
            claim := { holder := none, heldFor := 0, waiting := [], guardRecord := none },
            part := part })
      | none => none
  | _, _, _, _, _ => none

/-! ## The settings of SET-TIMING (R154, R71) -/

/-- A present one-byte field lies in its range; an absent one passes. -/
def byteIn (lo hi : Nat) : Option Byte → Bool
  | some b => decide (lo ≤ b.toNat) && decide (b.toNat ≤ hi)
  | none => true

/-- A present two-byte field lies in its range; an absent one passes. -/
def halfIn (lo hi : Nat) : Option Half → Bool
  | some w => decide (lo ≤ w.toNat) && decide (w.toNat ≤ hi)
  | none => true

/-- A present one-byte field, or the stored value. -/
def byteOr (stored : Nat) : Option Byte → Nat
  | some b => b.toNat
  | none => stored

/-- A present two-byte field, or the stored value. -/
def halfOr (stored : Nat) : Option Half → Nat
  | some w => w.toNat
  | none => stored

/-- Every present field of a SET-TIMING lies in its range, and the drop limit is greater than the silence limit, an absent
limit taken at its stored value (R154). -/
def timingInRange (t : TimingFields) (r : Roster) : Bool :=
  byteIn 35 100 t.interval && byteIn 3 20 t.silenceLimit && byteIn 10 250 t.dropLimit
    && halfIn 0 600 t.openingTenths && halfIn 0 150 t.transitionTenths && halfIn 100 3000 t.playTenths
    && halfIn 0 600 t.finaleTenths && byteIn 0 30 t.hostSilence
    && decide (byteOr r.silenceLimit t.silenceLimit < byteOr r.dropLimit t.dropLimit)

end Sys2Proof.Machine
end

