-- ==== Sys2Proof/Machine/Frames.lean ====
section
/-! DEFINITION. The bytes of the frames the part sends: replies, notices and sheet records on the host link, the beacon, and the request frames of the element bus (chapter 11). -/
namespace Sys2Proof.Machine

/-! ## Absent values and lists (chapter 11.1) -/

/-- A one-byte field that may be absent: FFh when it is. -/
def orFF : Option Byte → Byte
  | some b => b
  | none => 0xFF

/-- A two-byte field that may be absent: FFFFh when it is. -/
def orFFFF : Option Nat → List Byte
  | some n => halfOf n
  | none => [0xFF, 0xFF]

/-- A record that may be absent: a presence byte, then the record's fields when it is present. -/
def presence : Option (List Byte) → List Byte
  | some bytes => 0x01 :: bytes
  | none => [0x00]

/-- A list of varying length: a count byte, then its items. -/
def counted (items : List (List Byte)) : List Byte := byteOf items.length :: items.flatten

/-- An index as a byte. -/
def indexByte (i : Index) : Byte := byteOf i.val
/-- A slot as a byte. -/
def slotByte (k : Slot) : Byte := byteOf k.val

/-- Whole tenths of a second in a number of slices. -/
def tenthsOf (slices : Nat) : Nat := slices / Config.tenthSlices

/-! ## Element and robot records -/

/-- A reading's bytes (Table 11-8). -/
def Reading.bytes : Reading → List Byte
  | .goal counter sensorBreak => [counter, yesNo sensorBreak]
  | .gate position => [position.code]
  | .station occupied => [yesNo occupied]
  | .carriage zone front rear encoderFault speed =>
    [byteOf zone.val, byteOf (front.toNat + 2 * rear.toNat + 4 * encoderFault.toNat), signedByte speed]

/-- The closing record's fields (Table 6-3). -/
def ClosingRecord.bytes (r : ClosingRecord) : List Byte :=
  halfBytes r.window ++ signedHalf r.finalCount ++ halfOf r.windowPieces
    ++ [yesNo r.filled, yesNo r.overrange, yesNo r.incomplete]

/-- The origin of a gate motion: the code of its row in Table 5-1, then the tag, or the slot and the request number. -/
def Origin.bytes : Origin → List Byte
  | .internal => [0]
  | .host tag => [1, tag]
  | .robot slot number => [2, slotByte slot, byteOf number.toNat]

/-- The fields of a kind part in the order of its table (R132, R152). The fill bonus, which chapter 11.1's list of widths does
not name, takes one byte (assumption 11). -/
def KindPart.bytes : KindPart → List Byte
  | .goal p =>
    [byteOf p.phaseSet.toNat, p.control.code, p.window.code, yesNo p.reopenWanted, yesNo p.closingInMatch]
      ++ halfBytes p.windowNumber ++ [byteOf p.quota, orFF (p.pendingQuota.map byteOf)] ++ signedHalf p.count
      ++ [yesNo p.filled, yesNo p.overrangeNoted] ++ halfOf p.windowPieces
      ++ [byteOf p.pointsPerPiece, byteOf p.fillBonus, p.lampMode.code, yesNo p.lit, yesNo p.lampResync]
      ++ halfBytes p.pieceTotal ++ halfBytes p.counted ++ halfBytes p.held ++ halfBytes p.idle
      ++ halfBytes p.unattributed ++ presence (p.record.map ClosingRecord.bytes)
  | .station p =>
    [byteOf p.phaseSet.toNat, p.control.code, yesNo p.windowOpen, byteOf p.pointsPerSecond] ++ halfOf p.accrual
      ++ [orFF (p.presence.map yesNo), yesNo p.trespassEpisode, p.lampMode.code, yesNo p.lit, yesNo p.lampResync]
  | .gate p =>
    [orFF (p.position.map GatePosition.code)] ++ halfOf p.travelLimit
      ++ match p.motion with
        | .idle => [0, 0xFF] ++ presence none ++ orFFFF none
        | .sent target origin => [1, gateCode target] ++ presence (some origin.bytes) ++ orFFFF none
        | .travelling target origin elapsed =>
          [2, gateCode target] ++ presence (some origin.bytes) ++ orFFFF (some (tenthsOf elapsed))
  | .carriage p =>
    p.zoneSpeeds.toList.map byteOf
      ++ [p.endMode.code, p.direction.code, p.runState.code, yesNo p.homing,
          orFF (p.speedZone.map fun z => byteOf z.val), signedByte p.commanded, yesNo p.speedResync]

/-- The claim part's fields (Table 2-1). -/
def ClaimPart.bytes (c : ClaimPart) : List Byte :=
  [orFF (c.holder.map slotByte)] ++ halfOf c.heldFor ++ counted (c.waiting.map fun k => [slotByte k])
    ++ presence (c.guardRecord.map fun g => slotByte g.slot :: halfOf g.remaining)

/-- The fault reason of a state. -/
def ElementState.reason : ElementState → Option FaultReason
  | .fault reason => some reason
  | .probing | .online => none

/-- The sticky flags in the order of Table 1-1. -/
def Sticky.bytes (f : Sticky) : List Byte :=
  [yesNo f.restarted, yesNo f.trespass, yesNo f.overrange, yesNo f.recordFresh, yesNo f.overwritten, yesNo f.incomplete]

/-- A whole element record in the order of R17. The last reading, absent before the first completed poll, has a presence byte
before it for every kind, the one-byte readings of gates and stations among them (assumption 11). -/
def ElementRecord.bytes (i : Index) (r : ElementRecord) : List Byte :=
  [indexByte i, r.part.kind.code, r.address, allianceCode r.alliance, r.state.code,
      orFF (r.state.reason.map FaultReason.code), byteOf r.failures, orFF r.epoch]
    ++ presence (r.reading.map Reading.bytes)
    ++ [byteOf (r.pollPeriod / 10), yesNo r.faultHolds] ++ halfOf r.holdLimit ++ halfOf r.guardTime
    ++ r.sticky.bytes ++ r.claim.bytes ++ r.part.bytes

/-- The open request's fields (Table 3-8). -/
def OpenRequest.bytes (o : OpenRequest) : List Byte :=
  [byteOf o.number.toNat, o.kind.code, orFF o.element, yesNo o.answered, o.code.code] ++ orFFFF o.detail

/-- A robot record, its claim picture and its grant in the order of R65. An absent waited element and its position are FFh each, as
in the beacon's slot entry, with no presence byte before them (assumption 11). -/
def RobotRecord.bytes (k : Slot) (r : RobotRecord) (p : ClaimPicture) (run : Bool) : List Byte :=
  [slotByte k, r.state.code] ++ orFFFF (r.team.map BitVec.toNat) ++ [orFF (r.alliance.map Alliance.code)]
    ++ orFFFF (r.robotId.map BitVec.toNat) ++ [orFF r.kitRevision, yesNo r.silent, byteOf r.unheard] ++ orFFFF r.bench
    ++ [r.signals, yesNo r.ejectedMark] ++ presence (r.openRequest.map OpenRequest.bytes)
    ++ counted (p.held.map fun i => [indexByte i])
    ++ (match p.waited with
        | some (i, position) => [indexByte i, byteOf position]
        | none => [0xFF, 0xFF])
    ++ [yesNo run]

/-! ## Replies -/

/-- The part name (R191): its eleven characters in ASCII, with no count before and no terminator or padding after them, since
chapter 11.1 codes no text (assumption 11). -/
def partName : List Byte := [0x52, 0x6F, 0x6A, 0x61, 0x7A, 0x20, 0x46, 0x43, 0x2D, 0x32, 0x34]

/-- The four totals, four bytes each. -/
def Totals.bytes (t : Totals) : List Byte := signedWord t.a ++ signedWord t.b ++ signedWord t.c ++ signedWord t.d

/-- The four durations, two bytes each. -/
def Durations.bytes (d : Durations) : List Byte := halfOf d.opening ++ halfOf d.transition ++ halfOf d.play ++ halfOf d.finale

/-- A hold record's fields (Table 8-5). -/
def Hold.bytes (h : Hold) : List Byte :=
  [h.number, h.cause.code, orFF h.detail] ++ halfOf h.matchTime ++ [h.phase.code]

/-- The pending set as a list of causes and details, in the order of the causes. -/
def PendingSet.list (p : PendingSet) : List (HoldCause × Option Byte) :=
  (if p.fieldStop then [(.fieldStop, none)] else [])
    ++ (match p.elementFault with
        | some i => [(.elementFault, some (indexByte i))]
        | none => [])
    ++ (if p.hostLost then [(.hostLost, none)] else [])

/-- The poll role of an operation. -/
def BusOp.role : BusOp → Option PollRole
  | .poll role => some role
  | .lamp _ | .motion _ | .stopAll => none

/-- The whole-match view in the order of R192. The number of goals still awaited takes one byte, as do the numbers of queued
entries, pending marks, replies and notices: chapter 11.1's list of widths names none of them (assumption 11). -/
def MatchView.bytes (v : MatchView) : List Byte :=
  halfBytes v.cycle ++ [byteOf v.interval, orFF (v.pendingInterval.map byteOf)]
    ++ [byteOf v.safety, byteOf v.control, byteOf v.refresh, byteOf v.cosmetic]
    ++ [byteOf v.pollDueMarks, byteOf v.closingMarks, byteOf v.lampMarks, byteOf v.carriageMarks]
    ++ presence (v.inFlight.map fun f =>
        [f.op.code, orFF (f.element.map indexByte), orFF (f.op.role.map PollRole.code), yesNo f.orphaned])
    ++ [v.phase.code] ++ halfOf v.remaining ++ halfOf v.matchTime ++ v.durations.bytes ++ [byteOf v.hostLimit]
    ++ counted (v.stack.reverse.map Hold.bytes)
    ++ counted (v.pendingSet.list.map fun h => [h.1.code, orFF h.2])
    ++ [yesNo v.filtered, yesNo v.haltOut, yesNo v.silenceRunning] ++ halfOf (tenthsOf v.silenceElapsed)
    ++ v.totals.bytes
    ++ presence (v.image.map fun m => [m.number, yesNo m.isFinal, m.phase.code] ++ halfOf m.matchTime)
    ++ presence (v.sending.map fun d => [d.order.code, byteOf d.parts])
    ++ presence (v.finalWait.map fun n => [byteOf n])
    ++ [v.mask.setWidth 8, byteOf v.replies, byteOf v.notices, yesNo v.lost, v.cause.code]

/-- A reply's fields after its status byte (R193). The silicon revision, a number from 0 to 255 (R191), takes one byte. The
change made of an ADJUST reply takes two signed bytes, as the cell value beside it: chapter 11.1's list of widths names neither
(assumption 11). -/
def ReplyBody.bytes : ReplyBody → List Byte
  | .empty => []
  | .identify revision cause => partName ++ [revision, cause.code]
  | .mask m => [m.setWidth 8]
  | .timing v => [byteOf v.interval, byteOf v.silenceLimit, byteOf v.dropLimit] ++ v.durations.bytes ++ [byteOf v.hostLimit]
  | .holdNumber number => [number]
  | .resumed depth pushed => [byteOf depth, orFF pushed]
  | .signals flags => [flags]
  | .window state => [state.code]
  | .quota applied pending => [byteOf applied, orFF (pending.map byteOf)]
  | .lamp mode lit => [mode.code, yesNo lit]
  | .gate driveQueued => [yesNo driveQueued]
  | .carriage runState direction commanded => [runState.code, direction.code, signedByte commanded]
  | .element i r => r.bytes i
  | .robot k r p run => r.bytes k p run
  | .matchView v => v.bytes
  | .adjusted cell change => signedHalf cell.value ++ [yesNo cell.saturated] ++ signedHalf change
  | .sheet number isFinal parts => [number, yesNo isFinal, orFF (parts.map byteOf)]
  | .sheetStopped parts => [byteOf parts, yesNo false]
  | .sheetIdle => [0xFF, yesNo true]

/-! ## Notices -/

/-- The setpoint byte of a MOTION (chapter 11.4). -/
def Motion.setpoint : Motion → Byte
  | .gate target => gateCode target
  | .carriage speed => signedByte speed

/-- A HOLD notice's kind and its further fields (Table 8-9). -/
def HoldNotice.bytes : HoldNotice → Byte × List Byte
  | .pushed number cause detail depth => (0, [number, cause.code, orFF detail, byteOf depth])
  | .pended cause detail => (1, [cause.code, orFF detail])
  | .absorbed cause detail => (2, [cause.code, orFF detail])
  | .popped number cause detail depth => (3, [number, cause.code, orFF detail, byteOf depth])
  | .cleared numbers causes => (4, counted (numbers.map fun n => [n]) ++ counted (causes.map fun c => [c.code]))

/-- A ROBOT notice's kind and its further fields (Table 3-9). -/
def RobotNotice.bytes : RobotNotice → Byte × List Byte
  | .joined robotId kitRevision => (0, halfBytes robotId ++ [kitRevision])
  | .rejoined robotId kitRevision state => (1, halfBytes robotId ++ [kitRevision, state.code])
  | .duplicateTeam bound offered => (2, halfBytes bound ++ halfBytes offered)
  | .ready => (3, [])
  | .notReady => (4, [])
  | .lateArrival => (5, [])
  | .silent unheard => (6, [byteOf unheard])
  | .heard => (7, [])
  | .dropped former => (8, [former.code])
  | .benched remaining => (9, halfOf remaining)
  | .benchEnded => (10, [])
  | .reinstated => (11, [])
  | .ejected former => (12, [former.code])
  | .signalAcknowledged cleared => (13, [cleared])

/-- A CLAIM notice's kind and its fields (Table 2-7). -/
def ClaimNotice.bytes : ClaimNotice → Byte × List Byte
  | .granted i k withdrawn => (0, [indexByte i, slotByte k, orFF (withdrawn.map indexByte)])
  | .released i k => (1, [indexByte i, slotByte k])
  | .expired i k guardSet => (2, [indexByte i, slotByte k] ++ halfOf guardSet)
  | .vacated i k cause => (3, [indexByte i, slotByte k, cause.code])
  | .promoted i k left => (4, [indexByte i, slotByte k, byteOf left])
  | .cleared holders waiters => (5, [byteOf holders, byteOf waiters])

/-- A GOAL notice's kind and its further fields (Table 6-7). -/
def GoalNotice.bytes : GoalNotice → Byte × List Byte
  | .opened quota => (0, [byteOf quota])
  | .filled row => (1, [orFF (row.map fun r => byteOf r.val)])
  | .overrange => (2, [])
  | .closed r overwritten => (3, signedHalf r.finalCount ++ halfOf r.windowPieces
      ++ [yesNo r.filled, yesNo r.overrange, yesNo r.incomplete, yesNo overwritten])

/-- An ELEMENT notice's kind and its further fields (chapter 11.2, Table 7-13). -/
def ElementNotice.bytes : ElementNotice → Byte × List Byte
  | .defined kind => (0, [kind.code])
  | .removed => (1, [])
  | .online => (2, [])
  | .restarted => (3, [])
  | .fault reason => (4, [reason.code])
  | .restored => (5, [])
  | .driveDiscarded setpoint => (6, [setpoint.setpoint])
  | .trespass at_ => (7, [at_.code])
  | .gateDone target position => (8, [gateCode target, orFF (position.map GatePosition.code)])
  | .gateFailed target position cause => (9, [gateCode target, orFF (position.map GatePosition.code), cause.code])
  | .parked front => (10, [if front then 0 else 1])
  | .carriageStopped cause => (11, [cause.code])

/-- The saturated marks of a part: bit i is the cell at first index + i (Table 11-3). -/
def marks (cells : List Cell) : Nat := cells.foldr (fun c n => c.saturated.toNat + 2 * n) 0

/-- A notice frame's KIND and its body after the flags byte (chapter 11.2, Table 11-3). -/
def Notice.bytes : Notice → Byte × List Byte
  | Notice.phase entered cause matchTime remaining held =>
    (0x41, [0, entered.code, cause.code] ++ halfOf matchTime ++ halfOf remaining ++ [yesNo held])
  | .hold matchTime at_ what =>
    (0x42, what.bytes.1 :: (halfOf matchTime ++ [at_.code] ++ what.bytes.2))
  | .robot k what => (0x43, what.bytes.1 :: slotByte k :: what.bytes.2)
  | .claim what => (0x44, what.bytes.1 :: what.bytes.2)
  | .goal i window what => (0x45, what.bytes.1 :: indexByte i :: (halfBytes window ++ what.bytes.2))
  | .element i what => (0x46, what.bytes.1 :: indexByte i :: what.bytes.2)
  | .snapshotTaken number at_ matchTime => (0x47, [0, number, at_.code] ++ halfOf matchTime)
  | .finalReady number matchTime => (0x47, [1, number] ++ halfOf matchTime)
  | .sheetPart number order first cells =>
    (0x48, [number, order.code] ++ halfOf first ++ (cells.map fun c => signedHalf c.value).flatten ++ halfOf (marks cells))
  | .sheetDone number order isFinal totals parts stopped =>
    (0x49, [number, order.code, yesNo isFinal] ++ totals.bytes ++ [byteOf parts, yesNo stopped])

/-- The bytes of a frame on the host link (Table 11-1). A reply carries its request's KIND and TAG; a notice has TAG 00h and
a flags byte with LOST in bit 0 and its other bits, which chapter 11.2 does not define, 0 (assumption 33). -/
def OutFrame.bytes : OutFrame → List Byte
  | .reply kind tag status body => hostFrameBytes kind tag (status.code :: body.bytes)
  | .notice lost what => hostFrameBytes what.bytes.1 0 (yesNo lost :: what.bytes.2)

/-! ## The beacon (Tables 11-5 and 11-6) -/

/-- A slot entry's nine bytes (Table 11-6). Bits 1 to 3 of byte 0, which the table does not define, are sent 0 (assumption 33). -/
def SlotEntry.bytes (e : SlotEntry) : List Byte :=
  (match e.request with
    | some o => [byteOf (16 * o.number.toNat + e.run.toNat), o.code.code] ++ orFFFF o.detail
    | none => [byteOf e.run.toNat, 0x00, 0xFF, 0xFF])
    ++ [orFF (e.picture.held[0]?.map indexByte), orFF (e.picture.held[1]?.map indexByte)]
    ++ (match e.picture.waited with
        | some (i, position) => [indexByte i, byteOf position]
        | none => [0xFF, 0xFF])
    ++ [e.signals]

/-- The join answer's bytes 7 to 10. -/
def joinBytes : Option JoinAnswer → List Byte
  | none => [0, 0xFF, 0xFF, 0xFF]
  | some a =>
    match a.result with
    | .joined slot => 1 :: (halfBytes a.robotId ++ [slotByte slot])
    | .unknownTeam => 2 :: (halfBytes a.robotId ++ [0xFF])
    | .teamTaken => 3 :: (halfBytes a.robotId ++ [0xFF])

/-- The beacon's 229 bytes (Table 11-5), with its CRC (R194). Bits 2 to 7 of its flags byte, which the table does not define, are
sent 0 (assumption 33). -/
def Beacon.bytes (b : Beacon) : List Byte :=
  let body := [0x03#8] ++ halfBytes b.cycle ++ [b.phase.code, byteOf (b.holdFlag.toNat + 2 * b.stopFlag.toNat)]
    ++ halfOf b.remaining ++ joinBytes b.joinAnswer ++ (b.slots.map SlotEntry.bytes).flatten
  body ++ halfBytes (radioCrc body)

/-! ## Request frames of the element bus (chapter 11.4) -/

/-- The setpoint byte of an operation. -/
def BusOp.setpoint : BusOp → Byte
  | .poll _ => 0
  | .lamp on => yesNo on
  | .motion m => m.setpoint
  | .stopAll => 0

/-- A request frame: node address, operation, setpoint and CRC (R195). -/
def busRequest (address : Byte) (op : BusOp) : List Byte :=
  let body := [address, op.code, op.setpoint]
  body ++ halfBytes (busCrc body)

end Sys2Proof.Machine
end

