-- ==== Sys2Proof/Machine/Bus.lean ====
section
/-! DEFINITION. The element bus controller: asks and merges, pending marks and freed places, selection, refresh schedule, STOP-ALL with its discards and abandonments, and the bus commands that report no end (chapter 5). -/
namespace Sys2Proof.Machine

/-! ## Entries -/

/-- The entry is a STOP_ALL. -/
def Entry.isStop (e : Entry) : Bool :=
  match e.op with
  | .stopAll => true
  | .poll _ | .lamp _ | .motion _ => false

/-- The entry is a POLL. -/
def Entry.isPoll (e : Entry) : Bool :=
  match e.op with
  | .poll _ => true
  | .lamp _ | .motion _ | .stopAll => false

/-- The entry is a LAMP. -/
def Entry.isLamp (e : Entry) : Bool :=
  match e.op with
  | .lamp _ => true
  | .poll _ | .motion _ | .stopAll => false

/-- The entry is a MOTION. -/
def Entry.isMotion (e : Entry) : Bool :=
  match e.op with
  | .motion _ => true
  | .poll _ | .lamp _ | .stopAll => false

/-- The entry is for an element. -/
def Entry.isFor (e : Entry) (i : Index) : Bool := e.element == some i

/-- Any of the four pending marks stands (R86). -/
def Sched.marked (c : Sched) : Bool := c.pollDue || c.closingWanted || c.lampSync || c.carriageSync

/-- Entries that are not STOP_ALL (R90). -/
def Ebc.ordinary (e : Ebc) : Nat := e.queue.countP (fun x => !x.isStop)

/-- Some element carries a pending mark. -/
def Ebc.anyMark (e : Ebc) : Bool := e.sched.toList.any Sched.marked

/-- The queue is full (R92): 31 entries that are not STOP_ALL. -/
def Ebc.full (e : Ebc) : Bool := decide (Config.busPlaces ≤ e.ordinary)

/-- Nothing may enter for an ask: the queue is full, or a pending mark is set (R92, R100). -/
def Ebc.noRoom (e : Ebc) : Bool := e.full || e.anyMark

/-- A new entry at the tail, with a new age and the present wall time (R92). -/
def Ebc.enter (e : Ebc) (now : Nat) (element : Option Index) (op : BusOp) (cls : TxClass) (origin : Origin) : Ebc :=
  { e with
    queue := e.queue ++ [{ age := e.nextAge, enteredAt := now, element := element, op := op, cls := cls, origin := origin }]
    nextAge := e.nextAge + 1 }

/-- A new entry at the tail of the transaction queue. -/
def State.enter (s : State) (element : Option Index) (op : BusOp) (cls : TxClass) (origin : Origin) : State :=
  s.setEbc (s.ebc.enter s.now element op cls origin)

/-- Change the queued entries one by one, keeping their places, ages and entered-at times. -/
def State.mapQueue (s : State) (f : Entry → Entry) : State := s.setEbc { s.ebc with queue := s.ebc.queue.map f }

/-- An entry with a property is queued. -/
def State.queued (s : State) (p : Entry → Bool) : Bool := s.ebc.queue.any p

/-- A POLL of the element that is not orphaned is in flight (R94). -/
def State.pollInFlight (s : State) (i : Index) : Bool :=
  match s.ebc.inFlight with
  | some f => f.entry.isPoll && f.entry.isFor i && !f.orphaned
  | none => false

/-! ## Asks (R92, R96 to R98) -/

/-- An ask for a LAMP drive (R96): merged into a queued LAMP, or a mark, or a new entry. -/
def State.askLamp (s : State) (i : Index) (on : Bool) : State :=
  if s.queued (fun e => e.isLamp && e.isFor i) then
    s.mapQueue fun e => if e.isLamp && e.isFor i then { e with op := .lamp on } else e
  else if s.ebc.noRoom then s.modSched i fun c => { c with lampSync := true }
  else s.enter (some i) (.lamp on) .cosmetic .internal

/-- An INTERNAL carriage MOTION of the element. -/
def Entry.isCarriageDrive (e : Entry) (i : Index) : Bool := e.isMotion && e.isFor i && e.origin == .internal

/-- An ask for a carriage MOTION (R97): merged into a queued INTERNAL one, or a mark, or a new entry. -/
def State.askCarriage (s : State) (i : Index) (speed : Int) : State :=
  if s.queued (fun e => e.isCarriageDrive i) then
    s.mapQueue fun e => if e.isCarriageDrive i then { e with op := .motion (.carriage speed) } else e
  else if s.ebc.noRoom then s.modSched i fun c => { c with carriageSync := true }
  else s.enter (some i) (.motion (.carriage speed)) .control .internal

/-- An ask for a closing poll (R98): a queued POLL takes role CLOSING and class CONTROL, or a mark, or a new entry. -/
def State.askClosing (s : State) (i : Index) : State :=
  if s.queued (fun e => e.isPoll && e.isFor i) then
    s.mapQueue fun e => if e.isPoll && e.isFor i then { e with op := .poll .closing, cls := .control } else e
  else if s.ebc.noRoom then s.modSched i fun c => { c with closingWanted := true }
  else s.enter (some i) (.poll .closing) .control .internal

/-- An ask for a refresh POLL (R92, R94): nothing when one is queued or in flight, or a mark, or a new entry. -/
def State.askRefresh (s : State) (i : Index) : State :=
  if s.queued (fun e => e.isPoll && e.isFor i) || s.pollInFlight i then s
  else if s.ebc.noRoom then s.modSched i fun c => { c with pollDue := true }
  else s.enter (some i) (.poll .refresh) .refresh .internal

/-- How an ask for a gate MOTION is answered (R92). -/
inductive GateAsk where
  | taken
  | busy
  | full
  deriving DecidableEq, Repr

/-- The answer to an ask for a gate MOTION (R97, R100). -/
def State.gateAsk (s : State) (i : Index) : GateAsk :=
  if s.queued (fun e => e.isMotion && e.isFor i) then .busy else if s.ebc.noRoom then .full else .taken

/-! ## Freed places (R102) -/

/-- The lit state a goal or station handler gives (R96). -/
def State.litAt (s : State) (i : Index) : Bool :=
  match s.elem i with
  | some r => match r.part with
    | .goal p => p.lit
    | .station p => p.lit
    | .gate _ | .carriage _ => false
  | none => false

/-- The speed the carriage handler gives (R97). -/
def State.speedAt (s : State) (i : Index) : Int :=
  match s.carriageAt i with
  | some p => p.commanded
  | none => 0

/-- A free place handed to one mark: CONTROL marks first, then poll-due marks, then lamp-sync marks, each by the lowest
index, and the closing-poll-wanted mark before the carriage-sync mark (R102). -/
def State.handOver (s : State) : State :=
  if s.ebc.full then s
  else match indices.find? (fun i => (s.sched i).closingWanted || (s.sched i).carriageSync) with
  | some i =>
    if (s.sched i).closingWanted then
      (s.modSched i fun c => { c with closingWanted := false, pollDue := false }).enter (some i) (.poll .closing) .control .internal
    else
      (s.modSched i fun c => { c with carriageSync := false }).enter (some i) (.motion (.carriage (s.speedAt i))) .control .internal
  | none => match indices.find? (fun i => (s.sched i).pollDue) with
    | some i => (s.modSched i fun c => { c with pollDue := false }).enter (some i) (.poll .refresh) .refresh .internal
    | none => match indices.find? (fun i => (s.sched i).lampSync) with
      | some i => (s.modSched i fun c => { c with lampSync := false }).enter (some i) (.lamp (s.litAt i)) .cosmetic .internal
      | none => s

/-- `n` freed places handed over one after another (R102). -/
def State.handOverUpTo : Nat → State → State
  | 0, s => s
  | n + 1, s => State.handOverUpTo n s.handOver

/-! ## Ends and due times -/

/-- The in-flight transaction becomes absent and the turnaround timer starts (R87, R88). -/
def State.endTransaction (s : State) : State := s.setEbc { s.ebc with inFlight := none, turnaround := some 0 }

/-- A POLL of the element has ended: its refresh due time is the end plus its poll period, and none is owed (R94). -/
def State.setDue (s : State) (i : Index) : State :=
  match s.elem i with
  | some r => s.modSched i fun c => { c with due := some (s.now + r.pollPeriod * Config.slicesPerMs), owed := false }
  | none => s

/-! ## Discarded MOTION entries (R107) -/

/-- A gate's motion is over: IDLE with target, origin and timer absent (R143, R144). -/
def State.gateIdle (s : State) (i : Index) : State :=
  match s.gateAt i with
  | some p => s.setPart i (.gate { p with motion := .idle })
  | none => s

/-- A carriage MOTION was discarded by a STOP_ALL: speed resync is wanted unless the run state is HALTED (R150). -/
def State.carriageDriveDiscarded (s : State) (i : Index) : State :=
  match s.carriageAt i with
  | some p => if p.runState = .halted then s else s.setPart i (.carriage { p with speedResync := true })
  | none => s

/-- What becomes of the origin of a discarded MOTION (Table 5-6): detail 5 for a STOP_ALL, whose discard the handler is told
of, and detail 6 for a redefinition or a removal, which no handler is told of. -/
def State.motionDiscarded (byStopAll : Bool) (s : State) (e : Entry) : State :=
  match e.op, e.element with
  | .motion m, some i =>
    match e.origin with
    | .robot k number =>
      let t := s.answerLater k i number .failed (some (if byStopAll then 5 else 6))
      if byStopAll then t.gateIdle i else t
    | .host _ =>
      let t := s.raiseElement i (.driveDiscarded m)
      if byStopAll then t.gateIdle i else t
    | .internal => if byStopAll then s.carriageDriveDiscarded i else s
  | _, _ => s

/-- Every queued entry with a property is discarded, its origin is dealt with, and its place is handed on (R102, R107). Several
are dealt with oldest first, which no rule orders (assumption 30). -/
def State.discard (s : State) (p : Entry → Bool) (byStopAll : Bool) : State :=
  let gone := s.ebc.queue.filter p
  let t := s.setEbc { s.ebc with queue := s.ebc.queue.filter fun e => !p e }
  State.handOverUpTo gone.length (gone.foldl (State.motionDiscarded byStopAll) t)

/-! ## STOP-ALL (R104 to R106) -/

/-- A POLL in flight is abandoned: the turnaround starts, and for an element that still counts, its due time is set and a
closing role goes back into the queue (R106). -/
def State.abandonPoll (s : State) : State :=
  match s.ebc.inFlight with
  | some f =>
    match f.entry.op with
    | .poll role =>
      match f.entry.element, f.orphaned with
      | some i, false =>
        let t := s.endTransaction.setDue i
        if role = .closing then t.askClosing i else t
      | _, _ => s.endTransaction
    | .lamp _ | .motion _ | .stopAll => s
  | none => s

/-- A STOP_ALL is queued or in flight. -/
def State.stopAllStands (s : State) : Bool :=
  s.queued Entry.isStop || (match s.ebc.inFlight with
    | some f => f.entry.isStop
    | none => false)

/-- The ask for a STOP_ALL, taken as one event (R104). -/
def State.askStopAll (s : State) : State :=
  let t := if s.stopAllStands then s else (s.enter none .stopAll .safety .internal).abandonPoll
  t.discard Entry.isMotion true

/-! ## Redefinition and removal (R5, R6, R111) -/

/-- A ROBOT MOTION in flight becomes orphaned: the robot's open request is answered FAILED, as R7 has it, with the detail 6 of a
redefinition or a removal (assumption 31). -/
def State.motionOrphaned (s : State) (e : Entry) : State :=
  match e.op, e.element, e.origin with
  | .motion _, some i, .robot k number => s.answerLater k i number .failed (some 6)
  | _, _, _ => s

/-- The transaction in flight for the element becomes orphaned (R111); one that is orphaned already stays so (R7). -/
def State.orphan (s : State) (i : Index) : State :=
  match s.ebc.inFlight with
  | some f =>
    if f.entry.isFor i then
      let t := if f.orphaned then s else s.motionOrphaned f.entry
      t.setEbc { t.ebc with inFlight := some { f with orphaned := true } }
    else s
  | none => s

/-- The old definition's transactions are put away: marks cleared, entries discarded, the in-flight transaction orphaned (R5).
A ROBOT motion that is TRAVELLING, its MOTION completed, is given no answer: its kind part goes with the record (R145), and its
open request stays PENDING (assumption 31). -/
def State.putAway (s : State) (i : Index) : State :=
  let t := s.modSched i fun c =>
    { c with pollDue := false, closingWanted := false, lampSync := false, carriageSync := false }
  (t.discard (fun e => e.isFor i) false).orphan i

/-! ## CLEAR-MATCH (R99) -/

/-- The entered-at time of an entry plus the poll period of its element is reached (R95, R99). -/
def State.waitedItsPeriod (s : State) (e : Entry) : Bool :=
  match e.element.bind s.elem with
  | some r => decide (e.enteredAt + r.pollPeriod * Config.slicesPerMs ≤ s.now)
  | none => false

/-- A queued closing role turned back: REFRESH, of class CONTROL when its overdue time has passed (R99). -/
def State.refreshRole (s : State) (e : Entry) : Entry :=
  match e.op with
  | .poll .closing => { e with op := .poll .refresh, cls := if s.waitedItsPeriod e then .control else .refresh }
  | .poll .refresh | .lamp _ | .motion _ | .stopAll => e

/-- The closing role of the transaction in flight turned back (R99). -/
def InFlight.refreshRole (f : InFlight) : InFlight :=
  match f.entry.op with
  | .poll .closing => { f with entry := { f.entry with op := .poll .refresh } }
  | _ => f

/-- A closing-poll-wanted mark becomes a poll-due mark (R99). -/
def Sched.refreshMark (c : Sched) : Sched :=
  if c.closingWanted then { c with closingWanted := false, pollDue := true } else c

/-- The EBC at CLEAR-MATCH: every closing role becomes a refresh role (R99). -/
def State.clearRoles (s : State) : State :=
  let t := s.mapQueue s.refreshRole
  let t := t.setEbc { t.ebc with inFlight := t.ebc.inFlight.map InFlight.refreshRole }
  t.eachIndex fun i u => u.modSched i Sched.refreshMark

/-! ## Selection (R93) -/

/-- The entries with no older entry for the same element queued, oldest first (R93). -/
def eligible (seen : List (Option Index)) : List Entry → List Entry
  | [] => []
  | e :: rest =>
    if seen.contains e.element then eligible seen rest else e :: eligible (e.element :: seen) rest

/-- The oldest entry of the highest class any of the entries has. -/
def oldestOfHighest (l : List Entry) : Option Entry :=
  (l.find? fun e => e.cls == .safety) <|> (l.find? fun e => e.cls == .control) <|> (l.find? fun e => e.cls == .refresh)
    <|> (l.find? fun e => e.cls == .cosmetic)

/-- The entry the EBC selects: a queued STOP_ALL, otherwise the oldest eligible entry of the highest class (R93). -/
def selection (q : List Entry) : Option Entry := (q.find? Entry.isStop) <|> oldestOfHighest (eligible [] q)

/-- The bus is free: no transaction in flight, turnaround and quiet time over (R86, R88). -/
def Ebc.free (e : Ebc) : Bool := e.inFlight.isNone && e.turnaround.isNone && e.quiet.isNone

/-- The node address a frame for the entry goes to; 0 for a STOP_ALL (R89). -/
def State.addressOf (s : State) (e : Entry) : Byte :=
  match e.element with
  | some i => match s.elem i with
    | some r => r.address
    | none => 0
  | none => 0

/-- The entry leaves the queue and starts on the bus (R87, R89). -/
def State.startOnBus (s : State) (e : Entry) : State :=
  s.setEbc { s.ebc with
    queue := s.ebc.queue.erase e
    inFlight := some { entry := e, address := s.addressOf e, elapsed := 0, orphaned := false }
    busTx := busRequest (s.addressOf e) e.op }

/-- TRANSACTION_SELECT (R93): with the bus free, the selected entry starts; the place it frees is handed on unless it is the
STOP_ALL's (R102). -/
def execTransactionSelect (s : State) : Host.Outcome State Fault Refusal :=
  .next (if s.ebc.free then
    match selection s.ebc.queue with
    | some e => if e.isStop then s.startOnBus e else (s.startOnBus e).handOver
    | none => s
  else s)

/-- TURNAROUND_EXPIRY (R88): the turnaround runs out. -/
def execTurnaroundExpiry (s : State) : Host.Outcome State Fault Refusal :=
  .next (s.setEbc { s.ebc with turnaround := none })

/-- BUS_QUIET_TIME_END (R86): the quiet time after a reset runs out. -/
def execBusQuietTimeEnd (s : State) : Host.Outcome State Fault Refusal :=
  .next (s.setEbc { s.ebc with quiet := none })

/-- STOP_ALL_SENT (R89): the broadcast has been sent; it completes and the turnaround starts. It is reported to no record. -/
def execStopAllSent (s : State) : Host.Outcome State Fault Refusal :=
  .next (match s.ebc.inFlight with
    | some f => if f.entry.isStop then s.endTransaction else s
    | none => s)

/-- An element's refresh due time is reached and no refresh is owed (R94). A poll-due mark counts as a refresh owed (R101). -/
def State.refreshDue (s : State) (i : Index) : Bool :=
  match (s.sched i).due with
  | some at_ => decide (at_ ≤ s.now) && !(s.sched i).owed && !(s.sched i).pollDue
  | none => false

/-- REFRESH_DUE (R94): the due time is reached with no refresh owed; a refresh is owed and a refresh POLL is asked for. At a
wall time before the due time, as when a POLL of the element has ended since, it is no event (assumption 1). -/
def execRefreshDue (i : Index) (s : State) : Host.Outcome State Fault Refusal :=
  .next (if (s.elem i).isSome && s.refreshDue i then (s.modSched i fun c => { c with owed := true }).askRefresh i else s)

/-- The entry is a POLL of role REFRESH and class REFRESH that has waited its element's poll period in the queue (R95). -/
def State.overdueFor (s : State) (i : Index) (e : Entry) : Bool :=
  e.isFor i && e.op == .poll .refresh && e.cls == .refresh && s.waitedItsPeriod e

/-- REFRESH_POLL_OVERDUE (R95): a queued POLL of role REFRESH and class REFRESH whose overdue time is reached becomes class
CONTROL. -/
def execRefreshPollOverdue (i : Index) (s : State) : Host.Outcome State Fault Refusal :=
  .next (s.mapQueue fun e => if s.overdueFor i e then { e with cls := .control } else e)

end Sys2Proof.Machine
end

