-- ==== Sys2Proof/Machine/Tally.lean ====
section
/-! DEFINITION. The tally unit: cells, saturation and alliance totals, snapshots, the pacing of a sheet send, the final snapshot, and the requests ADJUST, SHEET and SHEET-STOP (chapter 9). -/
namespace Sys2Proof.Machine

/-! ## Cells and totals -/

/-- Where cell (row, column) stands (Table 9-2, ROWS). -/
def cellIndex (row : Fin 28) (column : Index) : Fin 1344 := ⟨row.val * 48 + column.val, by omega⟩

/-- The row of a robot slot (Table 0-2, chapter 9). -/
def slotRow (k : Slot) : Fin 28 := ⟨k.val, by omega⟩

/-- The row of an alliance, 24 to 27. -/
def allianceRow : Alliance → Fin 28
  | .a => 24
  | .b => 25
  | .c => 26
  | .d => 27

/-- The bounds of a cell (R171). -/
def clampCell (z : Int) : Int := max (-32767) (min 32767 z)

/-- Points added to a cell, with the saturated mark set at a bound (R171). -/
def Cell.add (c : Cell) (points : Int) : Cell :=
  { value := clampCell (c.value + points),
    saturated := c.saturated || clampCell (c.value + points) != c.value + points }

/-- A total changed for one alliance. -/
def Totals.add (t : Totals) (alliance : Alliance) (change : Int) : Totals :=
  match alliance with
  | .a => { t with a := t.a + change }
  | .b => { t with b := t.b + change }
  | .c => { t with c := t.c + change }
  | .d => { t with d := t.d + change }

/-- The alliance that owns a row at this moment: rows 24 to 27 always have theirs, a slot's row when the slot is not VACANT
(R172). -/
def State.rowAlliance (s : State) (row : Fin 28) : Option Alliance :=
  if h : row.val < 24 then
    let r := s.robot ⟨row.val, h⟩
    if r.state = .vacant then none else r.alliance
  else match row.val with
    | 24 => some .a
    | 25 => some .b
    | 26 => some .c
    | _ => some .d

/-- The cell at a row and column. -/
def Tu.cell (t : Tu) (row : Fin 28) (column : Index) : Cell := t.cells[(cellIndex row column).val]

/-- Points added to a cell; the total of the row's alliance changes by the amount the cell changed (R171, R172). -/
def State.addPoints (s : State) (row : Fin 28) (column : Index) (points : Int) : State :=
  let old := s.tu.cell row column
  let new := old.add points
  s.setTu { s.tu with
    cells := s.tu.cells.set (cellIndex row column).val new
    totals := match s.rowAlliance row with
      | some alliance => s.tu.totals.add alliance (new.value - old.value)
      | none => s.tu.totals }

/-- A credit of a handler; a credit of 0 points is not handed on (R121, R136, R171). -/
def State.credit (s : State) (row : Fin 28) (column : Index) (points : Nat) : State :=
  if points = 0 then s else s.addPoints row column points

/-! ## Snapshots (R174, R178) -/

/-- The number after one given by a source that gives 1 to 255 in turn and then 1 again (R161, R170). -/
def nextNumber (last : Byte) : Byte := if last = 255#8 then 1#8 else last + 1#8

/-- A snapshot: the whole tally copied into the export image as one event (R174). -/
def State.snapshot (s : State) (isFinal : Bool) : State :=
  s.setTu { s.tu with
    lastSnapshot := nextNumber s.tu.lastSnapshot
    image := some { number := nextNumber s.tu.lastSnapshot, isFinal := isFinal, phase := s.mch.phase,
                    matchTime := s.mch.matchTime, cells := s.tu.cells, totals := s.tu.totals } }

/-- The final snapshot, taken when the final wait is set, its set is empty and the send state is idle (R178). -/
def State.finalCheck (s : State) : State :=
  if s.tu.finalWait = some [] ∧ s.tu.sending = none then
    let t := s.snapshot true
    (t.setTu { t.tu with finalWait := none }).raise (.finalReady t.tu.lastSnapshot t.mch.matchTime)
  else s

/-- A capture that the goal handler reports removes its goal from the awaited set (R178). -/
def State.captured (s : State) (i : Index) : State :=
  match s.tu.finalWait with
  | some l =>
    if l.contains i then (s.setTu { s.tu with finalWait := some (l.filter fun j => j != i) }).finalCheck else s
  | none => s

/-- The final wait set at an entry to ENDED (R178). -/
def State.awaitFinal (s : State) (l : List Index) : State := (s.setTu { s.tu with finalWait := some l }).finalCheck

/-! ## Sends (R175 to R177) -/

/-- Where the cell of index `j` in an order stands in the image (Table 9-2). -/
def walk (order : SheetOrder) (j : Nat) : Nat :=
  match order with
  | .rows => j
  | .columns => (j % 28) * 48 + j / 28

/-- The cell of index `j` in an order. -/
def Image.cellAt (m : Image) (order : SheetOrder) (j : Nat) : Cell :=
  if h : walk order j < 1344 then m.cells[walk order j] else Cell.zero

/-- Part `k` of a send: the 16 cells from index 16 × k on (R175). -/
def Image.part (m : Image) (order : SheetOrder) (k : Nat) : Notice :=
  .sheetPart m.number order (16 * k) ((List.range 16).map fun j => m.cellAt order (16 * k + j))

/-- The SHEET_DONE of a send (R176, R177). -/
def Image.done (m : Image) (d : Send) (stopped : Bool) : Notice :=
  .sheetDone m.number d.order m.isFinal m.totals d.parts stopped

/-- The send ends: SHEET_DONE is raised and the send state becomes idle (R176, R177). -/
def State.endSend (s : State) (stopped : Bool) : State :=
  match s.tu.sending, s.tu.image with
  | some d, some m => (s.raise (m.done d stopped)).setTu { s.tu with sending := none }
  | some _, none => s.setTu { s.tu with sending := none }
  | none, _ => s

/-- At least 6 places of the outbound queue are free (R176). -/
def Hlp.sheetRoom (h : Hlp) : Bool := decide (h.out.length + Config.sheetRoom ≤ Config.outPlaces)

/-- One record of a send enters when 6 places are free: the next part, or SHEET_DONE after the last (R176). -/
def State.pumpOne (s : State) : State :=
  match s.tu.sending, s.tu.image with
  | some d, some m =>
    if s.hlp.sheetRoom then
      if d.parts < Config.sheetParts then
        (s.raise (m.part d.order d.parts)).setTu { s.tu with sending := some { d with parts := d.parts + 1 } }
      else (s.endSend false).finalCheck
    else s
  | _, _ => s

/-- `n` records of a send, as far as places are free. -/
def State.pumpUpTo : Nat → State → State
  | 0, s => s
  | n + 1, s => State.pumpUpTo n s.pumpOne

/-- The TU queues parts for as long as a part remains and 6 or more places are free (R176). No more than the queue's places
can enter in one event. -/
def State.pump (s : State) : State := State.pumpUpTo Config.outPlaces s

/-- A send begins with the image that stands (R175). -/
def State.beginSend (s : State) (order : SheetOrder) : State :=
  s.setTu { s.tu with sending := some { order := order, parts := 0 } }

/-! ## CLEAR-MATCH (R179) -/

/-- The TU at CLEAR-MATCH: a send is stopped, the final wait is cleared, the image discarded and the tally zeroed. The stop
takes no final snapshot (assumption 14). -/
def State.clearTally (s : State) : State :=
  let t := s.endSend true
  t.setTu { t.tu with cells := Vector.replicate 1344 Cell.zero, totals := Totals.zero, image := none, finalWait := none }

/-! ## ADJUST, SHEET and SHEET-STOP -/

/-- ADJUST is taken in OPENING to ENDED (R173). -/
def Phase.adjustable : Phase → Bool
  | .opening | .transition | .play | .finale | .ended => true
  | .setup | .staged => false

/-- The owner's part of ADJUST (R173). The coding check of the points comes first (R193); of the owner's checks WRONG_PHASE comes
before BAD_VALUE, which R173 names without an order (assumption 15). -/
def adjustOwner (row column : Byte) (points : Half) (s : State) : Answered :=
  match pointsOf points with
  | none => refuse s .badValue
  | some points =>
    if s.mch.phase.adjustable then
      if h : row.toNat < 28 then
        match indexOf column with
        | some c =>
          if points = 0 then refuse s .badValue
          else
            let t := s.addPoints ⟨row.toNat, h⟩ c points
            taken t (.adjusted (t.tu.cell ⟨row.toNat, h⟩ c)
              ((t.tu.cell ⟨row.toNat, h⟩ c).value - (s.tu.cell ⟨row.toNat, h⟩ c).value))
        | none => refuse s .badValue
      else refuse s .badValue
    else refuse s .wrongPhase

/-- ADJUST (R173). -/
def execAdjust (tag row column : Byte) (points : Half) (s : State) : Host.Outcome State Fault Refusal :=
  .next (s.goodFrame 0x1B tag (adjustOwner row column points))

/-- A snapshot the host asked for: FINAL clear, and a SHEET notice (snapshot taken) (R174). -/
def State.hostSnapshot (s : State) : State :=
  let t := s.snapshot false
  t.raise (.snapshotTaken t.tu.lastSnapshot t.mch.phase t.mch.matchTime)

/-- The reply to a SHEET: snapshot number and FINAL flag of the image, and the parts of a send (R174). -/
def State.sheetReply (s : State) (parts : Option Nat) : Answered :=
  match s.tu.image with
  | some m => taken s (.sheet m.number m.isFinal parts)
  | none => refuse s .noImage

/-- The owner's part of SHEET (R174, R175). -/
def sheetOwner (mode order : Byte) (s : State) : Answered :=
  match sheetModeOf mode, sheetOrderOf order with
  | some mode, some order =>
    if s.tu.sending.isSome then refuse s .busy
    else match mode with
      | .snapshot => s.hostSnapshot.sheetReply none
      | .send => if s.tu.image.isSome then (s.beginSend order).sheetReply (some Config.sheetParts) else refuse s .noImage
      | .exportBoth => (s.hostSnapshot.beginSend order).sheetReply (some Config.sheetParts)
  | _, _ => refuse s .badValue

/-- SHEET (R174). The first parts enter after its reply (R185). -/
def execSheet (tag mode order : Byte) (s : State) : Host.Outcome State Fault Refusal :=
  .next (s.goodFrameThen 0x1C tag (sheetOwner mode order) State.pump)

/-- The owner's part of SHEET-STOP (R177, R178). -/
def sheetStopOwner (s : State) : Answered :=
  match s.tu.sending with
  | some d => taken (s.endSend true).finalCheck (.sheetStopped d.parts)
  | none => taken s .sheetIdle

/-- SHEET-STOP (R177). -/
def execSheetStop (tag : Byte) (s : State) : Host.Outcome State Fault Refusal :=
  .next (s.goodFrame 0x1D tag sheetStopOwner)

end Sys2Proof.Machine
end

