-- ==== Sys2Proof/Machine/Goals.lean ====
section
/-! DEFINITION. The goal handler: windows, closing records, pieces, quota and lamp of a goal (chapter 6). -/
namespace Sys2Proof.Machine

/-- Replace the goal kind part of a record. -/
def State.setGoal (s : State) (i : Index) (p : GoalPart) : State := s.setPart i (.goal p)

/-- Change the goal kind part of a record; a record of another kind is left as it is. -/
def State.modGoal (s : State) (i : Index) (f : GoalPart → GoalPart) : State :=
  match s.goalAt i with
  | some p => s.setGoal i (f p)
  | none => s

/-! ## The lamp (R125, R126) -/

/-- The lit state is worked out again, and a LAMP drive is asked for when it changed (R125). -/
def State.relightGoal (s : State) (i : Index) : State :=
  match s.goalAt i with
  | some p =>
    let lit := p.lampMode.lit p.filled
    if lit = p.lit then s else (s.setGoal i { p with lit := lit }).askLamp i lit
  | none => s

/-- Lamp resync at a completed poll: with a resync wanted, a LAMP drive of the present lit state is asked for (R126). -/
def State.resyncGoalLamp (s : State) (i : Index) : State :=
  match s.goalAt i with
  | some p => if p.lampResync then (s.setGoal i { p with lampResync := false }).askLamp i p.lit else s
  | none => s

/-! ## Windows (R114 to R118) -/

/-- A window control wants the window OPEN in a phase (Table 6-2). -/
def windowDesired (control : WindowControl) (set : BitVec 4) (phase : Phase) : Bool :=
  phase != .ended && match control with
    | .auto => phase.inSet set
    | .forcedOpen => true
    | .forcedClosed => false

/-- The kind part at an opening (R116). -/
def GoalPart.opening (p : GoalPart) : GoalPart :=
  let quota := p.pendingQuota.getD p.quota
  { p with quota := quota, pendingQuota := none, count := quota, filled := false, overrangeNoted := false,
           windowPieces := 0, windowNumber := p.windowNumber + 1, window := .opened }

/-- A window opens (R116). -/
def State.openWindow (s : State) (i : Index) : State :=
  match s.goalAt i with
  | some p =>
    ((s.setGoal i p.opening).relightGoal i).raise (.goal i p.opening.windowNumber (.opened p.opening.quota))
  | none => s

/-- A close begins and a closing poll is asked for (R117). The evaluation at the entry to ENDED closes windows of the
match that ends (R129). -/
def State.beginClose (s : State) (i : Index) : State :=
  (s.modGoal i fun p =>
    { p with window := .closing, reopenWanted := false, closingInMatch := s.mch.phase.inMatch || s.mch.phase == .ended }).askClosing i

/-- The evaluation of a goal's desired window state (R114). -/
def State.evaluateGoal (s : State) (i : Index) : State :=
  match s.goalAt i with
  | some p =>
    let wanted := windowDesired p.control p.phaseSet s.mch.phase
    match p.window, wanted with
    | .closed, true => s.openWindow i
    | .closed, false => s
    | .opened, true => s
    | .opened, false => s.beginClose i
    | .closing, wanted => s.setGoal i { p with reopenWanted := wanted }
  | none => s

/-- The closing record a capture makes (Table 6-3). -/
def GoalPart.capture (p : GoalPart) (incomplete : Bool) : ClosingRecord :=
  { window := p.windowNumber, finalCount := p.count, windowPieces := p.windowPieces, filled := p.filled,
    overrange := p.overrangeNoted, incomplete := incomplete }

/-- The end of a closing poll captures the closing record and ends the closing; the window reopens when that is wanted
(R118). -/
def State.endClosing (s : State) (i : Index) (failed : Bool) : State :=
  match s.elem i, s.goalAt i with
  | some r, some p =>
    let incomplete := failed || r.inFault
    let record := p.capture incomplete
    let t := (s.setGoal i { p with record := some record }).modSticky i fun f => f.afterCapture incomplete
    let t := t.raise (.goal i p.windowNumber (.closed record r.sticky.recordFresh))
    let t := t.captured i
    let t := t.modGoal i fun q => { q with window := .closed, closingInMatch := false, reopenWanted := false }
    if p.reopenWanted then t.openWindow i else t
  | _, _ => s

/-! ## Pieces (R120 to R123) -/

/-- A counted piece passes the credit test (R121). -/
def GoalPart.creditable (p : GoalPart) (phase : Phase) : Bool :=
  match p.window with
  | .opened => phase.inMatch
  | .closing => p.closingInMatch
  | .closed => false

/-- The row a creditable piece of the goal is credited to: the alliance's row, or the holder's of a neutral goal (R121). -/
def State.pieceRow (s : State) (i : Index) : Option (Fin 28) :=
  match s.elem i with
  | some r => match r.alliance with
    | some alliance => some (allianceRow alliance)
    | none => r.claim.holder.map slotRow
  | none => none

/-- A counter that stops at 65535 (R120). -/
def saturating (n : Nat) : Nat := if 65535 ≤ n then 65535 else n + 1

/-- One counted piece (R120 to R123): counted and window pieces rise, the piece is credited or unattributed, and the count
falls, fills the window at 0, or meets its bound. -/
def State.countPiece (s : State) (i : Index) : State :=
  match s.goalAt i with
  | some p =>
    let creditable := p.creditable s.mch.phase
    let row := if creditable then s.pieceRow i else none
    let q := { p with counted := p.counted + 1, windowPieces := saturating p.windowPieces,
                      unattributed := if creditable && row.isNone then p.unattributed + 1 else p.unattributed }
    let t := s.setGoal i q
    let t := match row with
      | some row => t.credit row i p.pointsPerPiece
      | none => t
    if p.count ≤ -255 then
      if p.overrangeNoted then t
      else
        ((t.setGoal i { q with overrangeNoted := true }).modSticky i fun f => { f with overrange := true }).raise
          (.goal i p.windowNumber .overrange)
    else
      let fills := p.count - 1 = 0 ∧ p.quota ≠ 0 ∧ p.filled = false
      let t := t.setGoal i { q with count := p.count - 1, filled := p.filled || decide fills }
      if fills then
        let bonusRow := if p.fillBonus = 0 then none else row
        let t := match bonusRow with
          | some row => t.credit row i p.fillBonus
          | none => t
        (t.relightGoal i).raise (.goal i p.windowNumber (.filled bonusRow))
      else t
  | none => s

/-- `n` counted pieces, one after another (R121). -/
def State.countPieces (i : Index) : Nat → State → State
  | 0, s => s
  | n + 1, s => State.countPieces i n (s.countPiece i)

/-- A delta attributed by the window state and the hold state (R120, Table 6-4). -/
def State.attribute (s : State) (i : Index) (delta : Nat) : State :=
  match s.goalAt i with
  | some p =>
    let p := { p with pieceTotal := p.pieceTotal + BitVec.ofNat 16 delta }
    match p.window with
    | .closed => s.setGoal i { p with idle := p.idle + BitVec.ofNat 16 delta }
    | .opened | .closing =>
      if s.held then s.setGoal i { p with held := p.held + BitVec.ofNat 16 delta }
      else State.countPieces i delta (s.setGoal i p)
  | none => s

/-! ## Ends handed on by the field table (R118, R119, R126) -/

/-- A completed poll of a goal: the delta is attributed, a poll of role CLOSING ends the closing, and the lamp is driven
again when that is wanted. A restart makes it wanted (R126). -/
def State.goalPolled (s : State) (i : Index) (role : PollRole) (delta : Nat) (restarted : Bool) : State :=
  let t := s.attribute i delta
  let t : State := match role, t.goalAt i with
    | .closing, some p => if p.window = WindowState.closing then t.endClosing i false else t
    | _, _ => t
  let t := if restarted then t.modGoal i fun p => { p with lampResync := true } else t
  t.resyncGoalLamp i

/-- A failed transaction of a goal: a failed LAMP wants a resync, and a failed closing poll captures an incomplete record
(R118, R126). -/
def State.goalFailed (s : State) (i : Index) (op : BusOp) : State :=
  match op with
  | .lamp _ => s.modGoal i fun p => { p with lampResync := true }
  | .poll .closing =>
    match s.goalAt i with
    | some p => if p.window = .closing then s.endClosing i true else s
    | none => s
  | .poll .refresh | .motion _ | .stopAll => s

/-! ## ENDED and CLEAR-MATCH (R129, R130) -/

/-- The goals whose windows are CLOSING (R129). -/
def State.closingGoals (s : State) : List Index :=
  indices.filter fun i => match s.goalAt i with
    | some p => p.window == .closing
    | none => false

/-- The kind part after CLEAR-MATCH but for its lamp (R130). -/
def GoalPart.cleared (p : GoalPart) : GoalPart :=
  let quota := p.pendingQuota.getD p.quota
  { p with control := .auto, window := .closed, reopenWanted := false, closingInMatch := false, quota := quota,
           pendingQuota := none, count := quota, filled := false, overrangeNoted := false, windowPieces := 0,
           pieceTotal := 0, counted := 0, held := 0, idle := 0, unattributed := 0, record := none }

/-- A goal at CLEAR-MATCH (R130). -/
def State.clearGoal (s : State) (i : Index) : State := (s.modGoal i GoalPart.cleared).relightGoal i

/-! ## SET-QUOTA (R124) -/

/-- The kind part after a SET-QUOTA: at once with the window CLOSED, pending otherwise (R124). -/
def GoalPart.withQuota (p : GoalPart) (quota : Nat) : GoalPart :=
  match p.window with
  | .closed => { p with quota := quota, pendingQuota := none, count := quota }
  | .opened | .closing => { p with pendingQuota := some quota }

/-- The owner's part of SET-QUOTA (R124). -/
def setQuotaOwner (index quota : Byte) (s : State) : Answered :=
  match indexOf index with
  | none => refuse s .badValue
  | some i =>
    match s.elem i with
    | none => refuse s .noSuchElement
    | some r =>
      match r.part with
      | .goal p => taken (s.setGoal i (p.withQuota quota.toNat))
          (.quota (p.withQuota quota.toNat).quota (p.withQuota quota.toNat).pendingQuota)
      | .gate _ | .station _ | .carriage _ => refuse s .wrongKind

/-- SET-QUOTA (R124). -/
def execSetQuota (tag index quota : Byte) (s : State) : Host.Outcome State Fault Refusal :=
  .next (s.goodFrame 0x14 tag (setQuotaOwner index quota))

end Sys2Proof.Machine
end

