-- ==== Sys2Proof/Machine/Stations.lean ====
section
/-! DEFINITION. The station handler: windows, presence, trespass, accrual and lamp of a station, and the window and lamp requests that goals and stations share (chapter 7.1, R115, R127). -/
namespace Sys2Proof.Machine

/-- Replace the station kind part of a record. -/
def State.setStation (s : State) (i : Index) (p : StationPart) : State := s.setPart i (.station p)

/-- Change the station kind part of a record; a record of another kind is left as it is. -/
def State.modStation (s : State) (i : Index) (f : StationPart → StationPart) : State :=
  match s.stationAt i with
  | some p => s.setStation i (f p)
  | none => s

/-! ## Lamp and holder changes (R137) -/

/-- The lit state is worked out again, and a LAMP drive is asked for when it changed (R137, Table 7-2). -/
def State.relightStation (s : State) (i : Index) : State :=
  match s.stationAt i with
  | some p =>
    let lit := p.lampMode.lit (s.holder i).isSome
    if lit = p.lit then s else (s.setStation i { p with lit := lit }).askLamp i lit
  | none => s

/-- A change of the element's holder is reported to the station handler, once for the event that makes it: accrual becomes 0
and the lit state is worked out again (R136, R137, assumption 17). Other kinds take no notice. -/
def State.holderChanged (s : State) (i : Index) : State :=
  (s.modStation i fun p => { p with accrual := 0 }).relightStation i

/-- Lamp resync at a completed poll (R137, as R126). -/
def State.resyncStationLamp (s : State) (i : Index) : State :=
  match s.stationAt i with
  | some p => if p.lampResync then (s.setStation i { p with lampResync := false }).askLamp i p.lit else s
  | none => s

/-! ## Windows (R134) -/

/-- The evaluation of a station's desired window state; its window changes at once and each change sets accrual to 0
(R134). -/
def State.evaluateStation (s : State) (i : Index) : State :=
  match s.stationAt i with
  | some p =>
    let wanted := windowDesired p.control p.phaseSet s.mch.phase
    if wanted = p.windowOpen then s else s.setStation i { p with windowOpen := wanted, accrual := 0 }
  | none => s

/-- Every window evaluated at a phase entry: the goals, then the stations, each in ascending index order (R114, R134,
R157). -/
def State.evaluateWindows (s : State) : State :=
  (s.eachIndex fun i t => t.evaluateGoal i).eachIndex fun i t => t.evaluateStation i

/-! ## Trespass and accrual (R135, R136) -/

/-- The element is in FAULT; no for an UNDEFINED record. -/
def State.faulted (s : State) (i : Index) : Bool :=
  match s.elem i with
  | some r => r.inFault
  | none => false

/-- The trespass test (R135). -/
def State.trespassTest (s : State) (i : Index) : State :=
  match s.stationAt i with
  | some p =>
    if p.windowOpen && s.mch.phase.inMatch && !s.faulted i && p.presence == some true && (s.holder i).isNone
        && !p.trespassEpisode then
      ((s.setStation i { p with trespassEpisode := true }).modSticky i fun f => { f with trespass := true }).raiseElement i
        (.trespass s.mch.phase)
    else s
  | none => s

/-- The four conditions of accrual hold (R136). -/
def State.accrues (s : State) (i : Index) (p : StationPart) : Bool :=
  p.windowOpen && !s.faulted i && p.presence == some true && (s.holder i).isSome

/-- One tenth of accrual; the tenth one credits the holder's row (R136). -/
def State.accrue (s : State) (i : Index) : State :=
  match s.stationAt i, s.holder i with
  | some p, some k =>
    if s.accrues i p then
      if 10 ≤ p.accrual + 1 then (s.setStation i { p with accrual := 0 }).credit (slotRow k) i p.pointsPerSecond
      else s.setStation i { p with accrual := p.accrual + 1 }
    else s
  | _, _ => s

/-- A station at a tenth of match time: the trespass test and the accrual, of which at most one acts (R135, R136). -/
def State.stationTenth (s : State) (i : Index) : State := (s.trespassTest i).accrue i

/-! ## Ends handed on by the field table (R133, R135, R137) -/

/-- A completed poll of a station: presence is set, an EMPTY reading ends a trespass episode, the test is made, and the lamp
is driven again when that is wanted (R133, R135). -/
def State.stationPolled (s : State) (i : Index) (occupied restarted : Bool) : State :=
  let t := s.modStation i fun p =>
    { p with presence := some occupied
             trespassEpisode := p.trespassEpisode && (occupied || s.faulted i)
             lampResync := p.lampResync || restarted }
  (t.trespassTest i).resyncStationLamp i

/-- A failed transaction of a station: a failed LAMP wants a resync (R137). -/
def State.stationFailed (s : State) (i : Index) (op : BusOp) : State :=
  match op with
  | .lamp _ => s.modStation i fun p => { p with lampResync := true }
  | .poll _ | .motion _ | .stopAll => s

/-! ## CLEAR-MATCH (R138) -/

/-- A station at CLEAR-MATCH (R138). -/
def State.clearStation (s : State) (i : Index) : State :=
  s.modStation i fun p => { p with control := .auto, windowOpen := false, accrual := 0, trespassEpisode := false }

/-- STATION_ACCRUAL_SECOND (R136): the tenth that brings a station's accrual to 10 credits its holder (assumption 3). -/
def execStationAccrualSecond (i : Index) (s : State) : Host.Outcome State Fault Refusal :=
  .next (match s.stationAt i with
    | some p => if s.matchRuns && decide (9 ≤ p.accrual) then s.accrue i else s
    | none => s)

/-! ## SET-WINDOW (R115, R134) and SET-LAMP (R127, R137) -/

/-- A window state as a reply shows it. -/
def State.windowShown (s : State) (i : Index) : WindowState :=
  match s.elem i with
  | some r => match r.part with
    | .goal p => p.window
    | .station p => if p.windowOpen then .opened else .closed
    | .gate _ | .carriage _ => .closed
  | none => .closed

/-- The owner's part of SET-WINDOW (R115, R134). -/
def setWindowOwner (index control : Byte) (s : State) : Answered :=
  match windowControlOf control, indexOf index with
  | some control, some i =>
    match s.elem i with
    | none => refuse s .noSuchElement
    | some r =>
      match r.part with
      | .goal p =>
        let t := (s.setGoal i { p with control := control }).evaluateGoal i
        taken t (.window (t.windowShown i))
      | .station p =>
        let t := (s.setStation i { p with control := control }).evaluateStation i
        taken t (.window (t.windowShown i))
      | .gate _ | .carriage _ => refuse s .wrongKind
  | _, _ => refuse s .badValue

/-- SET-WINDOW (R115). -/
def execSetWindow (tag index control : Byte) (s : State) : Host.Outcome State Fault Refusal :=
  .next (s.goodFrame 0x13 tag (setWindowOwner index control))

/-- The owner's part of SET-LAMP: AUTO is refused while the mode is ON; otherwise the mode is stored and the lit state
worked out again (R127, R137). -/
def setLampOwner (index mode : Byte) (s : State) : Answered :=
  match lampModeOf mode, indexOf index with
  | some mode, some i =>
    match s.elem i with
    | none => refuse s .noSuchElement
    | some r =>
      match r.part with
      | .goal p =>
        if mode = .auto ∧ p.lampMode = .on then refuse s .lampSequence
        else
          let t := (s.setGoal i { p with lampMode := mode }).relightGoal i
          taken t (.lamp mode (t.litAt i))
      | .station p =>
        if mode = .auto ∧ p.lampMode = .on then refuse s .lampSequence
        else
          let t := (s.setStation i { p with lampMode := mode }).relightStation i
          taken t (.lamp mode (t.litAt i))
      | .gate _ | .carriage _ => refuse s .wrongKind
  | _, _ => refuse s .badValue

/-- SET-LAMP (R127). -/
def execSetLamp (tag index mode : Byte) (s : State) : Host.Outcome State Fault Refusal :=
  .next (s.goodFrame 0x15 tag (setLampOwner index mode))

end Sys2Proof.Machine
end

