-- ==== Sys2Proof/Machine/Gates.lean ====
section
/-! DEFINITION. The gate handler: the motion of a gate from its drive through its travel to an outcome, ACT's checks, SET-GATE and the travel limit (chapter 7.2). -/
namespace Sys2Proof.Machine

/-- Replace the gate kind part of a record. -/
def State.setGate (s : State) (i : Index) (p : GatePart) : State := s.setPart i (.gate p)

/-- A position is at a setpoint's target: OPEN at OPEN, CLOSED at CLOSE (R140). -/
def GatePosition.atTarget (p : GatePosition) (t : GateTarget) : Bool :=
  match t, p with
  | .opening, .opened => true
  | .closing, .closed => true
  | .opening, .closed | .opening, .moving | .opening, .stopped | .opening, .jammed => false
  | .closing, .opened | .closing, .moving | .closing, .stopped | .closing, .jammed => false

/-- The motion state is IDLE. -/
def GateMotion.isIdle : GateMotion → Bool
  | .idle => true
  | .sent _ _ | .travelling _ _ _ => false

/-! ## Outcomes (R143, R144) -/

/-- A travelling motion ends DONE: the kind part is IDLE and the outcome goes to the origin (R144). -/
def State.gateDone (s : State) (i : Index) (target : GateTarget) (origin : Origin) (position : Option GatePosition) : State :=
  let t := s.gateIdle i
  match origin with
  | .robot k number => t.answerLater k i number .done none
  | .host _ => t.raiseElement i (.gateDone target position)
  | .internal => t

/-- The FAILED detail of a cause (Tables 7-7 and 7-8). -/
def GateFailure.detail : GateFailure → Nat
  | .jammed => 1
  | .stopped => 2
  | .timeout => 3
  | .driveFailed => 4

/-- A motion fails: the kind part is IDLE and the outcome goes to the origin (R143, R144). -/
def State.gateFails (s : State) (i : Index) (target : GateTarget) (origin : Origin) (position : Option GatePosition)
    (cause : GateFailure) : State :=
  let t := s.gateIdle i
  match origin with
  | .robot k number => t.answerLater k i number .failed (some cause.detail)
  | .host _ => t.raiseElement i (.gateFailed target position cause)
  | .internal => t

/-! ## Ends handed on by the field table -/

/-- A completed poll of a gate: the position is set, and a travelling motion ends at its target, JAMMED or STOPPED (R140,
R144). -/
def State.gatePolled (s : State) (i : Index) (position : GatePosition) : State :=
  match s.gateAt i with
  | some p =>
    let t := s.setGate i { p with position := some position }
    match p.motion with
    | .travelling target origin _ =>
      if position.atTarget target then t.gateDone i target origin (some position)
      else match position with
        | .jammed => t.gateFails i target origin (some position) .jammed
        | .stopped => t.gateFails i target origin (some position) .stopped
        | .closed | .opened | .moving => t
    | .idle | .sent _ _ => t
  | none => s

/-- A completed gate MOTION starts the travel (R143). -/
def State.gateDriven (s : State) (i : Index) : State :=
  match s.gateAt i with
  | some p =>
    match p.motion with
    | .sent target origin => s.setGate i { p with motion := .travelling target origin 0 }
    | .idle | .travelling _ _ _ => s
  | none => s

/-- A failed gate MOTION ends the motion with cause DRIVE_FAILED (R110, R143). -/
def State.gateFailed (s : State) (i : Index) (op : BusOp) : State :=
  match op, s.gateAt i with
  | .motion _, some p =>
    match p.motion with
    | .sent target origin => s.gateFails i target origin p.position .driveFailed
    | .idle | .travelling _ _ _ => s
  | _, _ => s

/-- GATE_TRAVEL_LIMIT (R144): a travelling gate's timer reaches its limit and the motion fails with detail 3. -/
def execGateTravelLimit (i : Index) (s : State) : Host.Outcome State Fault Refusal :=
  .next (match s.gateAt i with
    | some p => match p.motion with
      | .travelling target origin _ => s.gateFails i target origin p.position .timeout
      | .idle | .sent _ _ => s
    | none => s)

/-! ## Asking for a motion -/

/-- A gate MOTION enters the queue and the motion state becomes SENT (R141, R142). -/
def State.sendGate (s : State) (i : Index) (p : GatePart) (target : GateTarget) (origin : Origin) : State :=
  (s.enter (some i) (.motion (.gate target)) .control origin).setGate i { p with motion := .sent target origin }

/-- ACT as the gate handler takes it, its open request already PENDING (R141, Table 7-5). -/
def State.actOn (s : State) (k : Slot) (number : BitVec 4) (element : Byte) (target : GateTarget) : State :=
  if !s.mch.phase.inMatch || s.held then s.answerNow k .notNow none
  else match indexOf element with
  | none => s.answerNow k .noElement none
  | some i =>
    match s.elem i with
    | none => s.answerNow k .noElement none
    | some r =>
      match r.part with
      | .gate p =>
        if r.claim.holder ≠ some k then s.answerNow k .notHolder none
        else if r.inFault then s.answerNow k .elementFault none
        else match p.position with
        | none => s.answerNow k .notNow none
        | some position =>
          if position = .moving ∨ p.motion.isIdle = false then s.answerNow k .busy none
          else if position.atTarget target then s.answerNow k .done none
          else match s.gateAsk i with
            | .busy => s.answerNow k .busy none
            | .full => s.answerNow k .busFull none
            | .taken => s.sendGate i p target (.robot k number)
      | .goal _ | .station _ | .carriage _ => s.answerNow k .notAGate none

/-- The owner's part of SET-GATE (R142, Table 7-6). -/
def setGateOwner (tag index setpoint : Byte) (s : State) : Answered :=
  match gateTargetOf setpoint, indexOf index with
  | some target, some i =>
    match s.elem i with
    | none => refuse s .noSuchElement
    | some r =>
      match r.part with
      | .gate p =>
        if r.inFault then refuse s .elementFault
        else match p.position with
        | none => refuse s .notReady
        | some position =>
          if position = .moving ∨ p.motion.isIdle = false then refuse s .busy
          else if position.atTarget target then taken s (.gate false)
          else match s.gateAsk i with
            | .busy => refuse s .busy
            | .full => refuse s .queueFull
            | .taken => taken (s.sendGate i p target (.host tag)) (.gate true)
      | .goal _ | .station _ | .carriage _ => refuse s .wrongKind
  | _, _ => refuse s .badValue

/-- SET-GATE (R142). -/
def execSetGate (tag index setpoint : Byte) (s : State) : Host.Outcome State Fault Refusal :=
  .next (s.goodFrame 0x16 tag (setGateOwner tag index setpoint))

end Sys2Proof.Machine
end

