-- ==== Sys2Proof/Machine/Carriages.lean ====
section
/-! DEFINITION. The carriage handler: zone speeds, end stops, faults, holds, and DRIVE-CARRIAGE (chapter 7.3). -/
namespace Sys2Proof.Machine

/-- Replace the carriage kind part of a record. -/
def State.setCarriage (s : State) (i : Index) (p : CarriagePart) : State := s.setPart i (.carriage p)

/-- The signed speed of a zone: positive for FORWARD, negative for REVERSE (R147). -/
def CarriagePart.zoneSpeed (p : CarriagePart) (zone : Fin 8) : Int :=
  match p.direction with
  | .forward => (p.zoneSpeeds[zone.val] : Int)
  | .reverse => -(p.zoneSpeeds[zone.val] : Int)

/-- The kind part running in a zone, with that zone's speed commanded (R147, R148, R149). -/
def CarriagePart.runIn (p : CarriagePart) (zone : Fin 8) : CarriagePart :=
  { p with runState := .running, speedZone := some zone, commanded := p.zoneSpeed zone }

/-- The kind part standing: a run state other than RUNNING, homing no and commanded speed 0. -/
def CarriagePart.stand (p : CarriagePart) (state : RunState) : CarriagePart :=
  { p with runState := state, homing := false, commanded := 0 }

/-- The direction turned. -/
def Direction.turn : Direction → Direction
  | .forward => .reverse
  | .reverse => .forward

/-- The kind part is replaced and a drive of its commanded speed is asked for (R147). -/
def State.driveCarriage (s : State) (i : Index) (p : CarriagePart) : State := (s.setCarriage i p).askCarriage i p.commanded

/-- The zone and the two end stops of a carriage's last reading. -/
def ElementRecord.carriageReading (r : ElementRecord) : Option (Fin 8 × Bool × Bool) :=
  match r.reading with
  | some (.carriage zone front rear _ _) => some (zone, front, rear)
  | _ => none

/-! ## Ends handed on by the field table (R149, R150) -/

/-- The end stop in the direction of travel is shown (R149). -/
def CarriagePart.atEnd (p : CarriagePart) (front rear : Bool) : Bool :=
  match p.direction with
  | .forward => front
  | .reverse => rear

/-- A completed poll without an encoder fault, in RUNNING: the end rule, a new zone, or nothing (R149). -/
def State.carriageStep (s : State) (i : Index) (p : CarriagePart) (zone : Fin 8) (front rear : Bool) : State :=
  if p.atEnd front rear then
    if p.homing ∨ p.endMode = .stop then
      (s.driveCarriage i (p.stand .parked)).raiseElement i (.parked (p.direction == .forward))
    else s.driveCarriage i (CarriagePart.runIn { p with direction := p.direction.turn } zone)
  else if p.speedZone = some zone then s
  else s.driveCarriage i (p.runIn zone)

/-- Speed resync at a completed poll without an encoder fault: the wish is cleared and, unless HALTED, the commanded speed is
driven again (R150). -/
def State.resyncCarriage (s : State) (i : Index) : State :=
  match s.carriageAt i with
  | some p =>
    if p.speedResync then
      if p.runState = .halted then s.setCarriage i { p with speedResync := false }
      else s.driveCarriage i { p with speedResync := false }
    else s
  | none => s

/-- A fault stops a RUNNING or HALTED carriage (R150). -/
def State.carriageFault (s : State) (i : Index) (cause : CarriageStop) : State :=
  match s.carriageAt i with
  | some p =>
    if p.runState = .running ∨ p.runState = .halted then
      (s.driveCarriage i (p.stand .stopped)).raiseElement i (.carriageStopped cause)
    else s
  | none => s

/-- The speed is to be driven again at the next completed poll (R150). -/
def State.wantSpeed (s : State) (i : Index) : State :=
  match s.carriageAt i with
  | some p => s.setCarriage i { p with speedResync := true }
  | none => s

/-- A completed poll of a carriage (R149, R150). -/
def State.carriagePolled (s : State) (i : Index) (zone : Fin 8) (front rear encoderFault restarted : Bool) : State :=
  let t := if restarted then s.wantSpeed i else s
  if encoderFault then t.carriageFault i .encoder
  else match t.carriageAt i with
    | some p => (if p.runState = .running then t.carriageStep i p zone front rear else t).resyncCarriage i
    | none => t

/-- The record is in FAULT with reason MISSING. -/
def State.missing (s : State) (i : Index) : Bool :=
  match s.elem i with
  | some r => r.state == .fault .missing
  | none => false

/-- A failed transaction of a carriage: a failed MOTION wants a resync, and a record in FAULT, reason MISSING, stops it
(R150). -/
def State.carriageFailed (s : State) (i : Index) (op : BusOp) : State :=
  let t := match op with
    | .motion _ => s.wantSpeed i
    | .poll _ | .lamp _ | .stopAll => s
  if t.missing i then t.carriageFault i .missing else t

/-! ## Holds (R151) -/

/-- At a push, a RUNNING carriage becomes HALTED with commanded speed 0; no drive is asked for (R151). -/
def State.haltCarriage (s : State) (i : Index) : State :=
  match s.carriageAt i with
  | some p => if p.runState = .running then s.setCarriage i { p with runState := .halted, commanded := 0 } else s
  | none => s

/-- When the stack empties, a HALTED carriage becomes RUNNING in the zone of its last reading and is driven (R151). -/
def State.restartCarriage (s : State) (i : Index) : State :=
  match s.elem i, s.carriageAt i with
  | some r, some p =>
    if p.runState = .halted then
      match r.carriageReading with
      | some (zone, _, _) => s.driveCarriage i (p.runIn zone)
      | none => s.driveCarriage i { p with runState := .running }
    else s
  | _, _ => s

/-- At CLEAR-MATCH a HALTED carriage becomes STOPPED; no drive is asked for (R151). -/
def State.stopHalted (s : State) (i : Index) : State :=
  match s.carriageAt i with
  | some p => if p.runState = .halted then s.setCarriage i (p.stand .stopped) else s
  | none => s

/-! ## DRIVE-CARRIAGE (R148) -/

/-- The reply's fields after a DRIVE-CARRIAGE (R148). -/
def CarriagePart.shown (p : CarriagePart) : ReplyBody := .carriage p.runState p.direction p.commanded

/-- The carriage set going in a direction: RUNNING and driven with the stack empty, HALTED and not driven otherwise (Table
7-11). -/
def State.setGoing (s : State) (i : Index) (p : CarriagePart) (zone : Fin 8) : Answered :=
  if s.held then
    taken (s.setCarriage i { p with runState := .halted, commanded := 0 }) { p with runState := .halted, commanded := 0 }.shown
  else taken (s.driveCarriage i (p.runIn zone)) (p.runIn zone).shown

/-- The owner's part of DRIVE-CARRIAGE (R148, Table 7-11). The direction byte is examined for RUN alone. -/
def driveCarriageOwner (index command direction : Byte) (s : State) : Answered :=
  match carriageCommandOf command, indexOf index with
  | some command, some i =>
    if command = .run ∧ directionOf direction = none then refuse s .badValue
    else match s.elem i with
    | none => refuse s .noSuchElement
    | some r =>
      match r.part with
      | .carriage p =>
        match command with
        | .stop => taken (s.driveCarriage i (p.stand .stopped)) (p.stand .stopped).shown
        | .run =>
          if r.inFault then refuse s .elementFault
          else match r.carriageReading with
          | none => refuse s .notReady
          | some (zone, _, _) =>
            s.setGoing i { p with direction := (directionOf direction).getD p.direction, homing := false } zone
        | .home =>
          if r.inFault then refuse s .elementFault
          else match r.carriageReading with
          | none => refuse s .notReady
          | some (zone, _, rear) =>
            let p := { p with direction := .reverse }
            if rear then taken (s.driveCarriage i (p.stand .parked)) (p.stand .parked).shown
            else s.setGoing i { p with homing := true } zone
      | .goal _ | .gate _ | .station _ => refuse s .wrongKind
  | _, _ => refuse s .badValue

/-- DRIVE-CARRIAGE (R148). -/
def execDriveCarriage (tag index command direction : Byte) (s : State) : Host.Outcome State Fault Refusal :=
  .next (s.goodFrame 0x17 tag (driveCarriageOwner index command direction))

end Sys2Proof.Machine
end

