-- ==== Sys2Proof/Machine/Claims.lean ====
section
/-! DEFINITION. The claim arbiter: CLAIM, RELEASE and CANCEL, promotion, expiry and guard, vacating, and the emptying at ENDED (chapter 2). -/
namespace Sys2Proof.Machine

/-- Change the claim part of a defined record. -/
def State.modClaim (s : State) (i : Index) (f : ClaimPart → ClaimPart) : State := s.modElem i fun r => r.setClaim (f r.claim)

/-! ## Departure and promotion (R31) -/

/-- The claim part after its holder has left: the head waiter becomes holder with held-for 0, or the element is free
(R31). -/
def ClaimPart.passOn (c : ClaimPart) : ClaimPart :=
  match c.waiting with
  | head :: rest => { c with holder := some head, heldFor := 0, waiting := rest }
  | [] => { c with holder := none, heldFor := 0 }

/-- The notice of a promotion, when one was made (R31). -/
def State.promotionNotice (s : State) (i : Index) (before : ClaimPart) : State :=
  match before.waiting with
  | head :: rest => s.raiseClaim (.promoted i head rest.length)
  | [] => s

/-- The holder leaves an element: the notice of its departure, the promotion, and the report to the station handler (R31,
R41, R137). -/
def State.depart (s : State) (i : Index) (notice : ClaimNotice) : State :=
  match s.elem i with
  | some r =>
    (((s.modClaim i ClaimPart.passOn).raiseClaim notice).promotionNotice i r.claim).holderChanged i
  | none => s

/-- A robot leaves a waiting list; the robots behind it move up (R19). -/
def State.leaveList (s : State) (i : Index) (k : Slot) : State :=
  s.modClaim i fun c => { c with waiting := c.waiting.erase k }

/-! ## CLAIM (R23 to R27) -/

/-- The guard record names the robot (R24, R34). -/
def ClaimPart.guards (c : ClaimPart) (k : Slot) : Option Nat :=
  match c.guardRecord with
  | some g => if g.slot = k then some g.remaining else none
  | none => none

/-- A grant (R25), with the withdrawal of a wait when it brings the robot to 2 held elements (R26). -/
def State.grant (s : State) (k : Slot) (i : Index) : State :=
  let withdrawn := if (s.heldBy k).length = 1 then s.waitsOn k else none
  let t := match withdrawn with
    | some j => s.leaveList j k
    | none => s
  let t := t.modClaim i fun c => { c with holder := some k, heldFor := 0 }
  let t := (t.raiseClaim (.granted i k withdrawn)).holderChanged i
  t.answerNow k .granted (withdrawn.map Fin.val)

/-- CLAIM on an element with no holder (R25). -/
def State.claimFree (s : State) (k : Slot) (i : Index) : State :=
  if Config.holdLimitPerRobot ≤ (s.heldBy k).length then s.answerNow k .tooMany none else s.grant k i

/-- CLAIM on an element that has a holder (R27, Table 2-5). -/
def State.claimHeld (s : State) (k : Slot) (i : Index) (c : ClaimPart) : State :=
  if (s.waitsOn k).isSome then s.answerNow k .tooMany none
  else if Config.holdLimitPerRobot ≤ (s.heldBy k).length then s.answerNow k .tooMany none
  else if Config.waitPlaces ≤ c.waiting.length then s.answerNow k .listFull none
  else (s.modClaim i fun c => { c with waiting := c.waiting ++ [k] }).answerNow k .queued (some (c.waiting.length + 1))

/-- The relation checks of CLAIM, then the grant, the wait or the refusal (R24, Table 2-4). -/
def State.claimRelation (s : State) (k : Slot) (i : Index) (r : ElementRecord) : State :=
  if r.claim.holder = some k then s.answerNow k .alreadyHolder none
  else if r.claim.waiting.contains k then s.answerNow k .alreadyWaiting (some (positionIn r.claim.waiting k))
  else if r.inFault then s.answerNow k .elementFault none
  else if r.alliance.isSome ∧ r.alliance ≠ (s.robot k).alliance then s.answerNow k .notYours none
  else match r.claim.guards k with
    | some remaining => s.answerNow k .guarded (some remaining)
    | none => if r.claim.holder = none then s.claimFree k i else s.claimHeld k i r.claim

/-- CLAIM as the CA takes it, its open request already PENDING (R23, Table 2-3). -/
def State.claimOn (s : State) (k : Slot) (element : Byte) : State :=
  if !s.mch.phase.inMatch then s.answerNow k .notNow none
  else if (s.robot k).state = .benched then s.answerNow k .benched none
  else if (s.robot k).state ≠ .active then s.answerNow k .notNow none
  else match indexOf element with
  | none => s.answerNow k .noElement none
  | some i =>
    match s.elem i with
    | none => s.answerNow k .noElement none
    | some r =>
      if claimable r.part.kind r.alliance then s.claimRelation k i r else s.answerNow k .notClaimable none

/-! ## RELEASE and CANCEL (R29, R30) -/

/-- RELEASE as the CA takes it (R29). -/
def State.releaseOn (s : State) (k : Slot) (element : Byte) : State :=
  if !s.mch.phase.inMatch then s.answerNow k .notNow none
  else match indexOf element with
  | none => s.answerNow k .noElement none
  | some i =>
    match s.elem i with
    | none => s.answerNow k .noElement none
    | some r =>
      if r.claim.holder = some k then (s.depart i (.released i k)).answerNow k .released none
      else s.answerNow k .notHolder none

/-- CANCEL as the CA takes it (R30). -/
def State.cancelOn (s : State) (k : Slot) : State :=
  if !s.mch.phase.inMatch then s.answerNow k .notNow none
  else match s.waitsOn k with
  | some i => (s.leaveList i k).answerNow k .cancelled (some i.val)
  | none => s.answerNow k .notWaiting none

/-! ## Expiry and guard (R32 to R34) -/

/-- The claim expires: the guard record is set when the guard time is not 0, and the head waiter is promoted (R33). -/
def State.expire (s : State) (i : Index) : State :=
  match s.elem i with
  | some r =>
    match r.claim.holder with
    | some k =>
      let t := if r.guardTime = 0 then s
        else s.modClaim i fun c => { c with guardRecord := some { slot := k, remaining := r.guardTime } }
      t.depart i (.expired i k r.guardTime)
    | none => s
  | none => s

/-- A guard record after one tenth: counted down, and removed at 0 (R32). -/
def guardTenth : Option Guard → Option Guard
  | some g => if g.remaining ≤ 1 then none else some { g with remaining := g.remaining - 1 }
  | none => none

/-- The claim part of a defined element at a tenth of match time: the guard that stood is counted down, then the holder's
held-for rises and expires at the hold limit (R32). -/
def State.claimTenth (s : State) (i : Index) : State :=
  match s.elem i with
  | some r =>
    let heldFor := if r.claim.holder.isSome then r.claim.heldFor + 1 else r.claim.heldFor
    let t := s.modClaim i fun c => { c with heldFor := heldFor, guardRecord := guardTenth c.guardRecord }
    if r.claim.holder.isSome ∧ r.holdLimit ≠ 0 ∧ r.holdLimit ≤ heldFor then t.expire i else t
  | none => s

/-- CLAIM_EXPIRY (R33): the tenth that brings a holder's held-for to the hold limit expires the claim (assumption 3). -/
def execClaimExpiry (i : Index) (s : State) : Host.Outcome State Fault Refusal :=
  .next (match s.elem i with
    | some r =>
      if s.matchRuns ∧ r.holdLimit ≠ 0 ∧ r.holdLimit ≤ r.claim.heldFor + 1 then s.expire i else s
    | none => s)

/-- GUARD_RUN_OUT (R32): the tenth that brings a guard remaining to 0 removes the guard record (assumption 3). -/
def execGuardRunOut (i : Index) (s : State) : Host.Outcome State Fault Refusal :=
  .next (match s.elem i with
    | some r => match r.claim.guardRecord with
      | some g => if s.matchRuns && decide (g.remaining ≤ 1) then s.modClaim i fun c => { c with guardRecord := none } else s
      | none => s
    | none => s)

/-! ## Removal in bulk (R37 to R40) -/

/-- The CA vacates a robot: off its waiting list first, then off each element it holds in ascending order, with the
promotions (R37). -/
def State.vacate (s : State) (k : Slot) (cause : VacateCause) : State :=
  let t := match s.waitsOn k with
    | some i => s.leaveList i k
    | none => s
  (t.heldBy k).foldl (fun u i => u.depart i (.vacated i k cause)) t

/-- An emptied claim part (R4, R40). -/
def ClaimPart.empty : ClaimPart := { holder := none, heldFor := 0, waiting := [], guardRecord := none }

/-- The holders that stand on the field (R41). -/
def State.holders (s : State) : Nat := indices.countP fun i => (s.holder i).isSome

/-- The waiters that stand on the field (R41). -/
def State.waitersTotal (s : State) : Nat := (indices.map fun i => (s.waiters i).length).sum

/-- One element's claim part emptied at the entry to ENDED; a station is told of the change of its holder (R40, R137). -/
def State.emptyClaim (s : State) (i : Index) : State :=
  let t := s.modClaim i fun _ => ClaimPart.empty
  if (s.holder i).isSome then t.holderChanged i else t

/-- The CA at the entry to ENDED: every claim part emptied and one notice for the whole field (R40). -/
def State.emptyClaims (s : State) : State :=
  (s.eachIndex fun i t => t.emptyClaim i).raiseClaim (.cleared s.holders s.waitersTotal)

end Sys2Proof.Machine
end

