-- ==== Sys2Proof/Machine/Robots.lean ====
section
/-! DEFINITION. The robot roster: assignment, joining, the ready flag, silence and drop, bench and eject, signal flags, and the hand-on of robot requests (chapter 3). -/
namespace Sys2Proof.Machine

/-! ## Assignment (R46, R47) -/

/-- ASSIGN-ROBOT and UNASSIGN-ROBOT are taken in SETUP and STAGED. -/
def Phase.assignable : Phase → Bool
  | .setup | .staged => true
  | .opening | .transition | .play | .finale | .ended => false

/-- The slot, not VACANT, that carries a team number (R46, R48). -/
def State.slotOfTeam (s : State) (team : Half) : Option Slot :=
  slots.find? fun k => (s.robot k).state != .vacant && (s.robot k).team == some team

/-- The owner's part of ASSIGN-ROBOT (R46, Table 3-3). The coding of the alliance byte comes first (R193). -/
def assignOwner (slot : Byte) (team : Half) (alliance : Byte) (s : State) : Answered :=
  match allianceOf alliance with
  | none => refuse s .badValue
  | some alliance =>
    if !s.mch.phase.assignable then refuse s .wrongPhase
    else match slotOf slot, alliance with
    | some k, some alliance =>
      if team = 0 then refuse s .badValue
      else if slots.any (fun j => j != k && (s.robot j).state != .vacant && (s.robot j).team == some team) then
        refuse s .teamInUse
      else if (s.robot k).state ≠ .vacant then refuse s .busy
      else taken (s.setRobot k { RobotRecord.vacant with state := .assigned, team := some team, alliance := some alliance }) .empty
    | _, _ => refuse s .badValue

/-- ASSIGN-ROBOT (R46). -/
def execAssignRobot (tag slot : Byte) (team : Half) (alliance : Byte) (s : State) : Host.Outcome State Fault Refusal :=
  .next (s.goodFrame 0x07 tag (assignOwner slot team alliance))

/-- The owner's part of UNASSIGN-ROBOT (R47). -/
def unassignOwner (slot : Byte) (s : State) : Answered :=
  if !s.mch.phase.assignable then refuse s .wrongPhase
  else match slotOf slot with
  | none => refuse s .badValue
  | some k =>
    if (s.robot k).state = .vacant then refuse s .noSuchRobot else taken (s.setRobot k RobotRecord.vacant) .empty

/-- UNASSIGN-ROBOT (R47). -/
def execUnassignRobot (tag slot : Byte) (s : State) : Host.Outcome State Fault Refusal :=
  .next (s.goodFrame 0x08 tag (unassignOwner slot))

/-! ## Joining (R48, R49) -/

/-- A JOIN as the roster answers it (R48, R49, Table 3-4). -/
def State.joinOn (s : State) (team robotId : Half) (kit : Byte) : State × JoinResult :=
  match s.slotOfTeam team with
  | none => (s, .unknownTeam)
  | some k =>
    let r := s.robot k
    match r.robotId with
    | some bound =>
      if bound = robotId then
        if r.state.isLinked then
          ((s.setRobot k { r with kitRevision := some kit, openRequest := none }).raiseRobot k
            (.rejoined robotId kit r.state), .joined k)
        else
          ((s.setRobot k { r with kitRevision := some kit, state := .linked, unheard := 0, silent := false }).raiseRobot k
            (.joined robotId kit), .joined k)
      else (s.raiseRobot k (.duplicateTeam bound robotId), .teamTaken)
    | none =>
      ((s.setRobot k { r with robotId := some robotId, kitRevision := some kit, state := .linked, unheard := 0,
                              silent := false }).raiseRobot k (.joined robotId kit), .joined k)

/-! ## Frames in a reply slot (R51, R53) -/

/-- A frame taken ends the silence: cycles unheard becomes 0 (R53). -/
def State.hear (s : State) (k : Slot) : State :=
  let r := s.robot k
  let t := s.setRobot k { r with unheard := 0, silent := false }
  if r.silent then t.raiseRobot k .heard else t

/-- The ready flag of a frame taken (R51, Table 3-5). -/
def State.readyFlag (s : State) (k : Slot) (ready : Bool) : State :=
  let r := s.robot k
  match r.state, ready with
  | .linked, true =>
    if s.mch.phase.inMatch then
      if r.ejectedMark then s
      else (s.setRobot k { r with state := .active }).raiseRobot k .lateArrival
    else (s.setRobot k { r with state := .ready }).raiseRobot k .ready
  | .ready, false => (s.setRobot k { r with state := .linked }).raiseRobot k .notReady
  | .linked, false | .ready, true => s
  | .vacant, _ | .assigned, _ | .active, _ | .benched, _ | .ejected, _ => s

/-! ## Robot requests handed on (R61, R77) -/

/-- A robot request with its operands. -/
inductive RobotRequest where
  | claim (element : Byte)
  | release (element : Byte)
  | cancel
  | act (element : Byte) (setpoint : GateTarget)
  | ackSignal (mask : Byte)
  deriving DecidableEq, Repr

/-- The kind of a robot request. -/
def RobotRequest.kind : RobotRequest → ReqKind
  | .claim _ => .claim
  | .release _ => .release
  | .cancel => .cancel
  | .act _ _ => .act
  | .ackSignal _ => .ackSignal

/-- The element of a robot request, for CLAIM, RELEASE and ACT (Table 3-8). -/
def RobotRequest.element : RobotRequest → Option Byte
  | .claim e => some e
  | .release e => some e
  | .act e _ => some e
  | .cancel | .ackSignal _ => none

/-- ACK-SIGNAL as the roster takes it (R63). -/
def State.ackOn (s : State) (k : Slot) (mask : Byte) : State :=
  let flags := (s.robot k).signals
  let t := s.modRobot k fun r => { r with signals := ackFlags flags mask }
  (t.answerNow k .acked (some (ackFlags flags mask).toNat)).raiseRobot k (.signalAcknowledged (flags &&& mask))

/-- A request number is new for the robot: its open request is absent, or ANSWERED with another number (R77, Table 4-2). -/
def RobotRecord.isNew (r : RobotRecord) (number : BitVec 4) : Bool :=
  match r.openRequest with
  | none => true
  | some o => o.answered && o.number != number

/-- A new open request record: PENDING with WAIT and no detail (R61). -/
def RobotRequest.record (q : RobotRequest) (number : BitVec 4) : OpenRequest :=
  { number := number, kind := q.kind, element := q.element, answered := false, code := .wait, detail := none }

/-- The open request becomes a new record (R61). -/
def State.openNew (s : State) (k : Slot) (number : BitVec 4) (q : RobotRequest) : State :=
  s.modRobot k fun r => { r with openRequest := some (q.record number) }

/-- A request handed on to its owner: the open request is replaced and the owner takes the request (R61, R77). A number of
0, a repeat, or a request made while another is pending hands nothing on, and neither does a robot that is not linked
(R50, R76, assumption 5). -/
def State.handOn (s : State) (k : Slot) (number : BitVec 4) (q : RobotRequest) (owner : State → State) : State :=
  if (s.robot k).state.isLinked && number != 0#4 && (s.robot k).isNew number then owner (s.openNew k number q) else s

/-- CLAIM (R22, R23): a new request handed to the claim arbiter. -/
def execClaim (slot : Slot) (number : BitVec 4) (element : Byte) (s : State) : Host.Outcome State Fault Refusal :=
  .next (s.handOn slot number (.claim element) fun t => t.claimOn slot element)

/-- RELEASE (R22, R29): a new request handed to the claim arbiter. -/
def execRelease (slot : Slot) (number : BitVec 4) (element : Byte) (s : State) : Host.Outcome State Fault Refusal :=
  .next (s.handOn slot number (.release element) fun t => t.releaseOn slot element)

/-- CANCEL (R22, R30): a new request handed to the claim arbiter. -/
def execCancel (slot : Slot) (number : BitVec 4) (s : State) : Host.Outcome State Fault Refusal :=
  .next (s.handOn slot number .cancel fun t => t.cancelOn slot)

/-- ACT (R141): a new request handed to the gate handler. -/
def execAct (slot : Slot) (number : BitVec 4) (element : Byte) (setpoint : GateTarget) (s : State) :
    Host.Outcome State Fault Refusal :=
  .next (s.handOn slot number (.act element setpoint) fun t => t.actOn slot number element setpoint)

/-- ACK_SIGNAL (R63): a new request that the roster takes. -/
def execAckSignal (slot : Slot) (number : BitVec 4) (mask : Byte) (s : State) : Host.Outcome State Fault Refusal :=
  .next (s.handOn slot number (.ackSignal mask) fun t => t.ackOn slot mask)

/-! ## Silence and drop (R53 to R55) -/

/-- Cycles unheard of every linked robot rise by one, up to 255 (R53). -/
def State.countCycle (s : State) : State :=
  s.eachSlot fun k t =>
    if (t.robot k).state.isLinked then t.modRobot k fun r => { r with unheard := min 255 (r.unheard + 1) } else t

/-- The robot becomes silent (R54). -/
def State.fallSilent (s : State) (k : Slot) : State :=
  (s.modRobot k fun r => { r with silent := true }).raiseRobot k (.silent (s.robot k).unheard)

/-- The robot is dropped: vacated if ACTIVE, and returned to ASSIGNED with its binding kept (R38, R55). -/
def State.dropRobot (s : State) (k : Slot) : State :=
  let former := (s.robot k).state
  let t := if former = .active then s.vacate k .drop else s
  (t.modRobot k fun r =>
    { r with openRequest := none, bench := none, state := .assigned, silent := false, unheard := 0 }).raiseRobot k (.dropped former)

/-- The silence rule for a robot at a cycle start (R54). -/
def State.checkSilence (s : State) (k : Slot) : State :=
  let r := s.robot k
  if r.state.isLinked ∧ r.silent = false ∧ s.roster.silenceLimit ≤ r.unheard then s.fallSilent k else s

/-- The drop rule for a robot at a cycle start (R55). -/
def State.checkDrop (s : State) (k : Slot) : State :=
  let r := s.robot k
  if r.state.isLinked ∧ s.roster.dropLimit ≤ r.unheard then s.dropRobot k else s

/-- The roster at a cycle start: it counts, then applies R54 and R55 to each robot (R53). The robots are taken in ascending
slot order, each with its silence before its drop, which no rule orders (assumption 30). -/
def State.rosterCycle (s : State) : State := s.countCycle.eachSlot fun k t => (t.checkSilence k).checkDrop k

/-- ROBOT_SILENT (R54): the cycle that brings a linked robot's cycles unheard to the silence limit makes it silent
(assumption 3). -/
def execRobotSilent (slot : Slot) (s : State) : Host.Outcome State Fault Refusal :=
  .next (
    let r := s.robot slot
    if r.state.isLinked ∧ r.silent = false ∧ s.roster.silenceLimit ≤ r.unheard + 1 then
      (s.modRobot slot fun r => { r with unheard := max r.unheard s.roster.silenceLimit }).fallSilent slot
    else s)

/-- DROP (R55): the cycle that brings a linked robot's cycles unheard to the drop limit drops it (assumption 3). -/
def execDrop (slot : Slot) (s : State) : Host.Outcome State Fault Refusal :=
  .next (
    let r := s.robot slot
    if r.state.isLinked ∧ s.roster.dropLimit ≤ r.unheard + 1 then s.dropRobot slot else s)

/-! ## Bench, reinstate, eject (R56 to R59) -/

/-- The slot a request names, checked as R56, R58 and R59 do: the phase, the slot, then VACANT. -/
def slotInMatch (s : State) (slot : Byte) (valid : Bool) : Slot ⊕ Status :=
  if !s.mch.phase.inMatch then .inr .wrongPhase
  else match slotOf slot with
  | none => .inr .badValue
  | some k => if !valid then .inr .badValue else if (s.robot k).state = .vacant then .inr .noSuchRobot else .inl k

/-- The robot is benched for a time in tenths (R56). -/
def State.benchRobot (s : State) (k : Slot) (tenths : Nat) : State :=
  (s.modRobot k fun r => { r with state := .benched, bench := some tenths }).raiseRobot k (.benched tenths)

/-- The owner's part of BENCH (R56). -/
def benchOwner (slot seconds : Byte) (s : State) : Answered :=
  match slotInMatch s slot (decide (1 ≤ seconds.toNat) && decide (seconds.toNat ≤ 120)) with
  | .inr status => refuse s status
  | .inl k =>
    match (s.robot k).state with
    | .active => taken ((s.vacate k .bench).benchRobot k (seconds.toNat * 10)) .empty
    | .benched => taken (s.benchRobot k (seconds.toNat * 10)) .empty
    | .vacant | .assigned | .linked | .ready | .ejected => refuse s .notReady

/-- BENCH (R56). -/
def execBench (tag slot seconds : Byte) (s : State) : Host.Outcome State Fault Refusal :=
  .next (s.goodFrame 0x0F tag (benchOwner slot seconds))

/-- A BENCHED robot returns to ACTIVE (R57, R58). -/
def State.unbench (s : State) (k : Slot) (notice : RobotNotice) : State :=
  (s.modRobot k fun r => { r with state := .active, bench := none }).raiseRobot k notice

/-- The owner's part of REINSTATE (R58). -/
def reinstateOwner (slot : Byte) (s : State) : Answered :=
  match slotInMatch s slot true with
  | .inr status => refuse s status
  | .inl k => if (s.robot k).state = .benched then taken (s.unbench k .reinstated) .empty else refuse s .notReady

/-- REINSTATE (R58). -/
def execReinstate (tag slot : Byte) (s : State) : Host.Outcome State Fault Refusal :=
  .next (s.goodFrame 0x10 tag (reinstateOwner slot))

/-- The robot is ejected and its ejected mark set (R59). -/
def State.ejectRobot (s : State) (k : Slot) (former : RobotState) : State :=
  (s.modRobot k fun r => { r with state := .ejected, bench := none, ejectedMark := true }).raiseRobot k (.ejected former)

/-- The owner's part of EJECT (R59). -/
def ejectOwner (slot : Byte) (s : State) : Answered :=
  match slotInMatch s slot true with
  | .inr status => refuse s status
  | .inl k =>
    match (s.robot k).state with
    | .active => taken ((s.vacate k .eject).ejectRobot k .active) .empty
    | .benched => taken (s.ejectRobot k .benched) .empty
    | .vacant | .assigned | .linked | .ready | .ejected => refuse s .notReady

/-- EJECT (R59). -/
def execEject (tag slot : Byte) (s : State) : Host.Outcome State Fault Refusal :=
  .next (s.goodFrame 0x11 tag (ejectOwner slot))

/-- A robot at a tenth of match time: a bench is counted down and ends at 0 (R57). -/
def State.benchTenth (s : State) (k : Slot) : State :=
  match (s.robot k).state, (s.robot k).bench with
  | .benched, some n => if n ≤ 1 then s.unbench k .benchEnded else s.modRobot k fun r => { r with bench := some (n - 1) }
  | _, _ => s

/-- BENCH_ENDED (R57): the tenth that brings a bench remaining to 0 returns the robot to ACTIVE (assumption 3). -/
def execBenchEnded (slot : Slot) (s : State) : Host.Outcome State Fault Refusal :=
  .next (match (s.robot slot).state, (s.robot slot).bench with
    | .benched, some n => if s.matchRuns && decide (n ≤ 1) then s.unbench slot .benchEnded else s
    | _, _ => s)

/-! ## SIGNAL (R62) and READ-ROBOT (R65) -/

/-- The owner's part of SIGNAL (R62). -/
def signalOwner (slot setMask clearMask : Byte) (s : State) : Answered :=
  match slotOf slot with
  | none => refuse s .badValue
  | some k =>
    if (s.robot k).state = .vacant then refuse s .noSuchRobot
    else
      let flags := signalFlags (s.robot k).signals setMask clearMask
      taken (s.modRobot k fun r => { r with signals := flags }) (.signals flags)

/-- SIGNAL (R62). -/
def execSignal (tag slot setMask clearMask : Byte) (s : State) : Host.Outcome State Fault Refusal :=
  .next (s.goodFrame 0x12 tag (signalOwner slot setMask clearMask))

/-- The owner's part of READ-ROBOT (R65). -/
def readRobotOwner (slot : Byte) (s : State) : Answered :=
  match slotOf slot with
  | none => refuse s .badValue
  | some k => taken s (.robot k (s.robot k) (s.picture k) (s.runs k))

/-- READ-ROBOT (R65). -/
def execReadRobot (tag slot : Byte) (s : State) : Host.Outcome State Fault Refusal :=
  .next (s.goodFrame 0x19 tag (readRobotOwner slot))

/-! ## Match events (R52, R67) -/

/-- At START every READY robot becomes ACTIVE (R52). -/
def State.activateReady (s : State) : State :=
  s.eachSlot fun k t => if (t.robot k).state = .ready then t.modRobot k fun r => { r with state := .active } else t

/-- At ENDED every ACTIVE and BENCHED robot becomes READY (R52). -/
def State.robotsToReady (s : State) : State :=
  s.eachSlot fun k t =>
    if (t.robot k).state = .active ∨ (t.robot k).state = .benched then
      t.modRobot k fun r => { r with state := .ready, bench := none }
    else t

/-- At CLEAR-MATCH every EJECTED robot becomes LINKED and every ejected mark is cleared (R67). -/
def State.clearEjections (s : State) : State :=
  s.eachSlot fun k t => t.modRobot k fun r =>
    { r with state := if r.state = .ejected then .linked else r.state, ejectedMark := false }

end Sys2Proof.Machine
end

