-- ==== Sys2Proof/Machine/Holds.lean ====
section
/-! DEFINITION. The hold stack: pushes, pends and absorptions, HOLD and RESUME, the FIELD_STOP filter and the host silence timer's expiry (chapter 8.2). -/
namespace Sys2Proof.Machine

/-! ## Pushing (R161, R162) -/

/-- A number that no record on the stack holds, or the number reached after `n` steps of the source (R161). The stack holds
at most 6 records, so 7 steps always find a free one. -/
def freeNumber (stack : List Hold) : Nat → Byte → Byte
  | 0, number => number
  | n + 1, number => if stack.any (fun h => h.number == number) then freeNumber stack n (nextNumber number) else number

/-- The number the hold number source gives next (R161). -/
def Mch.nextHold (m : Mch) : Byte := freeNumber m.stack (Config.stackPlaces + 1) (nextNumber m.lastNumber)

/-- The record of a push made now (R162). -/
def Mch.newHold (m : Mch) (cause : HoldCause) (detail : Option Byte) : Hold :=
  { number := m.nextHold, cause := cause, detail := detail, matchTime := m.matchTime, phase := m.phase }

/-- The match clock with a record placed on top of the stack (R162). -/
def Mch.push (m : Mch) (h : Hold) : Mch := { m with stack := h :: m.stack, lastNumber := h.number }

/-- A hold is pushed (R162): the record on top, the notice, every RUNNING carriage HALTED, a STOP_ALL asked for. -/
def State.pushHold (s : State) (cause : HoldCause) (detail : Option Byte) : State :=
  let h := s.mch.newHold cause detail
  let t := s.setMch (s.mch.push h)
  let t := t.raiseHold (.pushed h.number cause detail t.mch.stack.length)
  (t.eachIndex fun i u => u.haltCarriage i).askStopAll

/-- The stack holds 6 (R161). -/
def Mch.stackFull (m : Mch) : Bool := decide (Config.stackPlaces ≤ m.stack.length)

/-- A hold of a cause stands in the pending set. -/
def PendingSet.has (p : PendingSet) : HoldCause → Bool
  | .fieldStop => p.fieldStop
  | .hostLost => p.hostLost
  | .elementFault => p.elementFault.isSome
  | .hostHold => false

/-- A cause that can pend, with its detail (R161). -/
inductive PushRequest where
  | fieldStop
  | hostLost
  | elementFault (index : Index)
  deriving DecidableEq, Repr

/-- The cause of a push request. -/
def PushRequest.cause : PushRequest → HoldCause
  | .fieldStop => .fieldStop
  | .hostLost => .hostLost
  | .elementFault _ => .elementFault

/-- The detail of a push request (R162). -/
def PushRequest.detail : PushRequest → Option Byte
  | .elementFault i => some (indexByte i)
  | .fieldStop | .hostLost => none

/-- The pending set with one more hold (R162). -/
def PendingSet.add (p : PendingSet) : PushRequest → PendingSet
  | .fieldStop => { p with fieldStop := true }
  | .hostLost => { p with hostLost := true }
  | .elementFault i => { p with elementFault := some i }

/-- The first row of Table 8-6 absorbs the request. -/
def Mch.absorbsLost (m : Mch) (q : PushRequest) : Bool :=
  q.cause == .hostLost && (m.stack.any (fun h => h.cause == .hostLost) || m.pendingSet.hostLost)

/-- A request to push a hold of cause FIELD_STOP, ELEMENT_FAULT or HOST_LOST (R162, Table 8-6). -/
def State.requestPush (s : State) (q : PushRequest) : State :=
  if s.mch.absorbsLost q then s.raiseHold (.absorbed q.cause q.detail)
  else if s.mch.stackFull then
    if s.mch.pendingSet.has q.cause then s.raiseHold (.absorbed q.cause q.detail)
    else (s.setMch { s.mch with pendingSet := s.mch.pendingSet.add q }).raiseHold (.pended q.cause q.detail)
  else s.pushHold q.cause q.detail

/-! ## HOLD (R165) -/

/-- The owner's part of HOLD (R165). -/
def holdOwner (holdTag : Byte) (s : State) : Answered :=
  if s.mch.stackFull then refuse s .holdFull
  else taken (s.pushHold .hostHold (some holdTag)) (.holdNumber s.mch.nextHold)

/-- HOLD (R165). -/
def execHold (tag holdTag : Byte) (s : State) : Host.Outcome State Fault Refusal :=
  .next (s.goodFrame 0x0D tag (holdOwner holdTag))

/-! ## RESUME (R166) -/

/-- The pending hold that a RESUME pushes: FIELD_STOP, then HOST_LOST, then ELEMENT_FAULT (R166). -/
def PendingSet.first (p : PendingSet) : Option PushRequest :=
  if p.fieldStop then some .fieldStop
  else if p.hostLost then some .hostLost
  else p.elementFault.map .elementFault

/-- The pending set with one hold fewer (R166). -/
def PendingSet.remove (p : PendingSet) : PushRequest → PendingSet
  | .fieldStop => { p with fieldStop := false }
  | .hostLost => { p with hostLost := false }
  | .elementFault _ => { p with elementFault := none }

/-- The top record is removed (R166). -/
def State.popHold (s : State) (top : Hold) (rest : List Hold) : State :=
  (s.setMch { s.mch with stack := rest }).raiseHold (.popped top.number top.cause top.detail rest.length)

/-- One pending hold is pushed, when one waits (R166). -/
def State.pushPending (s : State) : State :=
  match s.mch.pendingSet.first with
  | some q => (s.setMch { s.mch with pendingSet := s.mch.pendingSet.remove q }).pushHold q.cause q.detail
  | none => s

/-- The stack empty event: every HALTED carriage is restarted (R151, R166), several by ascending index, which no rule orders
(assumption 30). Match time and HALT_OUT follow the stack. -/
def State.stackEmptied (s : State) : State :=
  if s.held then s else s.eachIndex fun i t => t.restartCarriage i

/-- The number of the hold a RESUME pushes from the pending set (R166). -/
def State.pushedNumber (s : State) : Option Byte := s.mch.pendingSet.first.map fun _ => s.mch.nextHold

/-- The owner's part of RESUME (R166, Table 8-7). -/
def resumeOwner (number : Byte) (s : State) : Answered :=
  if number = 0 then refuse s .badValue
  else match s.mch.stack with
  | [] => refuse s .wrongHold
  | top :: rest =>
    if top.number ≠ number then refuse s .wrongHold
    else if top.cause = .fieldStop ∧ s.mch.filtered then refuse s .stopActive
    else
      let popped := s.popHold top rest
      let t := popped.pushPending.stackEmptied
      taken t (.resumed t.mch.stack.length popped.pushedNumber)

/-- RESUME (R166). -/
def execResume (tag number : Byte) (s : State) : Host.Outcome State Fault Refusal :=
  .next (s.goodFrame 0x0E tag (resumeOwner number))

/-! ## The host silence timer and the FIELD_STOP filter (R163, R164) -/

/-- The host silence timer at its expiry (R164). -/
def Mch.silenceOut (m : Mch) : Mch :=
  { m with silenceElapsed := m.hostLimit * Config.secondSlices, silenceExpired := true }

/-- HOST_SILENCE_EXPIRY (R164): the running timer expires and requests a push of cause HOST_LOST. -/
def execHostSilenceExpiry (s : State) : Host.Outcome State Fault Refusal :=
  .next (if s.silenceRunning then (s.setMch s.mch.silenceOut).requestPush .hostLost else s)

/-- FIELD_STOP_LINE_CHANGE (R163): the raw level changes and the 10 ms start afresh. -/
def execFieldStopLineChange (asserted : Bool) (s : State) : Host.Outcome State Fault Refusal :=
  .next (if s.mch.raw = asserted then s else s.setMch { s.mch with raw := asserted, rawHeld := 0 })

/-- FIELD_STOP_ASSERTED (R163): the filtered level asserts and a push of cause FIELD_STOP is requested. -/
def execFieldStopAsserted (s : State) : Host.Outcome State Fault Refusal :=
  .next (if s.mch.raw && !s.mch.filtered then (s.setMch { s.mch with filtered := true }).requestPush .fieldStop else s)

/-- FIELD_STOP_RELEASED (R163): the filtered level releases; no hold is popped. -/
def execFieldStopReleased (s : State) : Host.Outcome State Fault Refusal :=
  .next (if !s.mch.raw && s.mch.filtered then s.setMch { s.mch with filtered := false } else s)

end Sys2Proof.Machine
end

