-- ==== Sys2Proof/Machine/Ends.lean ====
section
/-! DEFINITION. Ends of transactions: the check of a reply frame, the common part at each end, the hand-on to the kind handlers, and the hold an entry to FAULT asks for (chapter 1.3, R87, R109 to R111, R195). -/
namespace Sys2Proof.Machine

/-! ## Reply frames (R87, R195, Table 11-8) -/

/-- A carriage's reading: zone, status and present speed (Table 11-8). -/
def carriageReadingOf (zone status speed : Byte) : Option Reading :=
  if h : zone.toNat < 8 then
    if status.toNat < 8 ∧ -100 ≤ speed.toInt ∧ speed.toInt ≤ 100 then
      some (.carriage ⟨zone.toNat, h⟩ (status.getLsbD 0) (status.getLsbD 1) (status.getLsbD 2) speed.toInt)
    else none
  else none

/-- The reading a poll reply carries, when its length fits the kind and each field holds a value of Table 11-8 (R195). -/
def readingOf (k : Kind) (bytes : List Byte) : Option Reading :=
  match k, bytes with
  | .goal, [counter, status] => if status.toNat < 2 then some (.goal counter (status.getLsbD 0)) else none
  | .gate, [position] => (gatePositionOf position).map .gate
  | .station, [occupied] => (yesNoOf occupied).map .station
  | .carriage, [zone, status, speed] => carriageReadingOf zone status speed
  | _, _ => none

/-- What a reply frame makes of the transaction in flight. -/
inductive BusResult where
  | polled (epoch : Byte) (reading : Reading)
  | driven
  | failed
  deriving DecidableEq, Repr

/-- The checks of a reply frame: CRC, source address, type, length, and the fields of a reading (R87, R195). -/
def checkReply (k : Kind) (address : Byte) (op : BusOp) (frame : List Byte) : BusResult :=
  let parts := splitCrc frame
  if crcRight (busCrc parts.1) parts.2 then
    match parts.1 with
    | source :: type :: epoch :: fields =>
      if source = address then
        match op with
        | .poll _ =>
          if type = 0x81#8 then
            match readingOf k fields with
            | some reading => .polled epoch reading
            | none => .failed
          else .failed
        | .lamp _ | .motion _ => if type = 0x82#8 ∧ fields = [] then .driven else .failed
        | .stopAll => .failed
      else .failed
    | _ => .failed
  else .failed

/-! ## The common part (R9 to R13, R15) -/

/-- The reading reports a sensor fault (R195). -/
def Reading.sensorFault : Reading → Bool
  | .goal _ sensorBreak => sensorBreak
  | .carriage _ _ _ encoderFault _ => encoderFault
  | .gate _ | .station _ => false

/-- The node restarted: a stored epoch differs from the reply's (R10). -/
def ElementRecord.restartedBy (r : ElementRecord) (epoch : Byte) : Bool :=
  match r.epoch with
  | some stored => stored != epoch
  | none => false

/-- A goal's piece delta (R11). -/
def pieceDelta (before : Option Reading) (now : Reading) (restarted : Bool) : Nat :=
  match before, now with
  | some (.goal old false), .goal new false => if restarted then 0 else (new - old).toNat
  | _, _ => 0

/-- The state after a completed poll (R9). -/
def stateAfterPoll (sensorFault : Bool) : ElementState := if sensorFault then .fault .sensor else .online

/-- The notice of a completed poll's change of state (R9). -/
def pollNotice (before : ElementState) (sensorFault : Bool) : Option ElementNotice :=
  match before, sensorFault with
  | .probing, false => some .online
  | .online, false => none
  | .fault _, false => some .restored
  | .probing, true => some (.fault .sensor)
  | .online, true => some (.fault .sensor)
  | .fault .missing, true => some (.fault .sensor)
  | .fault .sensor, true => none

/-- The record after a completed poll (R9, R10). -/
def ElementRecord.polled (r : ElementRecord) (epoch : Byte) (reading : Reading) : ElementRecord :=
  { r with failures := 0, epoch := some epoch, reading := some reading, state := stateAfterPoll reading.sensorFault,
           sticky := { r.sticky with restarted := r.sticky.restarted || r.restartedBy epoch } }

/-- A failure count after one more failure (R13). -/
def oneMoreFailure (n : Nat) : Nat := if 3 ≤ n then 3 else n + 1

/-- The state after a failed transaction (R13). -/
def stateAfterFailure (before : ElementState) (count : Nat) : ElementState := if 3 ≤ count then .fault .missing else before

/-- The notice of a failed transaction's change of state (R13). -/
def failureNotice (before : ElementState) (count : Nat) : Option ElementNotice :=
  if 3 ≤ count ∧ before ≠ .fault .missing then some (.fault .missing) else none

/-- The record after a failed transaction (R13). -/
def ElementRecord.failed (r : ElementRecord) : ElementRecord :=
  { r with failures := oneMoreFailure r.failures, state := stateAfterFailure r.state (oneMoreFailure r.failures) }

/-- An ELEMENT notice, when there is one. -/
def State.raiseElement? (s : State) (i : Index) (n : Option ElementNotice) : State :=
  match n with
  | some n => s.raiseElement i n
  | none => s

/-- An entry to FAULT, from PROBING or ONLINE, that asks for a hold in the present phase (R15). -/
def State.faultAsksHold (s : State) (before after : ElementRecord) : Bool :=
  !before.inFault && after.inFault && s.mch.phase.inMatch && before.faultHolds

/-- The hold request of an entry to FAULT, made after the handler has taken the end (R8, R15). -/
def State.holdForFault (s : State) (i : Index) (asks : Bool) : State := if asks then s.requestPush (.elementFault i) else s

/-! ## Completed polls (R9, R109) -/

/-- The reading handed to the kind handler (R8, R109). -/
def State.handReading (s : State) (i : Index) (role : PollRole) (reading : Reading) (delta : Nat) (restarted : Bool) : State :=
  match reading with
  | .goal _ _ => s.goalPolled i role delta restarted
  | .gate position => s.gatePolled i position
  | .station occupied => s.stationPolled i occupied restarted
  | .carriage zone front rear encoderFault _ => s.carriagePolled i zone front rear encoderFault restarted

/-- A completed poll of a defined element (R9 to R11, R15, R109). -/
def State.pollCompleted (s : State) (i : Index) (role : PollRole) (epoch : Byte) (reading : Reading) : State :=
  match s.elem i with
  | some r =>
    let restarted := r.restartedBy epoch
    let t := s.setElem i (some (r.polled epoch reading))
    let t := t.raiseElement? i (if restarted then some .restarted else none)
    let t := t.raiseElement? i (pollNotice r.state reading.sensorFault)
    let t := t.handReading i role reading (pieceDelta r.reading reading restarted) restarted
    (t.setDue i).holdForFault i (s.faultAsksHold r (r.polled epoch reading))
  | none => s

/-! ## Completed drives (R12) -/

/-- A completed drive of a defined element: the failure count becomes 0 and a gate's travel timing starts (R12, R109,
R143). -/
def State.driveCompleted (s : State) (i : Index) (op : BusOp) : State :=
  let t := s.modElem i fun r => { r with failures := 0 }
  match op with
  | .motion (.gate _) => t.gateDriven i
  | .motion (.carriage _) | .lamp _ | .poll _ | .stopAll => t

/-! ## Failures (R13, R110) -/

/-- The failure handed to the kind handler (R8, R110). -/
def State.handFailure (s : State) (i : Index) (k : Kind) (op : BusOp) : State :=
  match k with
  | .goal => s.goalFailed i op
  | .gate => s.gateFailed i op
  | .station => s.stationFailed i op
  | .carriage => s.carriageFailed i op

/-- A failed transaction of a defined element (R13, R15, R110). -/
def State.transactionFailed (s : State) (i : Index) (op : BusOp) : State :=
  match s.elem i with
  | some r =>
    let t := s.setElem i (some r.failed)
    let t := t.raiseElement? i (failureNotice r.state (oneMoreFailure r.failures))
    let t := t.handFailure i r.part.kind op
    let t := match op with
      | .poll _ => t.setDue i
      | .lamp _ | .motion _ | .stopAll => t
    t.holdForFault i (s.faultAsksHold r r.failed)
  | none => s

/-! ## BUS_REPLY and REPLY_TIMEOUT (R87, R88) -/

/-- The end of an addressed transaction, by what the reply frame made of it. -/
def State.endWith (s : State) (i : Index) (op : BusOp) : BusResult → State
  | .polled epoch reading =>
    match op with
    | .poll role => s.pollCompleted i role epoch reading
    | .lamp _ | .motion _ | .stopAll => s
  | .driven => s.driveCompleted i op
  | .failed => s.transactionFailed i op

/-- The transaction in flight ends on a frame; the end of an orphaned one is reported to nobody (R7, R87, R111). -/
def State.replied (s : State) (f : InFlight) (frame : List Byte) : State :=
  match f.entry.element with
  | none => s
  | some i =>
    if f.orphaned then s.endTransaction
    else match s.elem i with
    | some r => s.endTransaction.endWith i f.entry.op (checkReply r.part.kind f.address f.entry.op frame)
    | none => s.endTransaction

/-- The reply window of a transaction in flight is open: it is no STOP_ALL, and its request frame has been sent (R87, R89). The
window's close is REPLY_TIMEOUT, which ends the transaction. -/
def InFlight.windowOpen (f : InFlight) : Bool := !f.entry.isStop && decide (Config.requestSlices ≤ f.elapsed)

/-- BUS_REPLY (R87): the first frame in the reply window completes or fails the addressed transaction in flight; with none in
flight, or outside its window, the frame is ignored (R88). -/
def execBusReply (frame : List Byte) (s : State) : Host.Outcome State Fault Refusal :=
  .next (match s.ebc.inFlight with
    | some f => if f.windowOpen then s.replied f frame else s
    | none => s)

/-- The reply window of the transaction in flight closes (R87). -/
def State.timedOut (s : State) (f : InFlight) : State :=
  match f.entry.element with
  | none => s
  | some i => if f.orphaned then s.endTransaction else s.endTransaction.transactionFailed i f.entry.op

/-- REPLY_TIMEOUT (R87): the addressed transaction in flight has failed. -/
def execReplyTimeout (s : State) : Host.Outcome State Fault Refusal :=
  .next (match s.ebc.inFlight with
    | some f => if f.entry.isStop then s else s.timedOut f
    | none => s)

end Sys2Proof.Machine
end

