-- ==== Sys2Proof/Machine/Elements.lean ====
section
/-! DEFINITION. DEFINE-ELEMENT, REMOVE-ELEMENT and READ-ELEMENT (chapter 1.2 and 1.5). -/
namespace Sys2Proof.Machine

/-! ## DEFINE-ELEMENT (R3 to R5) -/

/-- Another defined record uses the address (Table 1-2). -/
def State.addressTaken (s : State) (i : Index) (address : Byte) : Bool :=
  indices.any fun j => j != i && match s.elem j with
    | some r => r.address == address
    | none => false

/-- The bus bookkeeping of an element that is due at once, its refresh poll asked for (R4, R94). -/
def State.schedNew (s : State) : Sched := { Sched.clear with due := some s.now, owed := true }

/-- The lamp of a new goal or station is driven with its lit state; other kinds ask for nothing (R113, R133, R140, R147). -/
def State.askFirstLamp (s : State) (i : Index) (part : KindPart) : State :=
  match part with
  | .goal p => s.askLamp i p.lit
  | .station p => s.askLamp i p.lit
  | .gate _ | .carriage _ => s

/-- The record starts afresh, due for a refresh poll at once (R4); the old definition of the index is put away before (R5). -/
def State.define (s : State) (i : Index) (r : ElementRecord) : State :=
  let t := if (s.elem i).isSome then s.putAway i else s
  let t := (t.setElem i (some r)).setSched i s.schedNew
  ((t.askRefresh i).askFirstLamp i r.part).raiseElement i (.defined r.part.kind)

/-- The owner's part of DEFINE-ELEMENT (R3, Table 1-2), after the coding check of R193. -/
def defineOwner (f : ElementFields) (s : State) : Answered :=
  if !fieldsCoded f then refuse s .badValue
  else if s.mch.phase ≠ .setup then refuse s .wrongPhase
  else match recordOf f with
  | none => refuse s .badValue
  | some (i, r) => if s.addressTaken i r.address then refuse s .addressInUse else taken (s.define i r) .empty

/-- DEFINE-ELEMENT (R3 to R5). -/
def execDefineElement (tag : Byte) (fields : ElementFields) (s : State) : Host.Outcome State Fault Refusal :=
  .next (s.goodFrame 0x05 tag (defineOwner fields))

/-! ## REMOVE-ELEMENT (R6) -/

/-- The record becomes UNDEFINED and leaves the refresh schedule (R6). -/
def State.undefine (s : State) (i : Index) : State :=
  (((s.putAway i).setElem i none).setSched i Sched.clear).raiseElement i .removed

/-- The owner's part of REMOVE-ELEMENT (R6). -/
def removeOwner (index : Byte) (s : State) : Answered :=
  if s.mch.phase ≠ .setup then refuse s .wrongPhase
  else match indexOf index with
  | none => refuse s .badValue
  | some i => if (s.elem i).isSome then taken (s.undefine i) .empty else refuse s .noSuchElement

/-- REMOVE-ELEMENT (R6). -/
def execRemoveElement (tag index : Byte) (s : State) : Host.Outcome State Fault Refusal :=
  .next (s.goodFrame 0x06 tag (removeOwner index))

/-! ## READ-ELEMENT (R17) -/

/-- The owner's part of READ-ELEMENT: the record as it stood, and five sticky flags cleared (R17). -/
def readElementOwner (index : Byte) (s : State) : Answered :=
  match indexOf index with
  | none => refuse s .badValue
  | some i =>
    match s.elem i with
    | none => refuse s .noSuchElement
    | some r => taken (s.modSticky i Sticky.afterRead) (.element i r)

/-- READ-ELEMENT (R17). -/
def execReadElement (tag index : Byte) (s : State) : Host.Outcome State Fault Refusal :=
  .next (s.goodFrame 0x18 tag (readElementOwner index))

end Sys2Proof.Machine
end

