-- ==== Sys2Proof/Machine/MatchClock.lean ====
section
/-! DEFINITION. The match clock: SET-TIMING, ARM, START, END-MATCH, CLEAR-MATCH, phase entries, the tenth of match time and the running out of a phase (chapter 8.1). -/
namespace Sys2Proof.Machine

/-! ## Phase entries (R157) -/

/-- A phase is set and its PHASE notice raised (R157). -/
def State.setPhase (s : State) (p : Phase) (cause : PhaseCause) (remaining : Nat) : State :=
  let t := s.setMch { s.mch with phase := p, remaining := remaining }
  t.raise (.phase p cause t.mch.matchTime remaining t.held)

/-- ENDED is entered: claims emptied, robots READY, windows evaluated, the final snapshot prepared (Table 8-4). The host
silence timer stops with the phase. -/
def State.enterEnded (s : State) (cause : PhaseCause) : State :=
  let t := (((s.setPhase .ended cause 0).emptyClaims).robotsToReady).evaluateWindows
  t.awaitFinal t.closingGoals

/-- A match phase is entered when its predecessor ran out: every window is evaluated (Table 8-4). -/
def State.enterNext (s : State) (p : Phase) (remaining : Nat) : State := (s.setPhase p .ranOut remaining).evaluateWindows

/-! ## SET-TIMING (R154, R71) -/

/-- The phase durations with the present fields replaced. -/
def Durations.update (d : Durations) (t : TimingFields) : Durations :=
  { opening := halfOr d.opening t.openingTenths, transition := halfOr d.transition t.transitionTenths,
    play := halfOr d.play t.playTenths, finale := halfOr d.finale t.finaleTenths }

/-- Every present field replaces its stored value (R154); the interval becomes the pending interval (R71). -/
def State.setTimes (s : State) (t : TimingFields) : State :=
  let u := s.setRcc { s.rcc with pendingInterval := match t.interval with
    | some b => some b.toNat
    | none => s.rcc.pendingInterval }
  let u := u.setRoster { u.roster with
    silenceLimit := byteOr u.roster.silenceLimit t.silenceLimit, dropLimit := byteOr u.roster.dropLimit t.dropLimit }
  u.setMch { u.mch with durations := u.mch.durations.update t, hostLimit := byteOr u.mch.hostLimit t.hostSilence }

/-- Every timing setting as it stands; the interval is the pending one when there is one (R154, assumption 10). -/
def State.timingView (s : State) : TimingView :=
  { interval := s.rcc.pendingInterval.getD s.rcc.interval, silenceLimit := s.roster.silenceLimit,
    dropLimit := s.roster.dropLimit, durations := s.mch.durations, hostLimit := s.mch.hostLimit }

/-- The owner's part of SET-TIMING (R154). -/
def setTimingOwner (t : TimingFields) (s : State) : Answered :=
  if s.mch.phase ≠ .setup then refuse s .wrongPhase
  else if timingInRange t s.roster then taken (s.setTimes t) (.timing (s.setTimes t).timingView)
  else refuse s .badValue

/-- SET-TIMING (R154). -/
def execSetTiming (tag : Byte) (fields : TimingFields) (s : State) : Host.Outcome State Fault Refusal :=
  .next (s.goodFrame 0x03 tag (setTimingOwner fields))

/-! ## ARM and START (R155, R156) -/

/-- The first of OPENING, TRANSITION and PLAY whose duration is not 0, with that duration (R155, R156). -/
def Durations.firstPhase (d : Durations) : Phase × Nat :=
  if d.opening ≠ 0 then (.opening, d.opening)
  else if d.transition ≠ 0 then (.transition, d.transition)
  else (.play, d.play)

/-- Every robot slot is VACANT. -/
def State.allVacant (s : State) : Bool := slots.all fun k => (s.robot k).state == .vacant

/-- Every element record is UNDEFINED. -/
def State.allUndefined (s : State) : Bool := indices.all fun i => (s.elem i).isNone

/-- The host silence timer starts from 0 at ARM when its limit is not 0 (R155, R164). -/
def Mch.startSilence (m : Mch) : Mch :=
  if m.hostLimit ≠ 0 then { m with silenceElapsed := 0, silenceExpired := false } else m

/-- The owner's part of ARM (R155). -/
def armOwner (s : State) : Answered :=
  if s.mch.phase ≠ .setup then refuse s .wrongPhase
  else if s.allVacant || s.allUndefined then refuse s .notReady
  else taken ((s.setMch s.mch.startSilence).setPhase .staged .arm s.mch.durations.firstPhase.2).evaluateWindows .empty

/-- ARM (R155). -/
def execArm (tag : Byte) (s : State) : Host.Outcome State Fault Refusal := .next (s.goodFrame 0x09 tag armOwner)

/-- Some slot is ASSIGNED or LINKED (Table 8-3). -/
def State.someNotReady (s : State) : Bool :=
  slots.any fun k => (s.robot k).state == .assigned || (s.robot k).state == .linked

/-- The first match phase is entered at START: READY robots become ACTIVE and every window is evaluated (R156, R157). -/
def State.startMatch (s : State) : State :=
  let t := s.setMch { s.mch with matchTime := 0, tenthTimer := 0 }
  let first := t.mch.durations.firstPhase
  ((t.setPhase first.1 .start first.2).activateReady).evaluateWindows

/-- The owner's part of START (R156, Table 8-3), after the coding check of the force flag (R193). -/
def startOwner (force : Byte) (s : State) : Answered :=
  match yesNoOf force with
  | none => refuse s .badValue
  | some force =>
    if s.mch.phase ≠ .staged then refuse s .wrongPhase
    else if s.allVacant then refuse s .notReady
    else if s.someNotReady && !force then refuse s .notReady
    else taken s.startMatch .empty

/-- START (R156). -/
def execStart (tag force : Byte) (s : State) : Host.Outcome State Fault Refusal :=
  .next (s.goodFrame 0x0A tag (startOwner force))

/-! ## END-MATCH and CLEAR-MATCH (R159, R160) -/

/-- The owner's part of END-MATCH (R159). -/
def endMatchOwner (s : State) : Answered :=
  if s.mch.phase.inMatch then taken (s.enterEnded .endMatch) .empty else refuse s .wrongPhase

/-- END-MATCH (R159). -/
def execEndMatch (tag : Byte) (s : State) : Host.Outcome State Fault Refusal := .next (s.goodFrame 0x0B tag endMatchOwner)

/-- The match clock at CLEAR-MATCH, with the stack and the pending set emptied (R160). -/
def Mch.cleared (m : Mch) : Mch :=
  { m with phase := .setup, remaining := 0, matchTime := 0, tenthTimer := 0, stack := [], pendingSet := PendingSet.empty }

/-- The HOLD notice (cleared), when the stack or the pending set held anything (R160): the numbers oldest first, and the causes
in the order of assumption 11. -/
def State.noticeCleared (s : State) (before : Mch) : State :=
  if before.stack.isEmpty ∧ before.pendingSet = PendingSet.empty then s
  else s.raiseHold (.cleared (before.stack.reverse.map Hold.number) (before.pendingSet.list.map Prod.fst))

/-- The clearing reported to the blocks, in the order of R160. -/
def State.reportClear (s : State) : State :=
  let t := s.clearTally
  let t := t.eachIndex fun i u => u.clearGoal i
  let t := t.eachIndex fun i u => u.clearStation i
  let t := t.clearEjections
  let t := t.eachIndex fun i u => u.modSticky i Sticky.afterClearMatch
  let t := t.clearRoles
  t.eachIndex fun i u => u.stopHalted i

/-- CLEAR-MATCH taken (R160). Its first changes are made in the order in which R160 names them, which it does not call an order:
the HOLD notice (cleared) comes after the change of phase and match time, so that it carries 0 and SETUP (R169), and before the
PHASE notice (assumption 32). -/
def State.clearMatch (s : State) : State :=
  let t := (s.setMch s.mch.cleared).noticeCleared s.mch
  (t.raise (.phase .setup .clearMatch t.mch.matchTime t.mch.remaining t.held)).reportClear

/-- The owner's part of CLEAR-MATCH (R160). -/
def clearMatchOwner (s : State) : Answered :=
  if s.mch.phase.inMatch then refuse s .wrongPhase
  else if s.mch.filtered then refuse s .stopActive
  else taken s.clearMatch .empty

/-- CLEAR-MATCH (R160). -/
def execClearMatch (tag : Byte) (s : State) : Host.Outcome State Fault Refusal := .next (s.goodFrame 0x0C tag clearMatchOwner)

/-! ## Match time (R158) -/

/-- The phases after a match phase, in order, with their durations. -/
def Durations.after (d : Durations) : Phase → List (Phase × Nat)
  | .opening => [(.transition, d.transition), (.play, d.play), (.finale, d.finale)]
  | .transition => [(.play, d.play), (.finale, d.finale)]
  | .play => [(.finale, d.finale)]
  | .finale | .setup | .staged | .ended => []

/-- A phase runs out: the next phase whose duration is not 0 is entered, or ENDED (R158). -/
def State.runOut (s : State) : State :=
  match (s.mch.durations.after s.mch.phase).find? fun q => q.2 != 0 with
  | some q => s.enterNext q.1 q.2
  | none => s.enterEnded .ranOut

/-- The clock at a tenth of match time (R158). -/
def Mch.tenth (m : Mch) : Mch := { m with matchTime := m.matchTime + 1, remaining := m.remaining - 1, tenthTimer := 0 }

/-- A tenth of match time handed to the Claim Arbiter, the Robot Roster and the station handler (R158). No rule orders the
three: R136 allows an expiry before or after the accrual of its tenth, and here the Claim Arbiter is first for every element,
so an expiring holder does not get that tenth. Nor does a rule order the elements or the robots within one block: the claims
(R32, R33) and the stations (R135, R136) go by ascending index, the benches (R57) by ascending slot. All of this is assumption
30: it fixes the order of several expired and promoted, bench ended and trespass notices and of the LAMPs asked for. -/
def State.handTenth (s : State) : State :=
  let t := s.eachIndex fun i u => u.claimTenth i
  let t := t.eachSlot fun k u => u.benchTenth k
  t.eachIndex fun i u => u.stationTenth i

/-- One tenth of match time passes (R158). A tenth that runs the phase out is handed to the blocks before the entry to the next
phase, an order that R139 and R158 leave open (assumption 30). -/
def State.matchTenth (s : State) : State :=
  let t := (s.setMch s.mch.tenth).handTenth
  if t.mch.remaining = 0 then t.runOut else t

/-- MATCH_TENTH (R158): one tenth of match time passes while match time runs. -/
def execMatchTenth (s : State) : Host.Outcome State Fault Refusal := .next (if s.matchRuns then s.matchTenth else s)

/-- RAN_OUT (R158): the tenth that brings phase remaining to 0 runs the phase out (assumption 3). -/
def execRanOut (s : State) : Host.Outcome State Fault Refusal :=
  .next (if s.matchRuns && decide (s.mch.remaining ≤ 1) then s.runOut else s)

end Sys2Proof.Machine
end

