-- ==== Sys2Proof/Machine/Radio.lean ====
section
/-! DEFINITION. The radio cycle controller: the cycle start with its beacon, and the uplink frames the module delivers (chapter 4). -/
namespace Sys2Proof.Machine

/-! ## The beacon (R79 to R83) -/

/-- The entry of a slot that is not linked (R83). -/
def SlotEntry.empty : SlotEntry := { run := false, request := none, picture := { held := [], waited := none }, signals := 0 }

/-- A slot's beacon entry (R82, R83). -/
def State.slotEntry (s : State) (k : Slot) : SlotEntry :=
  if (s.robot k).state.isLinked then
    { run := s.runs k, request := (s.robot k).openRequest, picture := s.picture k, signals := (s.robot k).signals }
  else SlotEntry.empty

/-- The beacon built from the owners' state, with the join answer moved into it (R79, R80). -/
def State.buildBeacon (s : State) (answer : Option JoinAnswer) : Beacon :=
  { cycle := s.rcc.cycle, phase := s.mch.phase, holdFlag := s.held, stopFlag := s.mch.filtered, remaining := s.mch.remaining,
    joinAnswer := answer, slots := slots.map s.slotEntry }

/-- The windows of a cycle (Table 4-1), in slices of 50 microseconds from the cycle start. -/
def windowsOf (interval : Nat) : List WindowBound :=
  [{ window := .beacon, first := 0, afterLast := 50 }]
    ++ slots.map (fun k => { window := .reply k, first := 50 + 25 * k.val, afterLast := 75 + 25 * k.val })
    ++ [{ window := .join, first := 650, afterLast := 700 },
        { window := .quiet, first := 700, afterLast := interval * Config.slicesPerMs }]

/-! ## The cycle start (R69) -/

/-- The controller's own part of a cycle start (R69). The first cycle after a reset keeps number 0. -/
def Rcc.nextCycle (r : Rcc) : Rcc :=
  { r with interval := r.pendingInterval.getD r.interval, pendingInterval := none,
           cycle := if r.firstCycle then r.cycle else r.cycle + 1, firstCycle := false,
           takenSlots := Vector.replicate 24 false, takenJoin := false, joinAnswer := none, elapsed := 0 }

/-- The beacon is built and handed to the radio module with the windows of the cycle (R69, R79). -/
def State.sendBeacon (s : State) (answer : Option JoinAnswer) : State :=
  s.setRcc { s.rcc with
    beacon := some (s.buildBeacon answer)
    radioTx := some { frame := (s.buildBeacon answer).bytes, windows := windowsOf s.rcc.interval } }

/-- CYCLE_START (R69): the controller's own changes, the roster's count, then the beacon. -/
def execCycleStart (s : State) : Host.Outcome State Fault Refusal :=
  .next (((s.setRcc s.rcc.nextCycle).rosterCycle).sendBeacon s.rcc.joinAnswer)

/-! ## Uplink frames (R72 to R77, R194, Table 11-4) -/

/-- A slot frame's fields. A request is absent in a keep-alive, whose kind and operands are not examined (R72, R76). -/
structure SlotFields where
  robotId : Half
  ready : Bool
  request : Option (BitVec 4 × RobotRequest)
  deriving DecidableEq, Repr

/-- The request of a slot frame, when its kind is one of the five and an ACT's setpoint is OPEN or CLOSE (R72). -/
def robotRequestOf (kind : Nat) (element operand : Byte) : Option RobotRequest :=
  match kind with
  | 1 => some (.claim element)
  | 2 => some (.release element)
  | 3 => some .cancel
  | 4 => (gateTargetOf operand).map (.act element)
  | 5 => some (.ackSignal operand)
  | _ => none

/-- The fields of the two uplink frame types. -/
inductive Uplink where
  | slotFrame (fields : SlotFields)
  | joinFrame (team robotId : Half) (kit : Byte)
  deriving DecidableEq, Repr

/-- The fields of a slot frame's bytes before the CRC. -/
def slotFieldsOf (hi lo flags numberKind element operand : Byte) : Option SlotFields :=
  let number := numberKind.extractLsb' 4 4
  if number = 0#4 then some { robotId := half hi lo, ready := flags.getLsbD 0, request := none }
  else (robotRequestOf (numberKind.extractLsb' 0 4).toNat element operand).map fun q =>
    { robotId := half hi lo, ready := flags.getLsbD 0, request := some (number, q) }

/-- The soundness checks of a delivered frame: CRC, type, length, request kind and ACT setpoint (R72, R194). -/
def uplinkOf (frame : List Byte) : Option Uplink :=
  let parts := splitCrc frame
  if crcRight (radioCrc parts.1) parts.2 then
    match parts.1 with
    | [1#8, hi, lo, flags, numberKind, element, operand] =>
      (slotFieldsOf hi lo flags numberKind element operand).map .slotFrame
    | [2#8, teamHi, teamLo, idHi, idLo, kit] => some (.joinFrame (half teamHi teamLo) (half idHi idLo) kit)
    | _ => none
  else none

/-- A new robot request passed to its owner (R77). -/
def State.passRequest (s : State) (k : Slot) (number : BitVec 4) (q : RobotRequest) : State :=
  s.handOn k number q fun t =>
    match q with
    | .claim element => t.claimOn k element
    | .release element => t.releaseOn k element
    | .cancel => t.cancelOn k
    | .act element setpoint => t.actOn k number element setpoint
    | .ackSignal mask => t.ackOn k mask

/-- The slot's reply window has taken a frame in the present cycle (R73). -/
def State.slotTaken (s : State) (k : Slot) : Bool := s.rcc.takenSlots[k.val]

/-- A slot frame that passed R72 in reply slot k: taken from a linked robot with the bound robot id (R73, R74); the robot is
heard, its ready flag applied, and its request classified. -/
def State.takeSlotFrame (s : State) (k : Slot) (f : SlotFields) : State :=
  if !s.slotTaken k && (s.robot k).state.isLinked && (s.robot k).robotId == some f.robotId then
    let t := s.setRcc { s.rcc with takenSlots := s.rcc.takenSlots.set k.val true }
    let t := (t.hear k).readyFlag k f.ready
    match f.request with
    | some (number, q) => t.passRequest k number q
    | none => t
  else s

/-- A JOIN frame that passed R72 in the join slot: taken and answered, the answer stored for the next beacon (R73, R75). -/
def State.takeJoin (s : State) (team robotId : Half) (kit : Byte) : State :=
  if s.rcc.takenJoin then s
  else
    let t := s.joinOn team robotId kit
    t.1.setRcc { t.1.rcc with takenJoin := true, joinAnswer := some { robotId := robotId, result := t.2 } }

/-- A frame the radio module delivers, with the window its reception began in (R72 to R75). A frame that fails a check
changes nothing. -/
def State.deliver (s : State) (window : Window) (frame : List Byte) : State :=
  match window, uplinkOf frame with
  | .reply k, some (.slotFrame f) => s.takeSlotFrame k f
  | .join, some (.joinFrame team robotId kit) => s.takeJoin team robotId kit
  | _, _ => s

/-- SLOT_FRAME (R74): the module delivers a frame. -/
def execSlotFrame (window : Window) (frame : List Byte) (s : State) : Host.Outcome State Fault Refusal :=
  .next (s.deliver window frame)

/-- JOIN (R48, R75): the module delivers a frame. -/
def execJoin (window : Window) (frame : List Byte) (s : State) : Host.Outcome State Fault Refusal :=
  .next (s.deliver window frame)

end Sys2Proof.Machine
end

