-- ==== Sys2Proof/Machine/Resets.lean ====
section
/-! DEFINITION. The three kinds of reset (R189, R190). What drives FIELD_STOP and the commands that wait lie outside the part, so every reset leaves them. -/
namespace Sys2Proof.Machine

/-- The part at the end of a reset of a cause (R189). -/
def State.resetBy (s : State) (cause : ResetCause) : State := State.afterReset cause s.mch.raw s.pending

/-- POWER_ON_RESET (R189). -/
def execPowerOnReset (s : State) : Host.Outcome State Fault Refusal := .next (s.resetBy .powerOn)

/-- LINE_RESET (R189). -/
def execLineReset (s : State) : Host.Outcome State Fault Refusal := .next (s.resetBy .resetLine)

/-- RESET_PART_EFFECT (R190): a RESET-PART that has been taken takes effect. -/
def execResetPartEffect (s : State) : Host.Outcome State Fault Refusal :=
  .next (if s.hlp.resetRequested then s.resetBy .resetRequest else s)

end Sys2Proof.Machine
end

