-- ==== Sys2Proof/Machine/HostLink.lean ====
section
/-! DEFINITION. The host link port: its own four requests, the assembly and dispatch of request frames, and the sending of the outbound queue (chapter 10). -/
namespace Sys2Proof.Machine

/-! ## IDENTIFY, RESET-PART, SET-NOTICES -/

/-- The owner's part of IDENTIFY (R191). -/
def identifyOwner (s : State) : Answered := taken s (.identify Config.siliconRevision s.hlp.cause)

/-- IDENTIFY (R191). -/
def execIdentify (tag : Byte) (s : State) : Host.Outcome State Fault Refusal := .next (s.goodFrame 0x01 tag identifyOwner)

/-- The owner's part of RESET-PART: no further request is dispatched (R190). -/
def resetPartOwner (s : State) : Answered := taken (s.setHlp { s.hlp with resetRequested := true }) .empty

/-- RESET-PART (R190). -/
def execResetPart (tag : Byte) (s : State) : Host.Outcome State Fault Refusal := .next (s.goodFrame 0x02 tag resetPartOwner)

/-- The owner's part of SET-NOTICES (R187). -/
def setNoticesOwner (mask : Byte) (s : State) : Answered :=
  match maskOf mask with
  | some m => taken (s.setHlp { s.hlp with mask := m }) (.mask m)
  | none => refuse s .badValue

/-- SET-NOTICES (R187). -/
def execSetNotices (tag mask : Byte) (s : State) : Host.Outcome State Fault Refusal :=
  .next (s.goodFrame 0x04 tag (setNoticesOwner mask))

/-! ## READ-MATCH (R192) -/

/-- The number of queued entries of a class (R112). -/
def Ebc.countClass (e : Ebc) (c : TxClass) : Nat := e.queue.countP fun x => x.cls == c

/-- The number of indices whose bookkeeping has a mark (R112). -/
def Ebc.countMarks (e : Ebc) (mark : Sched → Bool) : Nat := e.sched.toList.countP mark

/-- The whole-match view: the fields of R84, R112, R169, R181 and R192. -/
def State.view (s : State) : MatchView :=
  { cycle := s.rcc.cycle, interval := s.rcc.interval, pendingInterval := s.rcc.pendingInterval,
    safety := s.ebc.countClass .safety, control := s.ebc.countClass .control, refresh := s.ebc.countClass .refresh,
    cosmetic := s.ebc.countClass .cosmetic,
    pollDueMarks := s.ebc.countMarks Sched.pollDue, closingMarks := s.ebc.countMarks Sched.closingWanted,
    lampMarks := s.ebc.countMarks Sched.lampSync, carriageMarks := s.ebc.countMarks Sched.carriageSync,
    inFlight := s.ebc.inFlight.map fun f => { op := f.entry.op, element := f.entry.element, orphaned := f.orphaned },
    phase := s.mch.phase, remaining := s.mch.remaining, matchTime := s.mch.matchTime, durations := s.mch.durations,
    hostLimit := s.mch.hostLimit, stack := s.mch.stack, pendingSet := s.mch.pendingSet, filtered := s.mch.filtered,
    haltOut := s.haltOut, silenceRunning := s.silenceRunning, silenceElapsed := s.mch.silenceElapsed,
    totals := s.tu.totals,
    image := s.tu.image.map fun m => { number := m.number, isFinal := m.isFinal, phase := m.phase, matchTime := m.matchTime },
    sending := s.tu.sending, finalWait := s.tu.finalWait.map List.length,
    mask := s.hlp.mask, replies := s.hlp.replies, notices := s.hlp.notices, lost := s.hlp.lost, cause := s.hlp.cause }

/-- The owner's part of READ-MATCH (R192). -/
def readMatchOwner (s : State) : Answered := taken s (.matchView s.view)

/-- READ-MATCH (R192). -/
def execReadMatch (tag : Byte) (s : State) : Host.Outcome State Fault Refusal := .next (s.goodFrame 0x1A tag readMatchOwner)

/-! ## Dispatch of requests (R184) -/

/-- A request handed to its owner (Table 10-1). A command that is no host request is never decoded from a frame. -/
def handRequest (i : Instr) (s : State) : Host.Outcome State Fault Refusal :=
  match i with
  | .identify tag => execIdentify tag s
  | .resetPart tag => execResetPart tag s
  | .setTiming tag fields => execSetTiming tag fields s
  | .setNotices tag mask => execSetNotices tag mask s
  | .defineElement tag fields => execDefineElement tag fields s
  | .removeElement tag index => execRemoveElement tag index s
  | .assignRobot tag slot team alliance => execAssignRobot tag slot team alliance s
  | .unassignRobot tag slot => execUnassignRobot tag slot s
  | .arm tag => execArm tag s
  | .start tag force => execStart tag force s
  | .endMatch tag => execEndMatch tag s
  | .clearMatch tag => execClearMatch tag s
  | .hold tag holdTag => execHold tag holdTag s
  | .resume tag number => execResume tag number s
  | .bench tag slot seconds => execBench tag slot seconds s
  | .reinstate tag slot => execReinstate tag slot s
  | .eject tag slot => execEject tag slot s
  | .signal tag slot setMask clearMask => execSignal tag slot setMask clearMask s
  | .setWindow tag index control => execSetWindow tag index control s
  | .setQuota tag index quota => execSetQuota tag index quota s
  | .setLamp tag index mode => execSetLamp tag index mode s
  | .setGate tag index setpoint => execSetGate tag index setpoint s
  | .driveCarriage tag index command direction => execDriveCarriage tag index command direction s
  | .readElement tag index => execReadElement tag index s
  | .readRobot tag slot => execReadRobot tag slot s
  | .readMatch tag => execReadMatch tag s
  | .adjust tag row column points => execAdjust tag row column points s
  | .sheet tag mode order => execSheet tag mode order s
  | .sheetStop tag => execSheetStop tag s
  | .powerOnReset | .lineReset | .resetPartEffect | .hostFrame _ | .hostFrameGapTimeout => .next s
  | .frameInAssemblyDiscarded _ _ | .outboundFrameSent | .cycleStart | .robotSilent _ | .drop _ => .next s
  | .slotFrame _ _ | .join _ _ | .claim _ _ _ | .release _ _ _ | .cancel _ _ | .act _ _ _ _ | .ackSignal _ _ _ => .next s
  | .transactionSelect | .turnaroundExpiry | .busReply _ | .replyTimeout | .stopAllSent | .refreshDue _ => .next s
  | .refreshPollOverdue _ | .busQuietTimeEnd | .matchTenth | .claimExpiry _ | .guardRunOut _ | .benchEnded _ => .next s
  | .stationAccrualSecond _ | .ranOut | .hostSilenceExpiry | .fieldStopLineChange _ | .fieldStopAsserted => .next s
  | .fieldStopReleased | .gateTravelLimit _ => .next s

/-- A good frame's request after the two checks of the HLP (R184). -/
def dispatchRequest (kind tag : Byte) (body : List Byte) (s : State) : Host.Outcome State Fault Refusal :=
  match decodeRequest kind tag body with
  | .unknownRequest => .next (s.goodFrame kind tag fun t => refuse t .unknownRequest)
  | .badLength => .next (s.goodFrame kind tag fun t => refuse t .badLength)
  | .request i => handRequest i s

/-- A whole frame from its LEN byte on: discarded when its CRC is wrong, dispatched otherwise (R183). -/
def wholeFrame (frame : List Byte) (s : State) : Host.Outcome State Fault Refusal :=
  let parts := splitCrc frame
  if crcRight (hostCrc parts.1) parts.2 then
    match parts.1 with
    | _ :: kind :: tag :: body => dispatchRequest kind tag body s
    | _ => .next s
  else .next s

/-! ## Assembly of request frames (R182) -/

/-- The state with another receive buffer, its gap time restarted. -/
def State.setRx (s : State) (rx : List Byte) : State := s.setHlp { s.hlp with rx := rx, rxGap := 0 }

/-- One received byte (R182): skipped while hunting unless it is 5Eh, taken as LEN, or collected; the byte that makes the
frame whole empties the receive buffer and has the frame checked. After a RESET-PART every byte is discarded unread (R190). -/
def receiveByte (b : Byte) (s : State) : Host.Outcome State Fault Refusal :=
  if s.listening then
    match s.hlp.rx with
    | [] => .next (if b = 0x5E#8 then s.setRx [b] else s)
    | [sync] => .next (if badLen b then s.setRx [] else s.setRx [sync, b])
    | sync :: len :: rest =>
      if len.toNat + 2 ≤ rest.length + 1 then wholeFrame (len :: (rest ++ [b])) (s.setRx [])
      else .next (s.setRx (sync :: len :: (rest ++ [b])))
  else .next s

/-- Received bytes, one after another. -/
def receiveBytes : List Byte → State → Host.Outcome State Fault Refusal
  | [], s => .next s
  | b :: rest, s =>
    match receiveByte b s with
    | .next t => receiveBytes rest t
    | .fault r => .fault r
    | .refused r => .refused r

/-- HOST_FRAME (R182, R183): bytes arrive on the host link (assumption 24). -/
def execHostFrame (bytes : List Byte) (s : State) : Host.Outcome State Fault Refusal := receiveBytes bytes s

/-- HOST_FRAME_GAP_TIMEOUT (R182): the frame in assembly is discarded. -/
def execHostFrameGapTimeout (s : State) : Host.Outcome State Fault Refusal := .next (s.setRx [])

/-- FRAME_IN_ASSEMBLY_DISCARDED (R182): a byte with a missing stop bit, or a bad LEN byte, ends the frame in assembly. A sound
byte that is no bad LEN is not this event (assumption 1). -/
def execFrameInAssemblyDiscarded (byte : Byte) (stopBit : Bool) (s : State) : Host.Outcome State Fault Refusal :=
  .next (if !stopBit || (s.hlp.rx.length == 1 && badLen byte) then s.setRx [] else s)

/-! ## Sending (R185, R190) -/

/-- The frame is the reply with status OK to a RESET-PART. -/
def OutFrame.isResetReply : OutFrame → Bool
  | .reply kind _ status _ => kind == 0x02#8 && status == .ok
  | .notice _ _ => false

/-- The head frame leaves the queue, its last byte sent, and a send in flight fills the freed place (R176, R185). -/
def State.headSent (s : State) (head : OutFrame) (rest : List OutFrame) : State :=
  (s.setHlp { s.hlp with out := rest, txBits := 0, hostTx := head.bytes }).pump

/-- OUTBOUND_FRAME_SENT (R185): the head frame leaves the queue. When it is the reply to a RESET-PART that was taken, the
reset takes effect (R190). -/
def execOutboundFrameSent (s : State) : Host.Outcome State Fault Refusal :=
  .next (match s.hlp.out with
    | head :: rest =>
      if s.hlp.resetRequested && head.isResetReply then s.resetBy .resetRequest else s.headSent head rest
    | [] => s)

end Sys2Proof.Machine
end

