-- ==== Sys2Proof/Machine/Clock.lean ====
section
/-! DEFINITION. What passes while no command waits: one slice of 50 microseconds of wall time, and the events it makes due (assumption 2). -/
namespace Sys2Proof.Machine

/-! ## One slice of wall time -/

/-- A timer that runs one slice further. -/
def tickTimer (t : Option Nat) : Option Nat := t.map (· + 1)

/-- The host link port: the gap after the last byte of a frame in assembly, and the sending of the head frame (R182, R185). -/
def Hlp.tick (h : Hlp) : Hlp :=
  { h with rxGap := if h.rx.isEmpty then 0 else h.rxGap + 1
           txBits := if h.out.isEmpty then 0 else h.txBits + Config.linkBitsPerSlice }

/-- The time since the cycle start (R69). -/
def Rcc.tick (r : Rcc) : Rcc := { r with elapsed := r.elapsed + 1 }

/-- The transaction in flight, the turnaround and the quiet time (R86 to R88). -/
def Ebc.tick (e : Ebc) : Ebc :=
  { e with inFlight := e.inFlight.map fun f => { f with elapsed := f.elapsed + 1 }
           turnaround := tickTimer e.turnaround
           quiet := tickTimer e.quiet }

/-- The tenth timer while match time runs, the FIELD_STOP filter and the host silence timer (R158, R163, R164). The tenth timer
stays below 100 ms; the slice that would bring it there makes MATCH_TENTH due (`State.tenthDue`). -/
def State.tickMch (s : State) : Mch :=
  { s.mch with
    tenthTimer := if s.matchRuns then min (Config.tenthSlices - 1) (s.mch.tenthTimer + 1) else s.mch.tenthTimer
    rawHeld := min Config.filterSlices (s.mch.rawHeld + 1)
    silenceElapsed := if s.silenceRunning then s.mch.silenceElapsed + 1 else s.mch.silenceElapsed }

/-- A travelling gate's timer (R143). -/
def GateMotion.tick : GateMotion → GateMotion
  | .travelling target origin elapsed => .travelling target origin (elapsed + 1)
  | .idle => .idle
  | .sent target origin => .sent target origin

/-- A record's wall-time part: the travel timer of a gate. -/
def ElementRecord.tick (r : ElementRecord) : ElementRecord :=
  match r.part with
  | .gate p => r.setPart (.gate { p with motion := p.motion.tick })
  | .goal _ | .station _ | .carriage _ => r

/-- One slice of wall time in every block that counts it. -/
def State.slice (s : State) : State :=
  { s with hlp := s.hlp.tick, rcc := s.rcc.tick, ebc := s.ebc.tick, mch := s.tickMch, now := s.now + 1,
           elems := s.elems.map fun r => r.map ElementRecord.tick }

/-! ## Events due -/

/-- An event, when it is due. -/
def dueWhen (due : Bool) (i : Instr) : List Instr := if due then [i] else []

/-- A timer has reached a limit. -/
def reached (limit : Nat) (t : Option Nat) : Bool :=
  match t with
  | some elapsed => decide (limit ≤ elapsed)
  | none => false

/-- The transaction in flight has reached its end by time: its frame sent for a STOP_ALL, its window closed otherwise (R87,
R89). -/
def Ebc.dueEnd (e : Ebc) : List Instr :=
  match e.inFlight with
  | some f =>
    if f.entry.isStop then dueWhen (decide (Config.requestSlices ≤ f.elapsed)) .stopAllSent
    else dueWhen (decide (Config.replySlices ≤ f.elapsed)) .replyTimeout
  | none => []

/-- The FIELD_STOP filter takes a new level (R163). -/
def Mch.dueFilter (m : Mch) : List Instr :=
  dueWhen (decide (Config.filterSlices ≤ m.rawHeld) && m.raw && !m.filtered) .fieldStopAsserted
    ++ dueWhen (decide (Config.filterSlices ≤ m.rawHeld) && !m.raw && m.filtered) .fieldStopReleased

/-- A travelling gate has reached its travel limit (R144). -/
def State.travelDue (s : State) (i : Index) : Bool :=
  match s.gateAt i with
  | some p => match p.motion with
    | .travelling _ _ elapsed => decide (p.travelLimit * Config.tenthSlices ≤ elapsed)
    | .idle | .sent _ _ => false
  | none => false

/-- A queued refresh poll of class REFRESH has waited its poll period (R95). -/
def State.overdue (s : State) (e : Entry) : Option Instr :=
  match e.element with
  | some i => if s.overdueFor i e then some (.refreshPollOverdue i) else none
  | none => none

/-- The last byte of the head frame has been sent (R185). -/
def Hlp.sendDue (h : Hlp) : Bool :=
  match h.out with
  | head :: _ => decide (head.bytes.length * Config.linkBitsPerByte ≤ h.txBits)
  | [] => false

/-- The coming slice of wall time brings the tenth timer to 100 ms (R158). -/
def State.tenthDue (s : State) : Bool := s.matchRuns && decide (Config.tenthSlices - 1 ≤ s.mch.tenthTimer)

/-- The events that a slice of wall time has made due, in the order the model takes them (assumption 2). -/
def State.dueEvents (s : State) (tenth : Bool) : List Instr :=
  dueWhen (decide (s.rcc.interval * Config.slicesPerMs ≤ s.rcc.elapsed)) .cycleStart
    ++ dueWhen (reached Config.quietSlices s.ebc.quiet) .busQuietTimeEnd
    ++ dueWhen (reached Config.turnaroundSlices s.ebc.turnaround) .turnaroundExpiry
    ++ s.ebc.dueEnd
    ++ s.mch.dueFilter
    ++ (indices.filter s.travelDue).map .gateTravelLimit
    ++ dueWhen tenth .matchTenth
    ++ dueWhen (s.silenceRunning && decide (s.mch.hostLimit * Config.secondSlices ≤ s.mch.silenceElapsed)) .hostSilenceExpiry
    ++ (indices.filter s.refreshDue).map .refreshDue
    ++ s.ebc.queue.filterMap s.overdue
    ++ dueWhen (!s.hlp.rx.isEmpty && decide (Config.gapSlices < s.hlp.rxGap)) .hostFrameGapTimeout
    ++ dueWhen s.hlp.sendDue .outboundFrameSent

/-- The events that no time separates from their cause: the first cycle starts as a reset ends (R69), and a free bus with a
queued entry selects at once (R88). -/
def State.dueAtOnce (s : State) : List Instr :=
  dueWhen s.rcc.firstCycle .cycleStart ++ dueWhen (s.ebc.free && !s.ebc.queue.isEmpty) .transactionSelect

/-- What the part does while no command waits (assumption 2): an event due at once is put into the queue; otherwise one slice
of wall time passes and the events it makes due are put into the queue. -/
def State.idle (s : State) : State :=
  if s.dueAtOnce.isEmpty then { s.slice with pending := s.slice.dueEvents s.tenthDue } else { s with pending := s.dueAtOnce }

end Sys2Proof.Machine
end

