-- ==== Sys2Proof/Machine/Dispatch.lean ====
section
/-! DEFINITION. The command dispatch: one arm per constructor of Instr. -/
namespace Sys2Proof.Machine

def exec (i : Instr) (s : State) : Host.Outcome State Fault Refusal :=
  match i with
  | .powerOnReset => Sys2Proof.Machine.execPowerOnReset s
  | .lineReset => Sys2Proof.Machine.execLineReset s
  | .resetPartEffect => Sys2Proof.Machine.execResetPartEffect s
  | .hostFrame bytes => Sys2Proof.Machine.execHostFrame bytes s
  | .hostFrameGapTimeout => Sys2Proof.Machine.execHostFrameGapTimeout s
  | .frameInAssemblyDiscarded byte stopBit => Sys2Proof.Machine.execFrameInAssemblyDiscarded byte stopBit s
  | .outboundFrameSent => Sys2Proof.Machine.execOutboundFrameSent s
  | .identify tag => Sys2Proof.Machine.execIdentify tag s
  | .resetPart tag => Sys2Proof.Machine.execResetPart tag s
  | .setNotices tag mask => Sys2Proof.Machine.execSetNotices tag mask s
  | .readMatch tag => Sys2Proof.Machine.execReadMatch tag s
  | .setTiming tag fields => Sys2Proof.Machine.execSetTiming tag fields s
  | .defineElement tag fields => Sys2Proof.Machine.execDefineElement tag fields s
  | .removeElement tag index => Sys2Proof.Machine.execRemoveElement tag index s
  | .assignRobot tag slot team alliance => Sys2Proof.Machine.execAssignRobot tag slot team alliance s
  | .unassignRobot tag slot => Sys2Proof.Machine.execUnassignRobot tag slot s
  | .arm tag => Sys2Proof.Machine.execArm tag s
  | .start tag force => Sys2Proof.Machine.execStart tag force s
  | .endMatch tag => Sys2Proof.Machine.execEndMatch tag s
  | .clearMatch tag => Sys2Proof.Machine.execClearMatch tag s
  | .hold tag holdTag => Sys2Proof.Machine.execHold tag holdTag s
  | .resume tag number => Sys2Proof.Machine.execResume tag number s
  | .bench tag slot seconds => Sys2Proof.Machine.execBench tag slot seconds s
  | .reinstate tag slot => Sys2Proof.Machine.execReinstate tag slot s
  | .eject tag slot => Sys2Proof.Machine.execEject tag slot s
  | .signal tag slot setMask clearMask => Sys2Proof.Machine.execSignal tag slot setMask clearMask s
  | .setWindow tag index control => Sys2Proof.Machine.execSetWindow tag index control s
  | .setQuota tag index quota => Sys2Proof.Machine.execSetQuota tag index quota s
  | .setLamp tag index mode => Sys2Proof.Machine.execSetLamp tag index mode s
  | .setGate tag index setpoint => Sys2Proof.Machine.execSetGate tag index setpoint s
  | .driveCarriage tag index command direction => Sys2Proof.Machine.execDriveCarriage tag index command direction s
  | .readElement tag index => Sys2Proof.Machine.execReadElement tag index s
  | .readRobot tag slot => Sys2Proof.Machine.execReadRobot tag slot s
  | .adjust tag row column points => Sys2Proof.Machine.execAdjust tag row column points s
  | .sheet tag mode order => Sys2Proof.Machine.execSheet tag mode order s
  | .sheetStop tag => Sys2Proof.Machine.execSheetStop tag s
  | .cycleStart => Sys2Proof.Machine.execCycleStart s
  | .robotSilent slot => Sys2Proof.Machine.execRobotSilent slot s
  | .drop slot => Sys2Proof.Machine.execDrop slot s
  | .slotFrame window frame => Sys2Proof.Machine.execSlotFrame window frame s
  | .join window frame => Sys2Proof.Machine.execJoin window frame s
  | .claim slot number element => Sys2Proof.Machine.execClaim slot number element s
  | .release slot number element => Sys2Proof.Machine.execRelease slot number element s
  | .cancel slot number => Sys2Proof.Machine.execCancel slot number s
  | .act slot number element setpoint => Sys2Proof.Machine.execAct slot number element setpoint s
  | .ackSignal slot number mask => Sys2Proof.Machine.execAckSignal slot number mask s
  | .transactionSelect => Sys2Proof.Machine.execTransactionSelect s
  | .turnaroundExpiry => Sys2Proof.Machine.execTurnaroundExpiry s
  | .busReply frame => Sys2Proof.Machine.execBusReply frame s
  | .replyTimeout => Sys2Proof.Machine.execReplyTimeout s
  | .stopAllSent => Sys2Proof.Machine.execStopAllSent s
  | .refreshDue index => Sys2Proof.Machine.execRefreshDue index s
  | .refreshPollOverdue index => Sys2Proof.Machine.execRefreshPollOverdue index s
  | .busQuietTimeEnd => Sys2Proof.Machine.execBusQuietTimeEnd s
  | .matchTenth => Sys2Proof.Machine.execMatchTenth s
  | .claimExpiry index => Sys2Proof.Machine.execClaimExpiry index s
  | .guardRunOut index => Sys2Proof.Machine.execGuardRunOut index s
  | .benchEnded slot => Sys2Proof.Machine.execBenchEnded slot s
  | .stationAccrualSecond index => Sys2Proof.Machine.execStationAccrualSecond index s
  | .ranOut => Sys2Proof.Machine.execRanOut s
  | .hostSilenceExpiry => Sys2Proof.Machine.execHostSilenceExpiry s
  | .fieldStopLineChange asserted => Sys2Proof.Machine.execFieldStopLineChange asserted s
  | .fieldStopAsserted => Sys2Proof.Machine.execFieldStopAsserted s
  | .fieldStopReleased => Sys2Proof.Machine.execFieldStopReleased s
  | .gateTravelLimit index => Sys2Proof.Machine.execGateTravelLimit index s

end Sys2Proof.Machine
end

