-- ==== Sys2Proof/Safety.lean ====
section
/-! DEFINITION. What statements about the part speak of: which blocks a command may change, how a request is answered, and the conditions that every step keeps. -/
namespace Sys2Proof.Machine

/-! ## Frames -/

/-- The blocks of the state (Table 0-2), the wall clock and the queue of waiting commands. -/
inductive Block where
  | hlp
  | rcc
  | roster
  | elems
  | ebc
  | mch
  | tu
  | now
  | pending
  deriving DecidableEq, Repr

/-- A block is the same in two states. -/
def State.sameBlock (s t : State) : Block → Prop
  | .hlp => t.hlp = s.hlp
  | .rcc => t.rcc = s.rcc
  | .roster => t.roster = s.roster
  | .elems => t.elems = s.elems
  | .ebc => t.ebc = s.ebc
  | .mch => t.mch = s.mch
  | .tu => t.tu = s.tu
  | .now => t.now = s.now
  | .pending => t.pending = s.pending

/-- Every block but those listed is the same. -/
def State.onlyChanges (s t : State) (changed : List Block) : Prop := ∀ b, b ∉ changed → s.sameBlock t b

/-- Every robot record but one, and the two limits, are the same. -/
def State.robotsBut (s t : State) (k : Slot) : Prop :=
  (∀ j, j ≠ k → t.robot j = s.robot j) ∧ t.roster.silenceLimit = s.roster.silenceLimit
    ∧ t.roster.dropLimit = s.roster.dropLimit

/-- Every element record but one is the same. -/
def State.elemsBut (s t : State) (i : Index) : Prop := ∀ j, j ≠ i → t.elem j = s.elem j

/-! ## Requests and notices -/

/-- The part dispatches a request that arrives now: no RESET-PART has been taken and a reply place is free (R183, R190). -/
def State.accepts (s : State) : Bool := s.listening && s.replyRoom

/-- Notices raised one after another (R185, R186). -/
def Hlp.raiseAll (h : Hlp) (notices : List Notice) : Hlp := notices.foldl Hlp.raise h

/-- Notices raised one after another, then a reply in a reply place (R185). -/
def Hlp.answer (h : Hlp) (notices : List Notice) (kind tag : Byte) (status : Status) (body : ReplyBody) : Hlp :=
  { h.raiseAll notices with out := (h.raiseAll notices).out ++ [.reply kind tag status body] }

/-- `t` is `s` after a good frame whose request was answered (R183 to R185): the host silence timer was restarted first, the
notices of the request precede its reply, and of the other blocks only those listed may differ. -/
def State.answers (s t : State) (changed : List Block) (kind tag : Byte) (notices : List Notice) (status : Status)
    (body : ReplyBody) : Prop :=
  s.restartSilence.onlyChanges t (.hlp :: changed) ∧ t.hlp = s.hlp.answer notices kind tag status body

/-- `t` is `s` after a good frame whose request was refused: an empty reply body, no notice, and nothing but the restart of
the host silence timer changed (R184). -/
def State.refuses (s t : State) (kind tag : Byte) (status : Status) : Prop := s.answers t [] kind tag [] status .empty

/-- The record of a request that was answered as it was taken (R61, Table 3-8). -/
def answeredRequest (number : BitVec 4) (kind : ReqKind) (element : Option Byte) (code : Answer) (detail : Option Nat) :
    OpenRequest :=
  { number := number, kind := kind, element := element, answered := true, code := code, detail := detail }

/-- A robot request is new and its robot linked, so that it is executed (R50, R77). -/
def State.executes (s : State) (k : Slot) (number : BitVec 4) : Bool :=
  (s.robot k).state.isLinked && number != 0#4 && (s.robot k).isNew number

/-- `t` is `s` after a robot request that was only answered: the robot's open request is the answered record, and nothing else
has changed (R22, R61). -/
def State.answersRobot (s t : State) (k : Slot) (number : BitVec 4) (kind : ReqKind) (element : Option Byte) (code : Answer)
    (detail : Option Nat) : Prop :=
  s.onlyChanges t [.roster] ∧ s.robotsBut t k
    ∧ t.robot k = { s.robot k with openRequest := some (answeredRequest number kind element code detail) }

/-- The notices of a holder's departure: the departure's own, then the promotion's when a robot waits (R31, R41). -/
def departureNotices (i : Index) (c : ClaimPart) (departure : ClaimNotice) : List Notice :=
  match c.waiting with
  | head :: rest => [.claim departure, .claim (.promoted i head rest.length)]
  | [] => [.claim departure]

/-- The notices of a vacating: a departure from each element the robot holds, in ascending index order (R37, R41). -/
def State.vacateNotices (s : State) (k : Slot) (cause : VacateCause) : List Notice :=
  (s.heldBy k).flatMap fun i => match s.elem i with
    | some r => departureNotices i r.claim (.vacated i k cause)
    | none => []

/-! ## What claims, windows and holds make of a record -/

/-- A claim part after a robot was vacated from it: as a holder it leaves the element to the head waiter, or free; as a waiter
it leaves the list (R31, R37). -/
def ClaimPart.without (c : ClaimPart) (k : Slot) : ClaimPart :=
  if c.holder = some k then { c with holder := c.waiting.head?, heldFor := 0, waiting := c.waiting.tail }
  else { c with waiting := c.waiting.erase k }

/-- A kind part whose element has changed its holder: a station's accrual is 0 and its lit state is worked out (R136, R137). -/
def KindPart.holderSeen (part : KindPart) (held : Bool) : KindPart :=
  match part with
  | .station p => .station { p with accrual := 0
                                    lit := match p.lampMode with
                                      | .auto => held
                                      | .off => false
                                      | .on => true }
  | .goal p => .goal p
  | .gate p => .gate p
  | .carriage p => .carriage p

/-- A record after a robot was vacated from it (R31, R37, R137). -/
def ElementRecord.withoutRobot (r : ElementRecord) (k : Slot) : ElementRecord :=
  if r.claim.holder = some k then
    { r with claim := r.claim.without k, part := r.part.holderSeen (r.claim.without k).holder.isSome }
  else { r with claim := r.claim.without k }

/-- A record after several robots were vacated from it, one after another. -/
def ElementRecord.withoutRobots (r : ElementRecord) (ks : List Slot) : ElementRecord := ks.foldl ElementRecord.withoutRobot r

/-- The state with every record as several vacatings leave it. -/
def State.withoutRobots (s : State) (ks : List Slot) : State := { s with elems := s.elems.map fun r => r.map (·.withoutRobots ks) }

/-- A lamp drive of a lit state is queued, or the lamp-sync mark stands for it (R96). -/
def State.lampAsked (t : State) (i : Index) (lit : Bool) : Prop :=
  t.queued (fun e => e.isFor i && e.op == .lamp lit) = true ∨ (t.sched i).lampSync = true

/-- The state after lamp drives were asked for, one after another (R96). -/
def State.asksLamps (s : State) (asks : List (Index × Bool)) : State := asks.foldl (fun u q => u.askLamp q.1 q.2) s

/-- An ask of a handler for a lamp drive, a carriage drive or a closing poll. -/
inductive BusAsk where
  | lamp (i : Index) (on : Bool)
  | speed (i : Index) (speed : Int)
  | closing (i : Index)
  deriving DecidableEq, Repr

/-- The state after asks of handlers, one after another (R96 to R98). -/
def State.asksAll (s : State) (asks : List BusAsk) : State :=
  asks.foldl (fun u q => match q with
    | .lamp i on => u.askLamp i on
    | .speed i speed => u.askCarriage i speed
    | .closing i => u.askClosing i) s

/-- The lamps whose lit state differs between two states, in ascending index order, each with the second one's lit state. -/
def State.lampChanges (s t : State) : List (Index × Bool) :=
  indices.filterMap fun i => if t.litAt i = s.litAt i then none else some (i, t.litAt i)

/-- A speed is queued for a carriage, or the carriage-sync mark stands for it (R97). -/
def State.speedAsked (t : State) (i : Index) (speed : Int) : Prop :=
  t.queued (fun e => e.isFor i && e.op == .motion (.carriage speed)) = true ∨ (t.sched i).carriageSync = true

/-- A closing poll is queued, or the closing-poll-wanted mark stands for it (R98). -/
def State.closingAsked (t : State) (i : Index) : Prop :=
  t.queued (fun e => e.isFor i && e.op == .poll .closing) = true ∨ (t.sched i).closingWanted = true

/-- A refresh poll is on its way: a poll is queued or in flight, or the poll-due mark stands for it (R94). -/
def State.refreshAsked (t : State) (i : Index) : Prop :=
  t.queued (fun e => e.isPoll && e.isFor i) = true ∨ t.pollInFlight i = true ∨ (t.sched i).pollDue = true

/-- A goal part after its window was evaluated in a phase (R114, R116, R117, R125). -/
def GoalPart.evaluated (p : GoalPart) (phase : Phase) : GoalPart :=
  let wanted := windowDesired p.control p.phaseSet phase
  match p.window with
  | .closed =>
    if wanted then
      { p with window := .opened, quota := p.pendingQuota.getD p.quota, pendingQuota := none,
               count := (p.pendingQuota.getD p.quota : Nat), filled := false, overrangeNoted := false, windowPieces := 0,
               windowNumber := p.windowNumber + 1, lit := p.lampMode == .on }
    else p
  | .opened =>
    if wanted then p
    else { p with window := .closing, reopenWanted := false, closingInMatch := phase.inMatch || phase == .ended }
  | .closing => { p with reopenWanted := wanted }

/-- A station part after its window was evaluated in a phase (R134). -/
def StationPart.evaluated (p : StationPart) (phase : Phase) : StationPart :=
  if windowDesired p.control p.phaseSet phase = p.windowOpen then p
  else { p with windowOpen := windowDesired p.control p.phaseSet phase, accrual := 0 }

/-- A kind part after its window was evaluated in a phase; a gate and a carriage have none. -/
def KindPart.evaluated (part : KindPart) (phase : Phase) : KindPart :=
  match part with
  | .goal p => .goal (p.evaluated phase)
  | .station p => .station (p.evaluated phase)
  | .gate p => .gate p
  | .carriage p => .carriage p

/-- The notices of an evaluation of every window: an opened one for each goal whose window opens, in index order (R116). -/
def State.openNotices (s : State) (phase : Phase) : List Notice :=
  indices.filterMap fun i => match s.goalAt i with
    | some p =>
      if p.window = .closed ∧ windowDesired p.control p.phaseSet phase = true then
        some (.goal i (p.windowNumber + 1) (.opened (p.pendingQuota.getD p.quota)))
      else none
    | none => none

/-- What an evaluation of every window asks for, by index: a goal that opens has its lamp driven when its lit state changes, and a
goal that begins to close its closing poll (R116, R117, R125). -/
def State.windowAsks (s : State) (phase : Phase) : List BusAsk :=
  indices.flatMap fun i => match s.goalAt i with
    | some p =>
      let wanted := windowDesired p.control p.phaseSet phase
      if p.window = .closed ∧ wanted = true then
        if p.lit = (p.lampMode == .on) then [] else [.lamp i (p.lampMode == .on)]
      else if p.window = .opened ∧ wanted = false then [.closing i]
      else []
    | none => []

/-- Every goal that begins to close has its closing poll asked for (R117). -/
def State.closesAsked (s t : State) : Prop :=
  ∀ i p, s.goalAt i = some p → p.window = .opened →
    windowDesired p.control p.phaseSet t.mch.phase = false → t.closingAsked i

/-- A CLAIM on an element passes every check of Tables 2-3 and 2-4: only the holder and the counts are left to decide (R23,
R24). -/
def State.claimChecked (s : State) (k : Slot) (i : Index) (r : ElementRecord) : Prop :=
  s.mch.phase.inMatch = true ∧ (s.robot k).state = .active ∧ s.elem i = some r ∧ r.part.kind ≠ .carriage
    ∧ (r.part.kind = .goal → r.alliance = none) ∧ r.claim.holder ≠ some k ∧ k ∉ r.claim.waiting
    ∧ (r.state = .probing ∨ r.state = .online) ∧ (r.alliance = none ∨ r.alliance = (s.robot k).alliance)
    ∧ ∀ g, r.claim.guardRecord = some g → g.slot ≠ k

/-! ## Discarded motions (R107, Table 5-6) -/

/-- The notices of the MOTION entries that are discarded: one for each the host asked for, oldest first (the order is the
model's choice, assumption 30). -/
def State.discardNotices (s : State) (p : Entry → Bool) : List Notice :=
  (s.ebc.queue.filter p).filterMap fun e => match e.op, e.element, e.origin with
    | .motion m, some i, .host _ => some (.element i (.driveDiscarded m))
    | _, _, _ => none

/-- The entry is the MOTION that a robot's open ACT waits for (R61). -/
def Entry.actOf (e : Entry) (k : Slot) (o : OpenRequest) : Bool :=
  e.isMotion && match e.element, e.origin with
    | some i, .robot k' number => k' == k && o.awaits i number
    | _, _ => false

/-- A queued MOTION that is discarded is the one a robot's open ACT waits for (R107). -/
def State.discardsAct (s : State) (p : Entry → Bool) (k : Slot) (o : OpenRequest) : Bool :=
  s.queued fun e => p e && e.actOf k o

/-- The MOTION in flight for an element, not orphaned yet, is the one a robot's open ACT waits for (R7). -/
def State.orphansAct (s : State) (i : Index) (k : Slot) (o : OpenRequest) : Bool :=
  s.ebc.inFlight.any fun f => f.entry.isFor i && !f.orphaned && f.entry.actOf k o

/-- Every robot whose open request meets a condition is answered FAILED with the detail; no other robot record changes. -/
def State.failsActs (s t : State) (waits : Slot → OpenRequest → Bool) (detail : Nat) : Prop :=
  (∀ k, t.robot k = match (s.robot k).openRequest with
    | some o =>
      if waits k o then
        { s.robot k with openRequest := some { o with answered := true, code := .failed, detail := some detail } }
      else s.robot k
    | none => s.robot k)
  ∧ t.roster = { s.roster with robots := t.roster.robots }

/-! ## Freed places (R102) -/

/-- What the pending marks stand for, in the order in which free places go to them: closing polls and carriage drives by index,
the closing poll first, then refresh polls and then lamp drives, each by index. A closing poll takes the poll-due mark of its
element with it (R102). -/
def State.marksInOrder (s : State) : List (Index × BusOp × TxClass) :=
  (indices.flatMap fun i =>
    (if (s.sched i).closingWanted then [(i, .poll .closing, .control)] else [])
      ++ if (s.sched i).carriageSync then [(i, .motion (.carriage (s.speedAt i)), .control)] else [])
  ++ (indices.filter fun i => (s.sched i).pollDue && !(s.sched i).closingWanted).map (fun i => (i, .poll .refresh, .refresh))
  ++ (indices.filter fun i => (s.sched i).lampSync).map fun i => (i, .lamp (s.litAt i), .cosmetic)

/-- A mark's bookkeeping after the marks that were served have become entries (R102). -/
def Sched.served (c : Sched) (i : Index) (gone : List (Index × BusOp × TxClass)) : Sched :=
  { c with closingWanted := c.closingWanted && !gone.any fun w => w.1 == i && w.2.1 == .poll .closing
           pollDue := c.pollDue && !gone.any fun w => w.1 == i && (w.2.1 == .poll .closing || w.2.1 == .poll .refresh)
           lampSync := c.lampSync && !gone.any fun w => w.1 == i && w.2.2 == .cosmetic
           carriageSync := c.carriageSync && !gone.any fun w => w.1 == i && w.2.2 == .control && w.2.1 != .poll .closing }

/-- The bus after `freed` places were handed to the pending marks, while fewer than 31 entries wait (R90, R102). -/
def State.handsOn (s : State) (freed : Nat) : Ebc :=
  let gone := s.marksInOrder.take (min freed (31 - s.ebc.ordinary))
  { s.ebc with
    queue := s.ebc.queue ++ gone.zipIdx.map fun w =>
      { age := s.ebc.nextAge + w.2, enteredAt := s.now, element := some w.1.1, op := w.1.2.1, cls := w.1.2.2, origin := .internal }
    nextAge := s.ebc.nextAge + gone.length
    sched := Vector.ofFn fun i => (s.sched i).served i gone }

/-! ## The push of a hold (R162) -/

/-- A record's kind part after a push: a RUNNING carriage is HALTED, a carriage whose MOTION was discarded wants its speed
again unless it is HALTED, and a gate whose MOTION was discarded is IDLE (R107, R150, R151). -/
def State.haltedPart (s : State) (i : Index) : KindPart → KindPart
  | .carriage p =>
    if p.runState = .running then .carriage { p with runState := .halted, commanded := 0 }
    else if p.runState ≠ .halted ∧ s.queued (fun e => e.isCarriageDrive i) = true then .carriage { p with speedResync := true }
    else .carriage p
  | .gate p =>
    if s.queued (fun e => e.isMotion && e.isFor i && !(e.origin == .internal)) then .gate { p with motion := .idle }
    else .gate p
  | .goal p => .goal p
  | .station p => .station p

/-- The drives that HALTED carriages ask for when the stack empties, by ascending index, an order that is the model's choice
(assumption 30): each the speed of the zone of its last reading (R151, R166). -/
def State.restartAsks (s : State) : List BusAsk :=
  indices.filterMap fun i => match s.elem i, s.carriageAt i with
    | some r, some p =>
      if p.runState = .halted then
        some (.speed i (match r.reading, p.direction with
          | some (.carriage zone _ _ _ _), .forward => (p.zoneSpeeds[zone.val] : Int)
          | some (.carriage zone _ _ _ _), .reverse => -(p.zoneSpeeds[zone.val] : Int)
          | _, _ => p.commanded))
      else none
    | _, _ => none

/-- The notices of a push, in order (R162, R107). -/
def State.pushNotices (s : State) (cause : HoldCause) (detail : Option Byte) : List Notice :=
  .hold s.mch.matchTime s.mch.phase (.pushed s.mch.nextHold cause detail (s.mch.stack.length + 1))
    :: s.discardNotices Entry.isMotion

/-- The POLL in flight that a new STOP_ALL abandons and that still counts for its element, with its role (R104, R106). -/
def State.abandons (s : State) : Option (Index × PollRole) :=
  if s.stopAllStands then none else match s.ebc.inFlight with
  | some f => match f.entry.op, f.entry.element with
    | .poll role, some i => if f.orphaned then none else some (i, role)
    | _, _ => none
  | none => none

/-- The state after the first step of the ask for a STOP_ALL (R104, R106). Nothing when one stands already. Otherwise a
STOP_ALL has entered and a POLL in flight is abandoned: the next refresh of its element is due a poll period later, and a
closing role goes back into the queue. -/
def State.stopEntered (s : State) : State :=
  let polled : Bool := s.ebc.inFlight.any fun f => f.entry.isPoll
  let stopped : Ebc := { s.ebc with
    queue := s.ebc.queue ++ [{ age := s.ebc.nextAge, enteredAt := s.now, element := none, op := .stopAll, cls := .safety,
                               origin := .internal }]
    nextAge := s.ebc.nextAge + 1
    inFlight := if polled then none else s.ebc.inFlight
    turnaround := if polled then some 0 else s.ebc.turnaround }
  if s.stopAllStands then s
  else match s.abandons with
    | some (i, role) =>
      let due : State := { s with ebc := { stopped with sched := match s.elem i with
        | some r => s.ebc.sched.set i.val { s.sched i with due := some (s.now + 20 * r.pollPeriod), owed := false }
        | none => s.ebc.sched } }
      if role = .closing then due.askClosing i else due
    | none => { s with ebc := stopped }

/-- The bus after a push (R104 to R107): a STOP_ALL stands, every MOTION that waited is gone, and its place is handed to the
pending marks, with the lit states and speeds of the records after the push. -/
def State.busStopped (s t : State) : Ebc :=
  let e := s.stopEntered.ebc
  let left : State := { s with elems := t.elems, ebc := { e with queue := e.queue.filter fun x => !x.isMotion } }
  left.handsOn (e.queue.countP Entry.isMotion)

/-- No pending mark stands while a place is free (R101). -/
def State.marksOnlyFull (s : State) : Prop := 31 ≤ s.ebc.ordinary ∨ ∀ i, (s.sched i).marked = false

/-- What a push does on the bus (R104 to R107): its state after the push; in it a STOP_ALL stands, no MOTION that waited is left, a
closing poll that was abandoned is wanted again, and no pending mark is left beside a free place when none stood so before. -/
def State.stopsBus (s t : State) : Prop :=
  t.ebc = s.busStopped t ∧ t.stopAllStands = true
    ∧ (∀ e ∈ t.ebc.queue, e.isMotion = true → s.ebc.nextAge ≤ e.age ∧ e.origin = .internal)
    ∧ (∀ i, s.abandons = some (i, .closing) → t.closingAsked i) ∧ (s.marksOnlyFull → t.marksOnlyFull)

/-- What a push of a hold does to every block but the outbound queue (R162). -/
def State.pushes (s t : State) (cause : HoldCause) (detail : Option Byte) : Prop :=
  s.onlyChanges t [.hlp, .roster, .elems, .ebc, .mch]
    ∧ t.mch = { s.mch with lastNumber := s.mch.nextHold
                           stack := { number := s.mch.nextHold, cause := cause, detail := detail,
                                      matchTime := s.mch.matchTime, phase := s.mch.phase } :: s.mch.stack }
    ∧ (∀ i, t.elem i = (s.elem i).map fun r => { r with part := s.haltedPart i r.part })
    ∧ s.failsActs t (s.discardsAct Entry.isMotion) 5 ∧ s.stopsBus t

/-- What a request to push a hold of a cause that can pend does, by Table 8-6: `t` is the state after it. -/
def State.pushRequested (s t : State) (q : PushRequest) : Prop :=
  if q = .hostLost ∧ (s.mch.stack.any (fun h => h.cause == .hostLost) = true ∨ s.mch.pendingSet.hostLost = true) then
    s.onlyChanges t [.hlp] ∧ t.hlp = s.hlp.raise (.hold s.mch.matchTime s.mch.phase (.absorbed q.cause q.detail))
  else if 6 ≤ s.mch.stack.length then
    if s.mch.pendingSet.has q.cause = true then
      s.onlyChanges t [.hlp] ∧ t.hlp = s.hlp.raise (.hold s.mch.matchTime s.mch.phase (.absorbed q.cause q.detail))
    else
      s.onlyChanges t [.hlp, .mch] ∧ t.hlp = s.hlp.raise (.hold s.mch.matchTime s.mch.phase (.pended q.cause q.detail))
        ∧ t.mch = { s.mch with pendingSet := match q with
            | .fieldStop => { s.mch.pendingSet with fieldStop := true }
            | .hostLost => { s.mch.pendingSet with hostLost := true }
            | .elementFault i => { s.mch.pendingSet with elementFault := some i } }
  else s.pushes t q.cause q.detail ∧ t.hlp = s.hlp.raiseAll (s.pushNotices q.cause q.detail)

/-! ## Redefinition and removal (R5, R6, R111) -/

/-- The bus after the transactions of an old definition were put away: the element's marks are cleared, its entries discarded and
their places handed to marks of other elements, and what is in flight for it is orphaned (R5, R6, R102, R111). -/
def State.busPutAway (s : State) (i : Index) : Ebc :=
  let left : State := { s with ebc := { s.ebc with
    queue := s.ebc.queue.filter fun e => !e.isFor i
    sched := s.ebc.sched.set i.val { s.sched i with pollDue := false, closingWanted := false, lampSync := false
                                                    carriageSync := false } } }
  { left.handsOn (s.ebc.queue.countP fun e => e.isFor i) with
    inFlight := s.ebc.inFlight.map fun f => if f.entry.isFor i then { f with orphaned := true } else f }

/-- What a putting away does to robots: those whose ACT waits for a MOTION of the element, queued or in flight and not orphaned
yet, are answered FAILED with detail 6 (R5, R7, R107). -/
def State.failsPutAway (s t : State) (i : Index) : Prop :=
  s.failsActs t (fun k o => s.discardsAct (·.isFor i) k o || s.orphansAct i k o) 6

/-! ## Ends of transactions (R8 to R13, R87) -/

/-- A frame on the element bus: the bytes before the CRC, and their CRC (R195). -/
def busFrame (head : List Byte) : List Byte := head ++ halfBytes (busCrc head)

/-- A frame on the radio: the bytes before the CRC, and their CRC (R194). -/
def radioFrame (head : List Byte) : List Byte := head ++ halfBytes (radioCrc head)

/-- An addressed transaction of a defined element is in flight, not orphaned. -/
def State.awaitsEnd (s : State) (f : InFlight) (i : Index) (r : ElementRecord) : Prop :=
  s.ebc.inFlight = some f ∧ f.entry.element = some i ∧ f.orphaned = false ∧ s.elem i = some r

/-- The same, and its reply window is open: the 0.2 ms of its request frame are over (R87). -/
def State.awaitsReply (s : State) (f : InFlight) (i : Index) (r : ElementRecord) : Prop := s.awaitsEnd f i r ∧ 4 ≤ f.elapsed

/-- A hold is requested last, for an entry to FAULT that asks for one: `u` is the state before that request (R8, R15). -/
def State.thenHold (u t : State) (i : Index) (asks : Prop) : Prop :=
  (asks → u.pushRequested t (.elementFault i)) ∧ (¬ asks → t = u)

/-- The EBC after an addressed transaction has ended, its handler having asked for drives: the turnaround runs (R87). -/
def State.endedOnBus (s : State) (asks : List BusAsk) : Ebc :=
  ({ s with ebc := { s.ebc with inFlight := none, turnaround := some 0 } }.asksAll asks).ebc

/-- The EBC after a POLL of an element has ended in the same way: the next refresh is due one poll period later (R94). -/
def State.pollEnded (s : State) (i : Index) (pollPeriod : Nat) (asks : List BusAsk) : Ebc :=
  let e := s.endedOnBus asks
  { e with sched := e.sched.set i.val { e.sched[i.val] with due := some (s.now + 20 * pollPeriod), owed := false } }

/-- The notices of a completed poll that the field table raises itself (R9, R10). -/
def pollNotices (i : Index) (r : ElementRecord) (epoch : Byte) (sensorFault : Bool) : List Notice :=
  (match r.epoch with
    | some stored => if stored = epoch then [] else [.element i .restarted]
    | none => [])
  ++ (match r.state, sensorFault with
    | .probing, false => [.element i .online]
    | .online, false => []
    | .fault _, false => [.element i .restored]
    | .probing, true | .online, true | .fault .missing, true => [.element i (.fault .sensor)]
    | .fault .sensor, true => [])

/-- The record after a completed poll of a given reading, before its handler sees it (R9, R10). -/
def ElementRecord.afterPoll (r : ElementRecord) (epoch : Byte) (reading : Reading) (sensorFault : Bool) : ElementRecord :=
  { r with failures := 0, epoch := some epoch, reading := some reading
           state := if sensorFault then .fault .sensor else .online
           sticky := { r.sticky with restarted := r.sticky.restarted || (r.epoch.isSome && r.epoch != some epoch) } }

/-- The failure count after a failed transaction (R13). -/
def ElementRecord.nextFailures (r : ElementRecord) : Nat := min 3 (r.failures + 1)

/-- The record after a failed transaction, before its handler sees it (R13). -/
def ElementRecord.afterFailure (r : ElementRecord) : ElementRecord :=
  { r with failures := min 3 (r.failures + 1), state := if 2 ≤ r.failures then .fault .missing else r.state }

/-- The notices of a failed transaction that the field table raises itself (R13). -/
def failureNotices (i : Index) (r : ElementRecord) : List Notice :=
  if 2 ≤ r.failures ∧ r.state ≠ .fault .missing then [.element i (.fault .missing)] else []

/-- The transaction in flight has ended and the turnaround runs (R87, R88). -/
def State.endsOnBus (t : State) : Prop := t.ebc.inFlight = none ∧ t.ebc.turnaround = some 0

/-- A robot's record after an answer that comes later than the taking of its request (R61). -/
def State.robotAnswered (s : State) (k : Slot) (i : Index) (number : BitVec 4) (code : Answer) (detail : Option Nat) :
    RobotRecord :=
  match (s.robot k).openRequest with
  | some o =>
    if o.awaits i number then
      { s.robot k with openRequest := some { o with answered := true, code := code, detail := detail } }
    else s.robot k
  | none => s.robot k

/-- The outcome of a gate's motion goes to its origin: a robot's open request is answered, the host has a notice (R143, R144).
`before` are the notices raised first. -/
def State.outcomeTold (s t : State) (i : Index) (origin : Origin) (before : List Notice) (code : Answer) (detail : Option Nat)
    (notice : ElementNotice) : Prop :=
  match origin with
  | .robot k number =>
    s.robotsBut t k ∧ t.robot k = s.robotAnswered k i number code detail ∧ t.hlp = s.hlp.raiseAll before
  | .host _ => t.roster = s.roster ∧ t.hlp = s.hlp.raiseAll (before ++ [.element i notice])
  | .internal => t.roster = s.roster ∧ t.hlp = s.hlp.raiseAll before

/-- The kind part of a goal at the end of its closing (R118): the closing record made, and the window CLOSED, or reopened. -/
def GoalPart.closedBy (p : GoalPart) (incomplete : Bool) : GoalPart :=
  let record : ClosingRecord :=
    { window := p.windowNumber, finalCount := p.count, windowPieces := p.windowPieces, filled := p.filled,
      overrange := p.overrangeNoted, incomplete := incomplete }
  let closed := { p with record := some record, window := .closed, closingInMatch := false, reopenWanted := false }
  if p.reopenWanted then
    { closed with window := .opened, quota := p.pendingQuota.getD p.quota, pendingQuota := none,
                  count := (p.pendingQuota.getD p.quota : Nat), filled := false, overrangeNoted := false, windowPieces := 0,
                  windowNumber := p.windowNumber + 1, lit := p.lampMode == .on }
  else closed

/-! ## Pieces of a goal (R120 to R123) -/

/-- The next counted piece brings the count to 0 and fills the window (R122). -/
def GoalPart.fillsNext (p : GoalPart) : Bool := p.count == 1 && p.quota != 0 && !p.filled

/-- The kind part after one counted piece. A `lost` piece is creditable and has no row. -/
def GoalPart.afterPiece (lost : Bool) (p : GoalPart) : GoalPart :=
  let q := { p with counted := p.counted + 1, windowPieces := min 65535 (p.windowPieces + 1)
                    unattributed := if lost then p.unattributed + 1 else p.unattributed }
  if p.count ≤ -255 then { q with overrangeNoted := true }
  else if p.fillsNext then { q with count := 0, filled := true, lit := p.lampMode == .on || p.lampMode == .auto }
  else { q with count := p.count - 1 }

/-- The kind part after counted pieces, one after another. -/
def GoalPart.afterPieces (lost : Bool) : Nat → GoalPart → GoalPart
  | 0, p => p
  | n + 1, p => GoalPart.afterPieces lost n (p.afterPiece lost)

/-- The points of counted pieces, credit by credit: each piece's, and the bonus of the one that fills the window (R121,
R122). -/
def GoalPart.piecePoints : Nat → GoalPart → List Nat
  | 0, _ => []
  | n + 1, p => (p.pointsPerPiece :: if p.fillsNext then [p.fillBonus] else []) ++ GoalPart.piecePoints n (p.afterPiece false)

/-- The notices of counted pieces, in order: (overrange) once, and (filled) with the row of the bonus (R122, R123). -/
def GoalPart.pieceNotices (i : Index) (row : Option (Fin 28)) : Nat → GoalPart → List Notice
  | 0, _ => []
  | n + 1, p =>
    (if p.count ≤ -255 then if p.overrangeNoted then [] else [.goal i p.windowNumber .overrange]
      else if p.fillsNext then [.goal i p.windowNumber (.filled (if p.fillBonus = 0 then none else row))] else [])
    ++ GoalPart.pieceNotices i row n (p.afterPiece false)

/-- The row that a goal's counted pieces are credited to in a phase: the alliance's, or the holder's of a neutral goal; none
when they are not credited (R121). -/
def ElementRecord.pieceRow (r : ElementRecord) (creditable : Bool) : Option (Fin 28) :=
  if creditable then match r.alliance with
    | some side => some (allianceRow side)
    | none => r.claim.holder.map slotRow
  else none

/-- The tally unit after credits to one cell, one after another; the row's alliance total changes by what the cell changed, and a
credit of 0 points is none (R121, R171, R172). -/
def State.creditedTu (s : State) (row : Option (Fin 28)) (i : Index) (points : List Nat) : Tu :=
  match row with
  | some ρ =>
    let new := (points.filter (· ≠ 0)).foldl (fun c n => c.add n) (s.tu.cell ρ i)
    { s.tu with
      cells := s.tu.cells.set (cellIndex ρ i).val new
      totals := match s.rowAlliance ρ with
        | some side => s.tu.totals.add side (new.value - (s.tu.cell ρ i).value)
        | none => s.tu.totals }
  | none => s.tu

/-! ## Snapshots and captures (R118, R174, R178) -/

/-- The export image that a snapshot takes (R174). -/
def State.imageNow (s : State) (isFinal : Bool) : Image :=
  { number := nextNumber s.tu.lastSnapshot, isFinal := isFinal, phase := s.mch.phase, matchTime := s.mch.matchTime,
    cells := s.tu.cells, totals := s.tu.totals }

/-- The tally unit after the final snapshot, when it is due (R178). -/
def State.finalTaken (s : State) (wait : List Index) : Tu :=
  if wait = [] ∧ s.tu.sending = none then
    { s.tu with lastSnapshot := nextNumber s.tu.lastSnapshot, image := some (s.imageNow true), finalWait := none }
  else { s.tu with finalWait := some wait }

/-- The notice of the final snapshot, when it is due (R178). -/
def State.finalNotices (s : State) (wait : List Index) : List Notice :=
  if wait = [] ∧ s.tu.sending = none then [.finalReady (nextNumber s.tu.lastSnapshot) s.mch.matchTime] else []

/-- The tally unit after a goal's closing record was captured: the goal is taken off the final wait (R178). -/
def State.captureTu (s : State) (i : Index) : Tu :=
  match s.tu.finalWait with
  | some wait => if i ∈ wait then s.finalTaken (wait.filter (· ≠ i)) else s.tu
  | none => s.tu

/-- The notices of the end of a closing, in order: (closed), the final snapshot's when it is due, and (opened) when the window
reopens (R118, R178). -/
def State.captureNotices (s : State) (i : Index) (p : GoalPart) (incomplete fresh : Bool) : List Notice :=
  let record : ClosingRecord :=
    { window := p.windowNumber, finalCount := p.count, windowPieces := p.windowPieces, filled := p.filled,
      overrange := p.overrangeNoted, incomplete := incomplete }
  .goal i p.windowNumber (.closed record fresh)
    :: ((match s.tu.finalWait with
        | some wait => if i ∈ wait then s.finalNotices (wait.filter (· ≠ i)) else []
        | none => [])
      ++ if p.reopenWanted then [.goal i (p.windowNumber + 1) (.opened (p.pendingQuota.getD p.quota))] else [])

/-- The sticky flags after a capture (R118). -/
def Sticky.captured (f : Sticky) (incomplete : Bool) : Sticky :=
  { f with overwritten := f.overwritten || f.recordFresh, recordFresh := true, incomplete := incomplete }

/-- A lamp drive of a lit state, when it differs from the one before. -/
def litChange (i : Index) (before after : Bool) : List BusAsk := if after = before then [] else [.lamp i after]

/-- What a completed poll of a goal does, but for the hold that an entry to FAULT asks for: `u` is the state after it. The pieces
counted since the last reading are attributed (R11, R120 to R123); with role CLOSING a window that is CLOSING is captured and
ends (R118); and the lamp is driven again when that is wanted or the node has restarted (R126). -/
def State.goalPollDone (s u : State) (i : Index) (r : ElementRecord) (p : GoalPart) (role : PollRole) (epoch counter : Byte)
    (broken : Bool) : Prop :=
  let restarted : Bool := r.epoch.isSome && r.epoch != some epoch
  let delta : Nat := match r.reading with
    | some (.goal old false) => if broken || restarted then 0 else (counter - old).toNat
    | _ => 0
  let creditable : Bool := match p.window with
    | .opened => s.mch.phase.inMatch
    | .closing => p.closingInMatch
    | .closed => false
  let row := r.pieceRow creditable
  let closed : Bool := p.window == .closed
  let n : Nat := if closed || s.held then 0 else delta
  let total : GoalPart := { p with
    pieceTotal := p.pieceTotal + BitVec.ofNat 16 delta
    idle := if closed then p.idle + BitVec.ofNat 16 delta else p.idle
    held := if !closed && s.held then p.held + BitVec.ofNat 16 delta else p.held }
  let counted := GoalPart.afterPieces (creditable && row.isNone) n total
  let closes : Bool := role == .closing && p.window == .closing
  let part := if closes then counted.closedBy broken else counted
  let record := r.afterPoll epoch (.goal counter broken) broken
  let sticky := { record.sticky with overrange := record.sticky.overrange || (counted.overrangeNoted && !p.overrangeNoted) }
  let credited : State := { s with tu := s.creditedTu row i (GoalPart.piecePoints n total) }
  s.onlyChanges u [.hlp, .elems, .ebc, .tu] ∧ s.elemsBut u i
    ∧ u.elem i = some { record with sticky := if closes then sticky.captured broken else sticky
                                    part := .goal { part with lampResync := false } }
    ∧ u.tu = (if closes then credited.captureTu i else credited.tu)
    ∧ u.hlp = s.hlp.raiseAll (pollNotices i r epoch broken ++ GoalPart.pieceNotices i row n total
        ++ if closes then credited.captureNotices i counted broken r.sticky.recordFresh else [])
    ∧ u.ebc = s.pollEnded i r.pollPeriod (litChange i p.lit counted.lit ++ litChange i counted.lit part.lit
        ++ if p.lampResync || restarted then [.lamp i part.lit] else [])

/-! ## Phases (R157 to R160) -/

/-- The phase remaining and the phase that a match begins with (R155, R156). -/
def Durations.first (d : Durations) : Phase × Nat :=
  if d.opening ≠ 0 then (.opening, d.opening) else if d.transition ≠ 0 then (.transition, d.transition) else (.play, d.play)

/-- Every window evaluated at the entry to a phase: the records, the closing polls that are then wanted, and the bus, which nothing
but the asks of the evaluation has changed (R114, R134, R157). -/
def State.windowsEvaluated (s t : State) : Prop :=
  (∀ i, t.elem i = (s.elem i).map fun r => { r with part := r.part.evaluated t.mch.phase }) ∧ s.closesAsked t
    ∧ t.ebc = (s.asksAll (s.windowAsks t.mch.phase)).ebc

/-- A record at the entry to ENDED: its claims emptied, a station told so, and its window evaluated (R40, R129, R137). -/
def ElementRecord.atEnd (r : ElementRecord) : ElementRecord :=
  { r with claim := { holder := none, heldFor := 0, waiting := [], guardRecord := none }
           part := (if r.claim.holder.isSome then r.part.holderSeen false else r.part).evaluated .ended }

/-- The lamp drives of the stations whose holders go at the entry to ENDED, by index (R40, R137). -/
def State.departureLamps (s : State) : List BusAsk :=
  indices.filterMap fun i => match s.stationAt i with
    | some p =>
      if (s.holder i).isSome ∧ p.lit ≠ (p.lampMode == .on) then some (.lamp i (p.lampMode == .on)) else none
    | none => none

/-- The goals whose windows are CLOSING after the entry to ENDED, ascending (R129). -/
def State.closingAtEnd (s : State) : List Index :=
  indices.filter fun i => match s.goalAt i with
    | some p => p.window == .opened || p.window == .closing
    | none => false

/-- The entry to ENDED (Table 8-4), in every block but the outbound queue. -/
def State.ends (s t : State) : Prop :=
  let ended : State := { s with mch := { s.mch with phase := .ended, remaining := 0 } }
  s.onlyChanges t [.hlp, .roster, .elems, .ebc, .mch, .tu] ∧ t.mch = ended.mch
    ∧ (∀ i, t.elem i = (s.elem i).map ElementRecord.atEnd) ∧ s.closesAsked t
    ∧ t.ebc = (s.asksAll (s.departureLamps ++ s.windowAsks .ended)).ebc
    ∧ (∀ k, t.robot k = if (s.robot k).state = .active ∨ (s.robot k).state = .benched then
        { s.robot k with state := .ready, bench := none } else s.robot k)
    ∧ t.roster = { s.roster with robots := t.roster.robots } ∧ t.tu = ended.finalTaken s.closingAtEnd

/-- The notices of an entry to ENDED, in order (R40, R157, R178). -/
def State.endNotices (s : State) (cause : PhaseCause) : List Notice :=
  [.phase .ended cause s.mch.matchTime 0 s.held,
   .claim (.cleared (indices.countP fun i => (s.holder i).isSome) ((indices.map fun i => (s.waiters i).length).sum))]
    ++ s.finalNotices s.closingAtEnd

/-- A record after CLEAR-MATCH (R18, R130, R138, R151). -/
def ElementRecord.cleared (r : ElementRecord) : ElementRecord :=
  { r with
    sticky := { restarted := r.sticky.restarted, trespass := false, overrange := false, recordFresh := false,
                overwritten := false, incomplete := false }
    part := match r.part with
      | .goal p => .goal { p with
          control := .auto, window := .closed, reopenWanted := false, closingInMatch := false,
          quota := p.pendingQuota.getD p.quota, pendingQuota := none, count := (p.pendingQuota.getD p.quota : Nat),
          filled := false, overrangeNoted := false, windowPieces := 0, lit := p.lampMode == .on, pieceTotal := 0, counted := 0,
          held := 0, idle := 0, unattributed := 0, record := none }
      | .station p => .station { p with control := .auto, windowOpen := false, accrual := 0, trespassEpisode := false }
      | .gate p => .gate p
      | .carriage p =>
        if p.runState = .halted then .carriage { p with runState := .stopped, homing := false, commanded := 0 }
        else .carriage p }

/-- A record after the Claim Arbiter's part of a tenth of match time (R32, R33). -/
def ElementRecord.claimsAfterTenth (r : ElementRecord) : ElementRecord :=
  let left : Option Guard := match r.claim.guardRecord with
    | some g => if 2 ≤ g.remaining then some { g with remaining := g.remaining - 1 } else none
    | none => none
  match r.claim.holder with
  | some k =>
    if r.holdLimit ≠ 0 ∧ r.holdLimit ≤ r.claim.heldFor + 1 then
      { r with
        claim := { holder := r.claim.waiting.head?, heldFor := 0, waiting := r.claim.waiting.tail,
                   guardRecord := if r.guardTime = 0 then left else some { slot := k, remaining := r.guardTime } }
        part := r.part.holderSeen (!r.claim.waiting.isEmpty) }
    else { r with claim := { r.claim with heldFor := r.claim.heldFor + 1, guardRecord := left } }
  | none => { r with claim := { r.claim with guardRecord := left } }

/-- A station counts a tenth toward its holder's points (R136). -/
def ElementRecord.accruing (r : ElementRecord) (p : StationPart) : Bool :=
  p.windowOpen && !r.inFault && p.presence == some true && r.claim.holder.isSome

/-- A station is trespassed on in a match phase (R135). -/
def ElementRecord.trespassed (r : ElementRecord) (p : StationPart) : Bool :=
  p.windowOpen && !r.inFault && p.presence == some true && r.claim.holder.isNone && !p.trespassEpisode

/-- A record after a whole tenth of match time (R32, R33, R135, R136). -/
def ElementRecord.afterTenth (r : ElementRecord) : ElementRecord :=
  let q := r.claimsAfterTenth
  match q.part with
  | .station p =>
    { q with
      sticky := { q.sticky with trespass := q.sticky.trespass || q.trespassed p }
      part := .station { p with trespassEpisode := p.trespassEpisode || q.trespassed p
                                accrual := if q.accruing p then if 9 ≤ p.accrual then 0 else p.accrual + 1 else p.accrual } }
  | _ => q

/-- The points a station credits at a tenth, when there are any, with the row they go to (R136). -/
def ElementRecord.creditAtTenth (r : ElementRecord) : Option (Fin 28 × Nat) :=
  let q := r.claimsAfterTenth
  match q.part, q.claim.holder with
  | .station p, some k => if q.accruing p && decide (9 ≤ p.accrual) && p.pointsPerSecond != 0 then some (slotRow k, p.pointsPerSecond) else none
  | _, _ => none

/-- The notices of a tenth of match time, in order: expiries with their promotions by index, benches that end by slot, and
trespasses by index (R33, R57, R135). The order of blocks, indices and slots is the model's choice (assumption 30). -/
def State.tenthNotices (s : State) : List Notice :=
  (indices.flatMap fun i => match s.elem i with
    | some r => match r.claim.holder with
      | some k =>
        if r.holdLimit ≠ 0 ∧ r.holdLimit ≤ r.claim.heldFor + 1 then departureNotices i r.claim (.expired i k r.guardTime) else []
      | none => []
    | none => [])
  ++ (slots.flatMap fun k => match (s.robot k).state, (s.robot k).bench with
    | .benched, some n => if n ≤ 1 then [.robot k .benchEnded] else []
    | _, _ => [])
  ++ indices.flatMap fun i => match s.elem i with
    | some r => match r.claimsAfterTenth.part with
      | .station p => if r.claimsAfterTenth.trespassed p then [.element i (.trespass s.mch.phase)] else []
      | _ => []
    | none => []

/-- The alliance totals after a tenth of match time: each changes by what the cells of its rows changed (R136, R172). -/
def State.totalsAfterTenth (s : State) : Totals :=
  indices.foldl (fun totals i => match (s.elem i).bind ElementRecord.creditAtTenth with
    | some (row, points) => match s.rowAlliance row with
      | some side => totals.add side (((s.tu.cell row i).add points).value - (s.tu.cell row i).value)
      | none => totals
    | none => totals) s.tu.totals

/-! ## Request frames (R184, Table 11-2) -/

/-- The body lengths of the requests 01h to 1Dh; the entry of SET-TIMING, 03h, stands for its presence byte alone. -/
def bodyLengths : List Nat :=
  [0, 0, 1, 1, 17, 1, 4, 1, 0, 1, 0, 0, 1, 1, 2, 1, 1, 3, 2, 2, 2, 2, 3, 1, 1, 0, 4, 2, 0]

/-- The bytes of the fields that a SET-TIMING's presence byte marks present. -/
def presentBytes (presence : Byte) : Nat :=
  (presence.getLsbD 0).toNat + (presence.getLsbD 1).toNat + (presence.getLsbD 2).toNat
    + 2 * (presence.getLsbD 3).toNat + 2 * (presence.getLsbD 4).toNat + 2 * (presence.getLsbD 5).toNat
    + 2 * (presence.getLsbD 6).toNat + (presence.getLsbD 7).toNat

/-- A body has the length its request calls for. -/
def bodyFits (kind : Byte) (body : List Byte) : Prop :=
  if kind = 0x03#8 then ∃ presence fields, body = presence :: fields ∧ fields.length = presentBytes presence
  else bodyLengths[kind.toNat - 1]? = some body.length

/-! ## The outbound queue (R185) -/

/-- The outbound queue keeps its limits: at most 22 notices and at most 2 replies. -/
def Hlp.sound (h : Hlp) : Prop := h.notices ≤ 22 ∧ h.replies ≤ 2

/-! ## The tally (R170) -/

/-- Every cell lies in its range; a send in flight has its image and has queued at most its 84 parts. -/
def Tu.sound (t : Tu) : Prop :=
  (∀ c : Fin 1344, -32767 ≤ t.cells[c.val].value ∧ t.cells[c.val].value ≤ 32767)
    ∧ (t.sending.isSome → t.image.isSome) ∧ t.sending.all (fun d => decide (d.parts ≤ 84)) = true

/-- The alliance that owns a row: rows 24 to 27 always have theirs, a slot's row when the slot is not VACANT (R172). -/
def State.owns (s : State) (side : Alliance) (row : Fin 28) : Bool := s.rowAlliance row == some side

/-- The sum of the cells of every row of an alliance. -/
def State.sumOf (s : State) (side : Alliance) : Int :=
  ((List.finRange 28).map fun row => if s.owns side row then (indices.map fun i => (s.tu.cell row i).value).sum else 0).sum

/-- Every alliance total is the sum of its rows (R172). Rows change hands in SETUP and STAGED alone, where every cell is 0 and no
closing goal counts for the match that is over. -/
def State.totalsSound (s : State) : Prop :=
  s.tu.totals = { a := s.sumOf .a, b := s.sumOf .b, c := s.sumOf .c, d := s.sumOf .d }
    ∧ (s.mch.phase = .setup ∨ s.mch.phase = .staged →
        (∀ row i, (s.tu.cell row i).value = 0) ∧ ∀ i p, s.goalAt i = some p → p.window = .closing → p.closingInMatch = false)

/-! ## The hold stack (R161) -/

/-- At most 6 holds with numbers from 1 to 255, no two alike, and a pending hold only on a full stack. -/
def Mch.holdsSound (m : Mch) : Prop :=
  m.stack.length ≤ 6 ∧ (m.stack.map Hold.number).Nodup ∧ 0#8 ∉ m.stack.map Hold.number
    ∧ (m.pendingSet ≠ PendingSet.empty → m.stack.length = 6)

/-! ## The transaction queue (R86, R90, R101) -/

/-- The queue keeps its limits and its age order. -/
def Ebc.ordered (e : Ebc) : Prop :=
  e.ordinary ≤ 31 ∧ e.queue.countP Entry.isStop ≤ 1 ∧ e.queue.Pairwise (fun x y => x.age < y.age)
    ∧ ∀ x ∈ e.queue, x.age < e.nextAge

/-- An element's entries: at most one POLL, one LAMP and one MOTION (R90). -/
def Ebc.single (e : Ebc) (i : Index) : Prop :=
  e.queue.countP (fun x => x.isPoll && x.isFor i) ≤ 1 ∧ e.queue.countP (fun x => x.isLamp && x.isFor i) ≤ 1
    ∧ e.queue.countP (fun x => x.isMotion && x.isFor i) ≤ 1

/-- A pending mark stands only for a transaction that is not queued. -/
def Ebc.marksApart (e : Ebc) (i : Index) : Prop :=
  ((e.sched[i.val].pollDue || e.sched[i.val].closingWanted) = true → e.queue.any (fun x => x.isPoll && x.isFor i) = false)
    ∧ (e.sched[i.val].lampSync = true → e.queue.any (fun x => x.isLamp && x.isFor i) = false)
    ∧ (e.sched[i.val].carriageSync = true → e.queue.any (fun x => x.isCarriageDrive i) = false)

/-- The transaction queue and the pending marks: while any mark is set, the queue holds 31 entries that are not STOP_ALL. -/
def Ebc.sound (e : Ebc) : Prop :=
  e.ordered ∧ (e.anyMark = true → e.ordinary = 31) ∧ (∀ i, e.single i) ∧ ∀ i, e.marksApart i

/-- A queued MOTION fits its element's kind: a gate's is asked for by a robot or the host, a carriage's by the part itself; and a
carriage-sync mark stands on a carriage alone (R97). -/
def State.motionsFit (s : State) : Prop :=
  (∀ e ∈ s.ebc.queue, ∀ m, e.op = .motion m → ∃ i, e.element = some i ∧ match m with
      | .gate _ => (s.gateAt i).isSome = true ∧ e.origin ≠ .internal
      | .carriage _ => (s.carriageAt i).isSome = true ∧ e.origin = .internal)
    ∧ ∀ i, (s.sched i).carriageSync = true → (s.carriageAt i).isSome = true

/-! ## Claims (R19, R20) -/

/-- One claim part: its robots are all different, at most 4 wait, and nobody waits behind no holder. -/
def ClaimPart.sound (c : ClaimPart) : Bool :=
  decide (c.waiting.length ≤ 4) && decide c.waiting.Nodup && (match c.holder with
    | some k => !c.waiting.contains k
    | none => c.waiting.isEmpty)

/-- No robot holds more than 2 elements or waits on more than 1, and a robot that waits holds at most 1. -/
def State.robotClaimsSound (s : State) (k : Slot) : Prop :=
  (s.heldBy k).length ≤ 2 ∧ (∀ i j, k ∈ s.waiters i → k ∈ s.waiters j → i = j)
    ∧ ∀ i, k ∈ s.waiters i → (s.heldBy k).length ≤ 1

/-- The claims of the whole field. -/
def State.claimsSound (s : State) : Prop :=
  (∀ i, (s.elem i).all (fun r => r.claim.sound) = true) ∧ ∀ k, s.robotClaimsSound k

/-- Every robot that holds or waits on an element is ACTIVE, and the phase is then OPENING to FINALE (R19). -/
def State.claimantsActive (s : State) : Prop :=
  ∀ i k, s.holder i = some k ∨ k ∈ s.waiters i → (s.robot k).state = .active ∧ s.mch.phase.inMatch = true

/-! ## The roster (R45 to R61) -/

/-- One robot record: what its state says of its other fields. -/
def RobotRecord.sound (r : RobotRecord) : Prop :=
  (r.state = .vacant → r = RobotRecord.vacant)
    ∧ (r.state ≠ .vacant → r.team.isSome ∧ r.team ≠ some 0#16 ∧ r.alliance.isSome)
    ∧ (r.state.isLinked = true → r.robotId.isSome) ∧ (r.bench.isSome ↔ r.state = .benched)
    ∧ r.bench.all (fun n => decide (1 ≤ n) && decide (n ≤ 1200)) = true
    ∧ r.unheard ≤ 255 ∧ (r.silent = true → r.state.isLinked = true) ∧ (r.openRequest.isSome → r.state.isLinked = true)

/-- The roster: every record sound, no two slots with one team, and the limits in their ranges and order. -/
def Roster.sound (r : Roster) : Prop :=
  (∀ k : Slot, r.robots[k.val].sound)
    ∧ (∀ j k : Slot, j ≠ k → r.robots[j.val].state ≠ .vacant → r.robots[k.val].state ≠ .vacant →
        r.robots[j.val].team ≠ r.robots[k.val].team)
    ∧ 3 ≤ r.silenceLimit ∧ r.silenceLimit ≤ 20 ∧ 10 ≤ r.dropLimit ∧ r.dropLimit ≤ 250 ∧ r.silenceLimit < r.dropLimit

/-! ## The field table (R1, R2, R120, R122) -/

/-- A goal accounts for every piece and keeps its count in range; a station's accrual stays below 10. -/
def KindPart.sound : KindPart → Bool
  | .goal p => p.pieceTotal == p.counted + p.held + p.idle && decide (-255 ≤ p.count) && decide (p.count ≤ p.quota)
  | .station p => decide (p.accrual ≤ 9)
  | .gate _ => true
  | .carriage _ => true

/-- One element record. -/
def ElementRecord.sound (r : ElementRecord) : Bool :=
  decide (1 ≤ r.address.toNat) && decide (r.address.toNat ≤ 63) && decide (r.failures ≤ 3) && r.part.sound

/-- The field table: every record sound and no node address used twice. -/
def State.fieldSound (s : State) : Prop :=
  (∀ i, (s.elem i).all ElementRecord.sound = true)
    ∧ ∀ i j, i ≠ j → (s.elem i).isSome → (s.elem i).map (·.address) ≠ (s.elem j).map (·.address)

end Sys2Proof.Machine
end

