-- ==== Sys2Proof/WellFormed.lean ====
section
/-! DEFINITION. When a command is well formed: the conditions on its operands that the operand types do not carry. -/
namespace Sys2Proof

/-- Well-formedness of a command. Bytes of a host request that lie outside their ranges are well formed: the part answers
them with a status code (R193, chapter 10). -/
def Instr.wf : Instr → Bool
  | .hostFrame bytes => !bytes.isEmpty
  | .frameInAssemblyDiscarded byte stopBit => !stopBit || badLen byte
  | .defineElement _ fields => fields.kindPart.length == 9
  | .slotFrame _ frame => !frame.isEmpty
  | .join _ frame => !frame.isEmpty
  | .busReply frame => !frame.isEmpty
  | .claim _ number _ => number != 0#4
  | .release _ number _ => number != 0#4
  | .cancel _ number => number != 0#4
  | .act _ number _ _ => number != 0#4
  | .ackSignal _ number _ => number != 0#4
  | .powerOnReset | .lineReset | .resetPartEffect | .hostFrameGapTimeout | .outboundFrameSent => true
  | .identify _ | .resetPart _ | .setNotices _ _ | .readMatch _ | .setTiming _ _ | .removeElement _ _ => true
  | .assignRobot _ _ _ _ | .unassignRobot _ _ | .arm _ | .start _ _ | .endMatch _ | .clearMatch _ => true
  | .hold _ _ | .resume _ _ | .bench _ _ _ | .reinstate _ _ | .eject _ _ | .signal _ _ _ _ => true
  | .setWindow _ _ _ | .setQuota _ _ _ | .setLamp _ _ _ | .setGate _ _ _ | .driveCarriage _ _ _ _ => true
  | .readElement _ _ | .readRobot _ _ | .adjust _ _ _ _ | .sheet _ _ _ | .sheetStop _ => true
  | .cycleStart | .robotSilent _ | .drop _ | .transactionSelect | .turnaroundExpiry | .replyTimeout => true
  | .stopAllSent | .refreshDue _ | .refreshPollOverdue _ | .busQuietTimeEnd | .matchTenth | .claimExpiry _ => true
  | .guardRunOut _ | .benchEnded _ | .stationAccrualSecond _ | .ranOut | .hostSilenceExpiry => true
  | .fieldStopLineChange _ | .fieldStopAsserted | .fieldStopReleased | .gateTravelLimit _ => true

end Sys2Proof
end

