-- ==== Sys2Proof/Certificates/Slice0/Obligations.lean ====
section
/-! DEFINITION. The statements for the provers, family by family. Each says what a command does to the state, for every state and every operand it is said of; the clauses of one statement exclude each other or hold together. -/

section
open Sys2Proof Sys2Proof.Machine

/-! ## The block -/

/-- A step takes the command at the front of the queue and runs it on the state with the rest of the queue. -/
def Obligations.StepRunsFrontCommand : Prop :=
  ∀ (c : Instr) (rest : List Instr) (s : State), s.pending = c :: rest → step s = exec c { s with pending := rest }

/-- With no command waiting, a step lets time pass. The model's choice (assumptions 2, 19 and 20): a first cycle that is
due and a selection on a free bus are put into the queue at once; otherwise one slice of wall time passes, every timer
moves by it, and what it has made due is put into the queue, in the order of assumption 2. The host silence timer that is
stopped keeps its elapsed time (assumption 13). -/
def Obligations.EmptyQueueLetsTimePass : Prop :=
  ∀ s : State, s.pending = [] →
    if s.rcc.firstCycle then
      step s = .next { s with pending :=
        if s.ebc.free && !s.ebc.queue.isEmpty then [.cycleStart, .transactionSelect] else [.cycleStart] }
    else if s.ebc.free && !s.ebc.queue.isEmpty then step s = .next { s with pending := [.transactionSelect] }
    else ∃ t, step s = .next t ∧ s.onlyChanges t [.hlp, .rcc, .elems, .ebc, .mch, .now, .pending]
      ∧ t.now = s.now + 1 ∧ t.rcc = { s.rcc with elapsed := s.rcc.elapsed + 1 }
      ∧ t.ebc = { s.ebc with inFlight := s.ebc.inFlight.map fun f => { f with elapsed := f.elapsed + 1 }
                             turnaround := s.ebc.turnaround.map (· + 1), quiet := s.ebc.quiet.map (· + 1) }
      ∧ t.mch = { s.mch with
          tenthTimer := if s.matchRuns then min 1999 (s.mch.tenthTimer + 1) else s.mch.tenthTimer
          rawHeld := min 200 (s.mch.rawHeld + 1)
          silenceElapsed := if s.silenceRunning then s.mch.silenceElapsed + 1 else s.mch.silenceElapsed }
      ∧ t.hlp = { s.hlp with rxGap := if s.hlp.rx = [] then 0 else s.hlp.rxGap + 1
                             txBits := if s.hlp.out = [] then 0 else s.hlp.txBits + 2304 }
      ∧ (∀ i, t.elem i = (s.elem i).map fun r => { r with part := match r.part with
          | .gate p => .gate { p with motion := match p.motion with
              | .travelling target origin elapsed => .travelling target origin (elapsed + 1)
              | motion => motion }
          | part => part })
      ∧ (let due (c : Bool) (i : Instr) : List Instr := if c then [i] else []
         let ran (limit : Nat) (timer : Option Nat) : Bool := timer.any fun n => decide (limit ≤ n)
         t.pending = due (20 * s.rcc.interval ≤ s.rcc.elapsed + 1) .cycleStart
           ++ due (ran 64 t.ebc.quiet) .busQuietTimeEnd
           ++ due (ran 4 t.ebc.turnaround) .turnaroundExpiry
           ++ (match t.ebc.inFlight with
             | some f => if f.entry.op = .stopAll then due (4 ≤ f.elapsed) .stopAllSent else due (64 ≤ f.elapsed) .replyTimeout
             | none => [])
           ++ due (t.mch.rawHeld = 200 ∧ s.mch.raw = true ∧ s.mch.filtered = false) .fieldStopAsserted
           ++ due (t.mch.rawHeld = 200 ∧ s.mch.raw = false ∧ s.mch.filtered = true) .fieldStopReleased
           ++ (indices.filter fun i => match t.gateAt i with
             | some ⟨_, limit, .travelling _ _ elapsed⟩ => decide (2000 * limit ≤ elapsed)
             | _ => false).map .gateTravelLimit
           ++ due (s.matchRuns = true ∧ 1999 ≤ s.mch.tenthTimer) .matchTenth
           ++ due (s.silenceRunning = true ∧ 20000 * s.mch.hostLimit ≤ t.mch.silenceElapsed) .hostSilenceExpiry
           ++ (indices.filter fun i => (s.sched i).due.any (fun at_ => decide (at_ ≤ t.now)) && !(s.sched i).owed
                && !(s.sched i).pollDue).map .refreshDue
           ++ s.ebc.queue.filterMap (fun e => match e.element, e.element.bind s.elem with
             | some i, some r =>
               if e.op = .poll .refresh ∧ e.cls = .refresh ∧ e.enteredAt + 20 * r.pollPeriod ≤ t.now then
                 some (.refreshPollOverdue i)
               else none
             | _, _ => none)
           ++ due (s.hlp.rx ≠ [] ∧ 100 < t.hlp.rxGap) .hostFrameGapTimeout
           ++ match s.hlp.out with
             | head :: _ => due (1000 * head.bytes.length ≤ t.hlp.txBits) .outboundFrameSent
             | [] => [])

/-- Every command leads to a next state, and none touches the commands that wait behind it. -/
def Obligations.CommandsCompleteAndLeaveTheQueue : Prop :=
  ∀ (i : Instr) (s : State), ∃ t, exec i s = .next t ∧ t.pending = s.pending

/-- A power-on reset, a line reset and a taken RESET-PART give the same state but for the recorded cause. What drives
FIELD_STOP and the commands that wait are left (assumption 6); RESET_PART_EFFECT with no RESET-PART taken is no event
(assumption 1). What a reset leaves in every block. The output latches, the wall clock and the age source at 0 are the
model's own (assumptions 8, 9 and 21), and so is the released raw level (assumption 6). The stopped turnaround timer is
the model's choice: R86 gives it no value after a reset (assumption 34). The clear RESET-PART mark is deduced (assumption
35). -/
def Obligations.ResetsGiveTheResetState : Prop :=
  (∀ s : State,
    let after (cause : ResetCause) : State :=
      { State.reset with hlp := { State.reset.hlp with cause := cause }, mch := { State.reset.mch with raw := s.mch.raw },
                         pending := s.pending }
    exec .powerOnReset s = .next (after .powerOn) ∧ exec .lineReset s = .next (after .resetLine)
      ∧ (s.hlp.resetRequested = true → exec .resetPartEffect s = .next (after .resetRequest))
      ∧ (s.hlp.resetRequested = false → exec .resetPartEffect s = .next s))
  ∧ (∀ k, State.reset.robot k = RobotRecord.vacant) ∧ State.reset.roster.silenceLimit = 6 ∧ State.reset.roster.dropLimit = 50
    ∧ RobotRecord.vacant.state = .vacant ∧ RobotRecord.vacant.team = none ∧ RobotRecord.vacant.alliance = none
    ∧ RobotRecord.vacant.robotId = none ∧ RobotRecord.vacant.kitRevision = none ∧ RobotRecord.vacant.silent = false
    ∧ RobotRecord.vacant.unheard = 0 ∧ RobotRecord.vacant.bench = none ∧ RobotRecord.vacant.signals = 0
    ∧ RobotRecord.vacant.ejectedMark = false ∧ RobotRecord.vacant.openRequest = none
    ∧ (∀ i, State.reset.elem i = none)
    ∧ State.reset.ebc.queue = [] ∧ State.reset.ebc.inFlight = none ∧ State.reset.ebc.turnaround = none
    ∧ State.reset.ebc.quiet = some 0 ∧ (∀ i, State.reset.sched i = Sched.clear)
    ∧ State.reset.rcc.cycle = 0 ∧ State.reset.rcc.interval = 40 ∧ State.reset.rcc.pendingInterval = none
    ∧ State.reset.rcc.beacon = none ∧ State.reset.rcc.joinAnswer = none ∧ (∀ k, State.reset.slotTaken k = false)
    ∧ State.reset.rcc.takenJoin = false
    ∧ State.reset.mch.phase = .setup ∧ State.reset.mch.remaining = 0 ∧ State.reset.mch.matchTime = 0
    ∧ State.reset.mch.tenthTimer = 0
    ∧ State.reset.mch.durations = { opening := 150, transition := 50, play := 1200, finale := 300 }
    ∧ State.reset.mch.stack = [] ∧ State.reset.mch.pendingSet = PendingSet.empty ∧ State.reset.mch.nextHold = 1
    ∧ State.reset.mch.filtered = false ∧ State.reset.mch.rawHeld = 0 ∧ State.reset.mch.hostLimit = 0
    ∧ State.reset.mch.silenceElapsed = 0 ∧ State.reset.mch.silenceExpired = false ∧ State.reset.haltOut = false
    ∧ (∀ row column, State.reset.tu.cell row column = Cell.zero) ∧ State.reset.tu.totals = Totals.zero
    ∧ State.reset.tu.image = none ∧ State.reset.tu.sending = none ∧ State.reset.tu.finalWait = none
    ∧ nextNumber State.reset.tu.lastSnapshot = 1
    ∧ State.reset.hlp.rx = [] ∧ State.reset.hlp.out = [] ∧ State.reset.hlp.lost = false
    ∧ State.reset.hlp.mask = BitVec.allOnes 7 ∧ State.reset.hlp.cause = .powerOn ∧ State.reset.hlp.resetRequested = false
    ∧ State.reset.pending = []

/-! ## The host link -/

/-- The bytes of a request and the request name each other: reading what a well-formed request is written as gives that
request, and a request read from bytes is written as those bytes. -/
def Obligations.DecodeOfEncodedRequests : Prop :=
  (∀ (i : Instr) (kind tag : Byte) (body : List Byte), i.wf = true → encodeRequest i = some (kind, tag, body) →
    decodeRequest kind tag body = .request i)
  ∧ ∀ (i : Instr) (kind tag : Byte) (body : List Byte), decodeRequest kind tag body = .request i →
    encodeRequest i = some (kind, tag, body)

/-- A whole sound frame received while hunting does exactly what its request does, and a frame may come in pieces. -/
def Obligations.HostFrameRunsItsRequest : Prop :=
  (∀ (i : Instr) (kind tag : Byte) (body : List Byte) (s : State), i.wf = true → encodeRequest i = some (kind, tag, body) →
    s.listening = true → s.hlp.rx = [] →
    exec (.hostFrame (hostFrameBytes kind tag body)) s = exec i { s with hlp := { s.hlp with rxGap := 0 } })
  ∧ ∀ (first second : List Byte) (s t : State), exec (.hostFrame first) s = .next t →
    exec (.hostFrame (first ++ second)) s = exec (.hostFrame second) t

/-- What ends a frame in assembly as discarded changes nothing but the receive buffer: a gap, a missing stop bit, a bad
LEN, a wrong CRC. While hunting, a byte other than 5Eh is skipped and 5Eh begins a frame. -/
def Obligations.UnsoundHostBytesAreDiscarded : Prop :=
  ∀ s : State,
    let hunting : State := { s with hlp := { s.hlp with rx := [], rxGap := 0 } }
    exec .hostFrameGapTimeout s = .next hunting
      ∧ (∀ b, exec (.frameInAssemblyDiscarded b false) s = .next hunting)
      ∧ (∀ b : Byte, s.hlp.rx.length = 1 → (b.toNat < 2 ∨ 250 < b.toNat) →
          exec (.frameInAssemblyDiscarded b true) s = .next hunting)
      ∧ (s.listening = true → s.hlp.rx = [] → ∀ b : Byte, b ≠ 0x5E#8 → exec (.hostFrame [b]) s = .next s)
      ∧ (s.listening = true → s.hlp.rx = [] →
          exec (.hostFrame [0x5E#8]) s = .next { s with hlp := { s.hlp with rx := [0x5E#8], rxGap := 0 } })
      ∧ (s.listening = true → s.hlp.rx = [0x5E#8] → ∀ b : Byte, (b.toNat < 2 ∨ 250 < b.toNat) →
          exec (.hostFrame [b]) s = .next hunting)
      ∧ (s.listening = true → s.hlp.rx = [] → ∀ (len : Byte) (counted : List Byte) (crc : List Byte),
          2 ≤ len.toNat → len.toNat ≤ 250 → counted.length = len.toNat → crc.length = 2 →
          crc ≠ halfBytes (hostCrc (len :: counted)) →
          exec (.hostFrame (0x5E#8 :: len :: (counted ++ crc))) s = .next hunting)

/-- A good frame whose KIND names no request is answered UNKNOWN_REQUEST, and one whose body has another length than its
request calls for BAD_LENGTH. What a request does before its owner sees it, its row being the arrival of a good frame that
carries it (assumption 4): after a RESET-PART nothing (R190), and with both reply places occupied nothing but the restart of
the host silence timer (R183), which restarts in STAGED to FINALE when its limit is not 0. -/
def Obligations.FramesThatAreRefusedOrIgnored : Prop :=
  (∀ (s : State) (kind tag : Byte) (body : List Byte), s.accepts = true → s.hlp.rx = [] → body.length ≤ 248 →
    let hunting : State := { s with hlp := { s.hlp with rxGap := 0 } }
    (kind = 0 ∨ 0x1D < kind.toNat → ∃ t, exec (.hostFrame (hostFrameBytes kind tag body)) s = .next t
        ∧ hunting.refuses t kind tag .unknownRequest)
      ∧ (kind ≠ 0 → kind.toNat ≤ 0x1D → ¬ bodyFits kind body →
          ∃ t, exec (.hostFrame (hostFrameBytes kind tag body)) s = .next t ∧ hunting.refuses t kind tag .badLength))
  ∧ ∀ (i : Instr) (s : State), (encodeRequest i).isSome →
    (s.hlp.resetRequested = true → exec i s = .next s ∧ ∀ bytes, exec (.hostFrame bytes) s = .next s)
      ∧ (s.hlp.resetRequested = false → 2 ≤ s.hlp.replies → exec i s = .next s.restartSilence)
      ∧ s.restartSilence = { s with mch :=
          if (s.mch.phase = .staged ∨ s.mch.phase = .opening ∨ s.mch.phase = .transition ∨ s.mch.phase = .play
              ∨ s.mch.phase = .finale) ∧ s.mch.hostLimit ≠ 0 then
            { s.mch with silenceElapsed := 0, silenceExpired := false }
          else s.mch }

/-- The head frame leaves the outbound queue as its last byte is sent, and its bytes stand in the output latch (assumption 9;
their coding where the spec leaves it open: assumptions 11 and 33); the count of bits sent starts again (assumption 19). With an empty queue the event changes nothing (assumption 1). With
no send in flight nothing more happens. A send in flight fills the queue with its next parts, in order, while 6 places are
free, and ends with SHEET_DONE after the last, all in the one event where they fit; a final snapshot that waited for the end
of the send is then taken. The reply to a taken RESET-PART lets the reset take effect. -/
def Obligations.OutboundFrameSent : Prop :=
  ∀ s : State, match s.hlp.out with
  | [] => exec .outboundFrameSent s = .next s
  | head :: rest =>
    if s.hlp.resetRequested && head.isResetReply then exec .outboundFrameSent s = exec .resetPartEffect s
    else ∃ t, exec .outboundFrameSent s = .next t ∧ s.onlyChanges t [.hlp, .tu]
      ∧ t.hlp = { s.hlp with out := t.hlp.out, lost := t.hlp.lost, txBits := 0, hostTx := head.bytes }
      ∧ (s.tu.sending = none → t.hlp.out = rest ∧ t.hlp.lost = s.hlp.lost ∧ t.tu = s.tu)
      ∧ (18 < rest.length → t.hlp.out = rest ∧ t.hlp.lost = s.hlp.lost ∧ t.tu = s.tu)
      ∧ ∀ d m, s.tu.sending = some d → s.tu.image = some m → rest.length ≤ 18 →
          let room := 19 - rest.length
          let part (j : Nat) : OutFrame := .notice (s.hlp.lost && j == 0) (.sheetPart m.number d.order (16 * (d.parts + j))
            ((List.range 16).map fun c => m.cellAt d.order (16 * (d.parts + j) + c)))
          (d.parts + room ≤ 84 → t.hlp.out = rest ++ (List.range room).map part ∧ t.hlp.lost = false
            ∧ t.tu = { s.tu with sending := some { d with parts := d.parts + room } })
          ∧ (d.parts ≤ 84 → 84 < d.parts + room →
            let left := 84 - d.parts
            let idle : State := { s with tu := { s.tu with sending := none } }
            let done : OutFrame := .notice (s.hlp.lost && left == 0) (.sheetDone m.number d.order m.isFinal m.totals 84 false)
            let sent : Hlp := { s.hlp with out := rest ++ (List.range left).map part ++ [done], lost := false, txBits := 0
                                           hostTx := head.bytes }
            t.tu = (match s.tu.finalWait with
              | some wait => idle.finalTaken wait
              | none => idle.tu)
            ∧ t.hlp = sent.raiseAll (match s.tu.finalWait with
              | some wait => idle.finalNotices wait
              | none => []))

/-- IDENTIFY is taken in every phase, names the part, its silicon revision (a free constant, assumption 7) and the
recorded reset cause, and changes no state; a good frame in SETUP restarts nothing. RESET-PART is answered OK, and from
then on nothing is dispatched. The characters of the part name and the one byte of the revision are coded as the model chooses
(assumption 11). -/
def Obligations.IdentifyAndResetPart : Prop :=
  (∀ (s : State) (tag : Byte), s.accepts = true →
    ∃ t, exec (.identify tag) s = .next t
      ∧ s.answers t [] 0x01 tag [] .ok (.identify Config.siliconRevision s.hlp.cause)
      ∧ (ReplyBody.identify Config.siliconRevision s.hlp.cause).bytes
          = ("Rojaz FC-24".toList.map fun c => BitVec.ofNat 8 c.toNat) ++ [Config.siliconRevision, s.hlp.cause.code]
      ∧ (s.mch.phase = .setup → t.mch = s.mch))
  ∧ ∀ (s : State) (tag : Byte), s.accepts = true →
    ∃ t, exec (.resetPart tag) s = .next t ∧ s.restartSilence.onlyChanges t [.hlp]
      ∧ t.hlp = { s.hlp with resetRequested := true, out := s.hlp.out ++ [.reply 0x02 tag .ok .empty] }
      ∧ t.listening = false

/-- SET-NOTICES replaces the mask of seven classes and shows it; another bit is refused. The mask acts on notices raised
after it, stops the SHEET notices (snapshot taken) and (final ready) but leaves SHEET_PART and SHEET_DONE flowing, has
every class enabled after every reset, and stands through CLEAR-MATCH. -/
def Obligations.SetNoticesReplacesTheMask : Prop :=
  (∀ (s : State) (tag mask : Byte), s.accepts = true →
    ∃ t, exec (.setNotices tag mask) s = .next t
      ∧ (mask.toNat < 128 → s.restartSilence.onlyChanges t [.hlp]
          ∧ t.hlp = { s.hlp with mask := mask.setWidth 7
                                 out := s.hlp.out ++ [.reply 0x04 tag .ok (.mask (mask.setWidth 7))] })
      ∧ (128 ≤ mask.toNat → s.refuses t 0x04 tag .badValue))
  ∧ (∀ (h : Hlp) (n : Notice) (c : Fin 7), n.classBit = some c → h.mask.getLsbD c.val = false → h.raise n = h)
  ∧ (∀ (h : Hlp) (n : Notice), (n.classBit = none ∨ ∃ c, n.classBit = some c ∧ h.mask.getLsbD c.val = true) →
      h.raise n = if 22 ≤ h.notices then { h with lost := true }
        else { h with out := h.out ++ [.notice h.lost n], lost := false })
  ∧ ((∀ entered cause time remaining held, (Notice.phase entered cause time remaining held).classBit = some 0)
    ∧ (∀ time phase what, (Notice.hold time phase what).classBit = some 1)
    ∧ (∀ slot what, (Notice.robot slot what).classBit = some 2) ∧ (∀ what, (Notice.claim what).classBit = some 3)
    ∧ (∀ index window what, (Notice.goal index window what).classBit = some 4)
    ∧ (∀ index what, (Notice.element index what).classBit = some 5)
    ∧ (∀ number phase time, (Notice.snapshotTaken number phase time).classBit = some 6)
    ∧ ∀ number time, (Notice.finalReady number time).classBit = some 6)
  ∧ (∀ number order first cells, (Notice.sheetPart number order first cells).classBit = none)
  ∧ (∀ number order isFinal totals parts stopped, (Notice.sheetDone number order isFinal totals parts stopped).classBit = none)
  ∧ (∀ cause raw pending, (State.afterReset cause raw pending).hlp.mask = BitVec.allOnes 7)
  ∧ ∀ (s t : State) (tag : Byte), exec (.clearMatch tag) s = .next t → t.hlp.mask = s.hlp.mask

/-- SET-TIMING is taken in SETUP alone (the phase is checked first, assumption 15) and checked as a whole: every present field
in its range and the drop limit above the silence limit, an absent limit at its stored value. Taken, every present field
replaces its value; the interval pends. The reply shows every setting, the pending interval where one stands (assumption 10).
-/
def Obligations.SetTimingSetsPresentFields : Prop :=
  ∀ (s : State) (tag : Byte) (f : TimingFields), s.accepts = true →
    let byte (stored : Nat) (b : Option Byte) : Nat := (b.map BitVec.toNat).getD stored
    let word (stored : Nat) (w : Option Half) : Nat := (w.map BitVec.toNat).getD stored
    let silence := byte s.roster.silenceLimit f.silenceLimit
    let drop := byte s.roster.dropLimit f.dropLimit
    let sound : Prop := (∀ b, f.interval = some b → 35 ≤ b.toNat ∧ b.toNat ≤ 100)
      ∧ (∀ b, f.silenceLimit = some b → 3 ≤ b.toNat ∧ b.toNat ≤ 20) ∧ (∀ b, f.dropLimit = some b → 10 ≤ b.toNat ∧ b.toNat ≤ 250)
      ∧ (∀ w, f.openingTenths = some w → w.toNat ≤ 600) ∧ (∀ w, f.transitionTenths = some w → w.toNat ≤ 150)
      ∧ (∀ w, f.playTenths = some w → 100 ≤ w.toNat ∧ w.toNat ≤ 3000) ∧ (∀ w, f.finaleTenths = some w → w.toNat ≤ 600)
      ∧ (∀ b, f.hostSilence = some b → b.toNat ≤ 30) ∧ silence < drop
    ∃ t, exec (.setTiming tag f) s = .next t
      ∧ (s.mch.phase ≠ .setup → s.refuses t 0x03 tag .wrongPhase)
      ∧ (s.mch.phase = .setup → ¬ sound → s.refuses t 0x03 tag .badValue)
      ∧ (s.mch.phase = .setup → sound →
          t.rcc = { s.rcc with pendingInterval := match f.interval with
            | some b => some b.toNat
            | none => s.rcc.pendingInterval }
          ∧ t.roster = { s.roster with silenceLimit := silence, dropLimit := drop }
          ∧ t.mch = { s.restartSilence.mch with
              durations := { opening := word s.mch.durations.opening f.openingTenths
                             transition := word s.mch.durations.transition f.transitionTenths
                             play := word s.mch.durations.play f.playTenths
                             finale := word s.mch.durations.finale f.finaleTenths }
              hostLimit := byte s.mch.hostLimit f.hostSilence }
          ∧ s.answers t [.rcc, .roster, .mch] 0x03 tag [] .ok (.timing
              { interval := t.rcc.pendingInterval.getD t.rcc.interval, silenceLimit := silence, dropLimit := drop,
                durations := t.mch.durations, hostLimit := t.mch.hostLimit }))

/-! ## The field table -/

/-- DEFINE-ELEMENT: the checks in the order of Table 1-2 after the coding check, and the record started afresh. The
element is due for its refresh poll at once, a goal or station has its lamp driven after that (this order is the model's,
assumption 30), and no other record changes. The transactions of an old definition are put away first: its entries are
discarded, their places go to marks of other elements, and what is in flight is orphaned. A discarded MOTION of the host's has
its notice, oldest first (assumption 30). A robot whose ACT waits for a MOTION of the element is answered FAILED with detail 6,
the MOTION in flight included, which R7 has so and for which the detail is the model's (assumption 31); a robot whose gate
travels, its MOTION completed, is given no answer (assumption 31). -/
def Obligations.DefineElementStartsTheRecord : Prop :=
  ∀ (s : State) (tag : Byte) (f : ElementFields), s.accepts = true →
    ∃ t, exec (.defineElement tag f) s = .next t
      ∧ (fieldsCoded f = false → s.refuses t 0x05 tag .badValue)
      ∧ (fieldsCoded f = true → s.mch.phase ≠ .setup → s.refuses t 0x05 tag .wrongPhase)
      ∧ (fieldsCoded f = true → s.mch.phase = .setup → recordOf f = none → s.refuses t 0x05 tag .badValue)
      ∧ ∀ i r, fieldsCoded f = true → s.mch.phase = .setup → recordOf f = some (i, r) →
          ((∃ j r', j ≠ i ∧ s.elem j = some r' ∧ r'.address = r.address) → s.refuses t 0x05 tag .addressInUse)
          ∧ ((∀ j r', j ≠ i → s.elem j = some r' → r'.address ≠ r.address) →
              s.elemsBut t i ∧ t.elem i = some r ∧ (t.sched i).due = some s.now ∧ (t.sched i).owed = true ∧ t.refreshAsked i
              ∧ (∀ p, r.part = .goal p → t.lampAsked i p.lit) ∧ (∀ p, r.part = .station p → t.lampAsked i p.lit)
              ∧ (let bus := if (s.elem i).isSome then s.busPutAway i else s.ebc
                 let fresh : State := { s with ebc := { bus with
                   sched := bus.sched.set i.val { Sched.clear with due := some s.now, owed := true } } }
                 t.ebc = ((fresh.askRefresh i).asksLamps (match r.part with
                   | .goal p => [(i, p.lit)]
                   | .station p => [(i, p.lit)]
                   | .gate _ | .carriage _ => [])).ebc)
              ∧ (s.elem i = none → s.answers t [.elems, .ebc] 0x05 tag [.element i (.defined r.part.kind)] .ok .empty)
              ∧ ((s.elem i).isSome → s.failsPutAway t i
                  ∧ s.answers t [.roster, .elems, .ebc] 0x05 tag
                      (s.discardNotices (·.isFor i) ++ [.element i (.defined r.part.kind)]) .ok .empty))

/-- What a DEFINE-ELEMENT asks for. Its enumeration and flag bytes must code a value, those its kind does not use left
unexamined; its settings must lie in their ranges, a CARRIAGE has no alliance, and an element that is not claimable has
no hold limit and no guard time; the record then carries the settings, in PROBING, with everything else at its initial
value. A poll period of 0 selects 100 ms. A gate's travel limit in tenths takes two bytes; the fill bonus takes one
(assumption 11). -/
def Obligations.DefinedRecordCarriesTheSettings : Prop :=
  (∀ f : ElementFields, f.kindPart.length = 9 →
    (fieldsCoded f = true ↔ f.alliance.toNat ≤ 4 ∧ f.faultHolds.toNat ≤ 1
      ∧ (f.kind = 0 → (f.kindPart.getD 0 0).toNat < 16 ∧ (f.kindPart.getD 4 0).toNat ≤ 2)
      ∧ (f.kind = 2 → (f.kindPart.getD 0 0).toNat < 16 ∧ (f.kindPart.getD 2 0).toNat ≤ 2)
      ∧ (f.kind = 3 → (f.kindPart.getD 8 0).toNat ≤ 1)))
  ∧ (∀ f : ElementFields, 3 < f.kind.toNat → recordOf f = none)
  ∧ ∀ (f : ElementFields) (k : Kind) (alliance : Option Alliance), f.kindPart.length = 9 → f.kind = k.code →
    f.alliance = allianceCode alliance → f.faultHolds.toNat ≤ 1 →
    let claims := k = .gate ∨ k = .station ∨ (k = .goal ∧ alliance = none)
    let common : Prop := f.index.toNat < 48 ∧ 1 ≤ f.address.toNat ∧ f.address.toNat ≤ 63
      ∧ (f.pollPeriod.toNat = 0 ∨ (2 ≤ f.pollPeriod.toNat ∧ f.pollPeriod.toNat ≤ 100))
      ∧ (k = .carriage → alliance = none) ∧ f.holdLimit.toNat ≤ 120 ∧ f.guardTime.toNat ≤ 30
      ∧ (¬ claims → f.holdLimit.toNat = 0 ∧ f.guardTime.toNat = 0)
    let record (part : KindPart) : ElementRecord :=
      { address := f.address, alliance := alliance, state := .probing, failures := 0, epoch := none, reading := none,
        pollPeriod := if f.pollPeriod.toNat = 0 then 100 else 10 * f.pollPeriod.toNat, faultHolds := f.faultHolds == 1,
        holdLimit := 10 * f.holdLimit.toNat, guardTime := 10 * f.guardTime.toNat, sticky := Sticky.clear,
        claim := ClaimPart.empty, part := part }
    (¬ common → recordOf f = none)
      ∧ (∀ i : Index, f.index.toNat = i.val → common →
          (∀ high low r2 r3 r4 r5 r6 r7 r8, k = .gate → f.kindPart = [high, low, r2, r3, r4, r5, r6, r7, r8] →
            let limit := 256 * high.toNat + low.toNat
            recordOf f = if 5 ≤ limit ∧ limit ≤ 50 then
              some (i, record (.gate { position := none, travelLimit := limit, motion := .idle })) else none)
          ∧ (∀ set quota points bonus lamp r5 r6 r7 r8 (mode : LampMode), k = .goal → set.toNat < 16 → lamp = mode.code →
              f.kindPart = [set, quota, points, bonus, lamp, r5, r6, r7, r8] →
              recordOf f = if points.toNat ≤ 100 then
                some (i, record (.goal
                  { phaseSet := set.setWidth 4, control := .auto, window := .closed, reopenWanted := false,
                    closingInMatch := false, windowNumber := 0, quota := quota.toNat, pendingQuota := none,
                    count := quota.toNat, filled := false, overrangeNoted := false, windowPieces := 0,
                    pointsPerPiece := points.toNat, fillBonus := bonus.toNat, lampMode := mode, lit := mode == .on,
                    lampResync := false, pieceTotal := 0, counted := 0, held := 0, idle := 0, unattributed := 0,
                    record := none })) else none)
          ∧ (∀ set points lamp r3 r4 r5 r6 r7 r8 (mode : LampMode), k = .station → set.toNat < 16 → lamp = mode.code →
              f.kindPart = [set, points, lamp, r3, r4, r5, r6, r7, r8] →
              recordOf f = if points.toNat ≤ 50 then
                some (i, record (.station
                  { phaseSet := set.setWidth 4, control := .auto, windowOpen := false, pointsPerSecond := points.toNat,
                    accrual := 0, presence := none, trespassEpisode := false, lampMode := mode, lit := mode == .on,
                    lampResync := false })) else none)
          ∧ (∀ (speeds : Vector Byte 8) (mode : EndMode), k = .carriage →
              f.kindPart = speeds.toList ++ [mode.code] →
              recordOf f = if ∀ z : Fin 8, speeds[z.val].toNat ≤ 100 then
                some (i, record (.carriage
                  { zoneSpeeds := speeds.map (·.toNat), endMode := mode, direction := .forward, runState := .stopped,
                    homing := false, speedZone := none, commanded := 0, speedResync := false })) else none))

/-- REMOVE-ELEMENT: its checks in the order in which its rule names them (assumption 15), and the record UNDEFINED with its
transactions and marks gone: the freed places go to marks of other elements, and what is in flight is orphaned. A discarded
MOTION of the host's has its notice, oldest first (assumption 30). A robot whose ACT waits for a MOTION of the element is
answered FAILED with detail 6, the MOTION in flight included, which R7 has so and for which the detail is the model's
(assumption 31); a robot whose gate travels, its MOTION completed, is given no answer (assumption 31). -/
def Obligations.RemoveElementUndefinesTheRecord : Prop :=
  ∀ (s : State) (tag index : Byte), s.accepts = true →
    ∃ t, exec (.removeElement tag index) s = .next t
      ∧ (s.mch.phase ≠ .setup → s.refuses t 0x06 tag .wrongPhase)
      ∧ (s.mch.phase = .setup → 48 ≤ index.toNat → s.refuses t 0x06 tag .badValue)
      ∧ ∀ i : Index, s.mch.phase = .setup → index.toNat = i.val →
          (s.elem i = none → s.refuses t 0x06 tag .noSuchElement)
          ∧ ((s.elem i).isSome → s.elemsBut t i ∧ t.elem i = none ∧ t.sched i = Sched.clear
              ∧ t.ebc.queue.any (·.isFor i) = false
              ∧ t.ebc = { s.busPutAway i with sched := (s.busPutAway i).sched.set i.val Sched.clear } ∧ s.failsPutAway t i
              ∧ s.answers t [.roster, .elems, .ebc] 0x06 tag (s.discardNotices (·.isFor i) ++ [.element i .removed]) .ok .empty)

/-- READ-ELEMENT, after its two checks, answers the record as it stood and clears its five read flags, all but INCOMPLETE (R17).
READ-ROBOT answers the record, the claim picture and the grant as they stand (R65). The picture lists what the robot holds in
ascending order, and what it waits on with its position counted from 1 (R20). READ-MATCH shows every block's fields as they
stand as the request is taken and changes none of them (R192). -/
def Obligations.ReadsShowTheState : Prop :=
  (∀ (s : State) (tag index : Byte), s.accepts = true →
    ∃ t, exec (.readElement tag index) s = .next t
      ∧ (48 ≤ index.toNat → s.refuses t 0x18 tag .badValue)
      ∧ ∀ i : Index, index.toNat = i.val → match s.elem i with
        | none => s.refuses t 0x18 tag .noSuchElement
        | some r => s.elemsBut t i
          ∧ t.elem i = some { r with sticky := { restarted := false, trespass := false, overrange := false,
                                                 recordFresh := false, overwritten := false, incomplete := r.sticky.incomplete } }
          ∧ s.answers t [.elems] 0x18 tag [] .ok (.element i r))
  ∧ (∀ (s : State) (tag slot : Byte), s.accepts = true →
    ∃ t, exec (.readRobot tag slot) s = .next t
      ∧ (24 ≤ slot.toNat → s.refuses t 0x19 tag .badValue)
      ∧ ∀ k : Slot, slot.toNat = k.val →
          s.answers t [] 0x19 tag [] .ok (.robot k (s.robot k) (s.picture k) (s.runs k))
          ∧ (s.picture k).held.Pairwise (· < ·) ∧ (∀ i, i ∈ (s.picture k).held ↔ s.holder i = some k)
          ∧ (∀ i n, (s.picture k).waited = some (i, n) → 1 ≤ n ∧ (s.waiters i)[n - 1]? = some k)
          ∧ ((s.picture k).waited = none ↔ ∀ i, k ∉ s.waiters i))
  ∧ ∀ (s : State) (tag : Byte), s.accepts = true →
    ∃ t v, exec (.readMatch tag) s = .next t ∧ s.answers t [] 0x1A tag [] .ok (.matchView v)
      ∧ v.cycle = s.rcc.cycle ∧ v.interval = s.rcc.interval ∧ v.pendingInterval = s.rcc.pendingInterval
      ∧ v.safety = s.ebc.queue.countP (fun e => e.cls == .safety) ∧ v.control = s.ebc.queue.countP (fun e => e.cls == .control)
      ∧ v.refresh = s.ebc.queue.countP (fun e => e.cls == .refresh)
      ∧ v.cosmetic = s.ebc.queue.countP (fun e => e.cls == .cosmetic)
      ∧ v.pollDueMarks = s.ebc.sched.toList.countP Sched.pollDue ∧ v.closingMarks = s.ebc.sched.toList.countP Sched.closingWanted
      ∧ v.lampMarks = s.ebc.sched.toList.countP Sched.lampSync ∧ v.carriageMarks = s.ebc.sched.toList.countP Sched.carriageSync
      ∧ v.inFlight = s.ebc.inFlight.map (fun f => { op := f.entry.op, element := f.entry.element, orphaned := f.orphaned })
      ∧ v.phase = s.mch.phase ∧ v.remaining = s.mch.remaining ∧ v.matchTime = s.mch.matchTime
      ∧ v.durations = s.mch.durations ∧ v.hostLimit = s.mch.hostLimit ∧ v.stack = s.mch.stack
      ∧ v.pendingSet = s.mch.pendingSet ∧ v.filtered = s.mch.filtered ∧ v.haltOut = s.haltOut
      ∧ v.silenceRunning = s.restartSilence.silenceRunning ∧ v.silenceElapsed = s.restartSilence.mch.silenceElapsed
      ∧ v.totals = s.tu.totals
      ∧ v.image = s.tu.image.map (fun m =>
          { number := m.number, isFinal := m.isFinal, phase := m.phase, matchTime := m.matchTime })
      ∧ v.sending = s.tu.sending ∧ v.finalWait = s.tu.finalWait.map List.length
      ∧ v.mask = s.hlp.mask ∧ v.replies = s.hlp.replies ∧ v.notices = s.hlp.notices ∧ v.lost = s.hlp.lost
      ∧ v.cause = s.hlp.cause

/-! ## The roster -/

/-- ASSIGN-ROBOT: its checks in order (the coding of the alliance byte first, assumption 15), and the slot ASSIGNED with
every other field at its value after reset. UNASSIGN-ROBOT: its checks in the order in which its rule names them (assumption 15),
and the slot VACANT with every field at
its value after reset. -/
def Obligations.AssignAndUnassignRobot : Prop :=
  (∀ (s : State) (tag slot : Byte) (team : Half) (alliance : Byte), s.accepts = true →
    ∃ t, exec (.assignRobot tag slot team alliance) s = .next t
      ∧ (4 < alliance.toNat → s.refuses t 0x07 tag .badValue)
      ∧ (alliance.toNat ≤ 4 → s.mch.phase ≠ .setup → s.mch.phase ≠ .staged → s.refuses t 0x07 tag .wrongPhase)
      ∧ (s.mch.phase = .setup ∨ s.mch.phase = .staged →
          (24 ≤ slot.toNat ∨ alliance.toNat = 0 ∨ team = 0 → s.refuses t 0x07 tag .badValue)
          ∧ ∀ (k : Slot) (side : Alliance), slot.toNat = k.val → alliance = side.code → team ≠ 0 →
              ((∃ j, j ≠ k ∧ (s.robot j).state ≠ .vacant ∧ (s.robot j).team = some team) → s.refuses t 0x07 tag .teamInUse)
              ∧ ((∀ j, j ≠ k → (s.robot j).state ≠ .vacant → (s.robot j).team ≠ some team) →
                  if (s.robot k).state = .vacant then
                    s.robotsBut t k
                      ∧ t.robot k =
                        { state := .assigned, team := some team, alliance := some side, robotId := none, kitRevision := none,
                          silent := false, unheard := 0, bench := none, signals := 0, ejectedMark := false,
                          openRequest := none }
                      ∧ s.answers t [.roster] 0x07 tag [] .ok .empty
                  else s.refuses t 0x07 tag .busy)))
  ∧ ∀ (s : State) (tag slot : Byte), s.accepts = true →
    ∃ t, exec (.unassignRobot tag slot) s = .next t
      ∧ (s.mch.phase ≠ .setup → s.mch.phase ≠ .staged → s.refuses t 0x08 tag .wrongPhase)
      ∧ (s.mch.phase = .setup ∨ s.mch.phase = .staged →
          (24 ≤ slot.toNat → s.refuses t 0x08 tag .badValue)
          ∧ ∀ k : Slot, slot.toNat = k.val →
              if (s.robot k).state = .vacant then s.refuses t 0x08 tag .noSuchRobot
              else s.robotsBut t k ∧ t.robot k = RobotRecord.vacant ∧ s.answers t [.roster] 0x08 tag [] .ok .empty)

/-- BENCH and EJECT check in the order in which their rules name the refusals (assumption 15). BENCH: an ACTIVE robot is
vacated from every element and benched, a BENCHED one has its bench remaining replaced. EJECT: an ACTIVE robot is vacated and
ejected, a BENCHED one ejected, and the ejected mark is set. A station whose lit state a vacating changes has its lamp driven.
-/
def Obligations.BenchAndEjectVacate : Prop :=
  (∀ (s : State) (tag slot seconds : Byte), s.accepts = true → s.claimsSound →
    ∃ t, exec (.bench tag slot seconds) s = .next t
      ∧ (s.mch.phase.inMatch = false → s.refuses t 0x0F tag .wrongPhase)
      ∧ (s.mch.phase.inMatch = true →
          (24 ≤ slot.toNat ∨ seconds.toNat = 0 ∨ 120 < seconds.toNat → s.refuses t 0x0F tag .badValue)
          ∧ ∀ k : Slot, slot.toNat = k.val → 1 ≤ seconds.toNat → seconds.toNat ≤ 120 →
              let benched := { s.robot k with state := .benched, bench := some (10 * seconds.toNat) }
              if (s.robot k).state = .vacant then s.refuses t 0x0F tag .noSuchRobot
              else if (s.robot k).state = .active then
                s.robotsBut t k ∧ t.robot k = benched ∧ (∀ i, t.elem i = (s.elem i).map (·.withoutRobot k))
                  ∧ t.ebc = (s.asksLamps (s.lampChanges t)).ebc
                  ∧ s.answers t [.roster, .elems, .ebc] 0x0F tag
                      (s.vacateNotices k .bench ++ [.robot k (.benched (10 * seconds.toNat))]) .ok .empty
              else if (s.robot k).state = .benched then
                s.robotsBut t k ∧ t.robot k = benched
                  ∧ s.answers t [.roster] 0x0F tag [.robot k (.benched (10 * seconds.toNat))] .ok .empty
              else s.refuses t 0x0F tag .notReady))
  ∧ ∀ (s : State) (tag slot : Byte), s.accepts = true → s.claimsSound →
    ∃ t, exec (.eject tag slot) s = .next t
      ∧ (s.mch.phase.inMatch = false → s.refuses t 0x11 tag .wrongPhase)
      ∧ (s.mch.phase.inMatch = true →
          (24 ≤ slot.toNat → s.refuses t 0x11 tag .badValue)
          ∧ ∀ k : Slot, slot.toNat = k.val →
              let ejected := { s.robot k with state := .ejected, bench := none, ejectedMark := true }
              if (s.robot k).state = .vacant then s.refuses t 0x11 tag .noSuchRobot
              else if (s.robot k).state = .active then
                s.robotsBut t k ∧ t.robot k = ejected ∧ (∀ i, t.elem i = (s.elem i).map (·.withoutRobot k))
                  ∧ t.ebc = (s.asksLamps (s.lampChanges t)).ebc
                  ∧ s.answers t [.roster, .elems, .ebc] 0x11 tag
                      (s.vacateNotices k .eject ++ [.robot k (.ejected .active)]) .ok .empty
              else if (s.robot k).state = .benched then
                s.robotsBut t k ∧ t.robot k = ejected ∧ s.answers t [.roster] 0x11 tag [.robot k (.ejected .benched)] .ok .empty
              else s.refuses t 0x11 tag .notReady)

/-- A BENCHED robot returns to ACTIVE by REINSTATE, whose checks come in the order in which its rule names them (assumption
15), and, while match time runs, with the tenth that brings its bench remaining to 0. -/
def Obligations.BenchedRobotReturns : Prop :=
  (∀ (s : State) (tag slot : Byte), s.accepts = true →
    ∃ t, exec (.reinstate tag slot) s = .next t
      ∧ (s.mch.phase.inMatch = false → s.refuses t 0x10 tag .wrongPhase)
      ∧ (s.mch.phase.inMatch = true →
          (24 ≤ slot.toNat → s.refuses t 0x10 tag .badValue)
          ∧ ∀ k : Slot, slot.toNat = k.val →
              if (s.robot k).state = .vacant then s.refuses t 0x10 tag .noSuchRobot
              else if (s.robot k).state = .benched then
                s.robotsBut t k ∧ t.robot k = { s.robot k with state := .active, bench := none }
                  ∧ s.answers t [.roster] 0x10 tag [.robot k .reinstated] .ok .empty
              else s.refuses t 0x10 tag .notReady))
  ∧ ∀ (s : State) (k : Slot) (n : Nat), s.matchRuns = true → (s.robot k).state = .benched → (s.robot k).bench = some n → n ≤ 1 →
      ∃ t, exec (.benchEnded k) s = .next t ∧ s.onlyChanges t [.hlp, .roster] ∧ s.robotsBut t k
        ∧ t.robot k = { s.robot k with state := .active, bench := none } ∧ t.hlp = s.hlp.raise (.robot k .benchEnded)

/-- SIGNAL sets the flags of its set mask and then clears those of its clear mask, in every phase and for every robot
that is not VACANT; the reply carries the flags, no notice is raised, and a linked robot's next beacon entry carries
them. ACK-SIGNAL clears the flags of its mask for a linked robot in every state and phase; it is answered ACKED with the
flags that then stand, and its notice carries the flags it cleared. A SIGNAL that names a flag after the acknowledgement
sets it again, and one that came before it leaves it clear. -/
def Obligations.SignalsAreSetAndAcknowledged : Prop :=
  (∀ (s : State) (tag slot setMask clearMask : Byte), s.accepts = true →
    ∃ t, exec (.signal tag slot setMask clearMask) s = .next t
      ∧ (24 ≤ slot.toNat → s.refuses t 0x12 tag .badValue)
      ∧ ∀ k : Slot, slot.toNat = k.val →
          if (s.robot k).state = .vacant then s.refuses t 0x12 tag .noSuchRobot
          else s.robotsBut t k ∧ t.robot k = { s.robot k with signals := (t.robot k).signals }
            ∧ (∀ j : Nat, j < 8 → (t.robot k).signals.getLsbD j
                = (((s.robot k).signals.getLsbD j || setMask.getLsbD j) && !clearMask.getLsbD j))
            ∧ s.answers t [.roster] 0x12 tag [] .ok (.signals (t.robot k).signals)
            ∧ ((s.robot k).state.isLinked = true → (t.slotEntry k).signals = (t.robot k).signals))
  ∧ (∀ (s : State) (k : Slot) (number : BitVec 4) (mask : Byte), s.executes k number = true →
    ∃ t, exec (.ackSignal k number mask) s = .next t ∧ s.onlyChanges t [.hlp, .roster] ∧ s.robotsBut t k
      ∧ (∀ j : Nat, j < 8 → (t.robot k).signals.getLsbD j = ((s.robot k).signals.getLsbD j && !mask.getLsbD j))
      ∧ t.robot k = { s.robot k with
          signals := (t.robot k).signals
          openRequest := some (answeredRequest number .ackSignal none .acked (some (t.robot k).signals.toNat)) }
      ∧ t.hlp = s.hlp.raise (.robot k (.signalAcknowledged ((s.robot k).signals &&& mask))))
  ∧ ∀ (s t u : State) (k : Slot) (number : BitVec 4) (tag flag : Byte), s.accepts = true → s.executes k number = true →
      (exec (.signal tag (slotByte k) flag 0) s = .next t → exec (.ackSignal k number flag) t = .next u →
        (u.robot k).signals &&& flag = 0)
      ∧ (exec (.ackSignal k number flag) s = .next t → t.accepts = true → exec (.signal tag (slotByte k) flag 0) t = .next u →
        (u.robot k).signals &&& flag = flag)

/-! ## The radio cycle -/

/-- CYCLE_START: the pending interval becomes the interval, the cycle number rises by one (the first cycle after a reset
keeps 0, assumption 20), nothing is taken yet, every linked robot's cycles unheard rise up to 255, and those that have
reached a limit fall silent or are dropped. A dropped ACTIVE robot is vacated first, in the state that the drops of lower
slots have left (the order of the slots is the model's choice, assumption 30), and a station whose lit state that changes has
its lamp driven. Then the beacon is built, with the join answer moved into it, and handed to the radio module with the
windows of Table 4-1 (the latch that shows what was handed over: assumption 9; the bits of the beacon that no table defines are
0: assumption 33). -/
def Obligations.CycleStartCountsAndSendsTheBeacon : Prop :=
  ∀ s : State, ∃ t b, exec .cycleStart s = .next t ∧ s.onlyChanges t [.hlp, .rcc, .roster, .elems, .ebc]
    ∧ (let interval := s.rcc.pendingInterval.getD s.rcc.interval
       t.rcc = { cycle := if s.rcc.firstCycle then s.rcc.cycle else s.rcc.cycle + 1, interval := interval,
                 pendingInterval := none, beacon := some b, joinAnswer := none, takenSlots := Vector.replicate 24 false,
                 takenJoin := false, firstCycle := false, elapsed := 0,
                 radioTx := some { frame := b.bytes
                                   windows := ⟨.beacon, 0, 50⟩ :: (slots.map fun k =>
                                     ⟨.reply k, 50 + 25 * k.val, 75 + 25 * k.val⟩)
                                     ++ [⟨.join, 650, 700⟩, ⟨.quiet, 700, 20 * interval⟩] } })
    ∧ b = { cycle := t.rcc.cycle, phase := s.mch.phase, holdFlag := s.held, stopFlag := s.mch.filtered,
            remaining := s.mch.remaining, joinAnswer := s.rcc.joinAnswer
            slots := slots.map fun k =>
              if (t.robot k).state.isLinked then
                { run := t.runs k, request := (t.robot k).openRequest, picture := t.picture k, signals := (t.robot k).signals }
              else { run := false, request := none, picture := { held := [], waited := none }, signals := 0 } }
    ∧ t.roster.silenceLimit = s.roster.silenceLimit ∧ t.roster.dropLimit = s.roster.dropLimit
    ∧ (∀ k, t.robot k =
        let r := s.robot k
        let heard := min 255 (r.unheard + 1)
        if r.state.isLinked then
          if s.roster.dropLimit ≤ heard then
            { r with openRequest := none, bench := none, state := .assigned, silent := false, unheard := 0 }
          else { r with unheard := heard, silent := r.silent || decide (s.roster.silenceLimit ≤ heard) }
        else r)
    ∧ (s.claimsSound →
        let heard (k : Slot) : Nat := min 255 ((s.robot k).unheard + 1)
        let drops (k : Slot) : Bool := (s.robot k).state.isLinked && decide (s.roster.dropLimit ≤ heard k)
        let gone : List Slot := slots.filter fun k => drops k && (s.robot k).state == .active
        let before (k : Slot) : State := s.withoutRobots (gone.filter (· < k))
        (∀ i, t.elem i = (s.elem i).map (·.withoutRobots gone))
        ∧ t.ebc = (s.asksLamps (gone.flatMap fun k => (before k).lampChanges ((before k).withoutRobots [k]))).ebc
        ∧ t.hlp = s.hlp.raiseAll (slots.flatMap fun k =>
            (if (s.robot k).state.isLinked = true ∧ (s.robot k).silent = false ∧ s.roster.silenceLimit ≤ heard k then
              [.robot k (.silent (heard k))] else [])
            ++ (if k ∈ gone then (before k).vacateNotices k .drop else [])
            ++ if drops k then [.robot k (.dropped (s.robot k).state)] else []))

/-- ROBOT_SILENT and DROP alone (assumption 3): with one cycle to go at most, a linked robot falls silent and keeps
everything else, or is dropped; a dropped ACTIVE robot is vacated first. -/
def Obligations.SilenceAndDrop : Prop :=
  (∀ (s : State) (k : Slot), (s.robot k).state.isLinked = true → (s.robot k).silent = false →
    s.roster.silenceLimit ≤ (s.robot k).unheard + 1 →
    ∃ t, exec (.robotSilent k) s = .next t ∧ s.onlyChanges t [.hlp, .roster] ∧ s.robotsBut t k
      ∧ t.robot k = { s.robot k with silent := true, unheard := max (s.robot k).unheard s.roster.silenceLimit }
      ∧ t.hlp = s.hlp.raise (.robot k (.silent (max (s.robot k).unheard s.roster.silenceLimit))))
  ∧ ∀ (s : State) (k : Slot), s.claimsSound → (s.robot k).state.isLinked = true → s.roster.dropLimit ≤ (s.robot k).unheard + 1 →
    ∃ t, exec (.drop k) s = .next t ∧ s.robotsBut t k
      ∧ t.robot k = { s.robot k with openRequest := none, bench := none, state := .assigned, silent := false, unheard := 0 }
      ∧ (if (s.robot k).state = .active then
          s.onlyChanges t [.hlp, .roster, .elems, .ebc] ∧ (∀ i, t.elem i = (s.elem i).map (·.withoutRobot k))
            ∧ t.ebc = (s.asksLamps (s.lampChanges t)).ebc
            ∧ t.hlp = s.hlp.raiseAll (s.vacateNotices k .drop ++ [.robot k (.dropped .active)])
        else s.onlyChanges t [.hlp, .roster] ∧ t.hlp = s.hlp.raise (.robot k (.dropped (s.robot k).state)))

/-- A sound slot frame is taken in the reply slot of a linked robot whose bound robot id it carries, once in a cycle: the
robot is heard and its ready flag applied, and a request with a number other than 0 then runs as the request's own
command. Every other slot frame changes nothing. The operation table's rows SLOT_FRAME and JOIN both stand for a
delivered frame. Of the flags byte bit 0 alone counts: that the others are not looked at is the model's choice (assumption
28). -/
def Obligations.SlotFrameIsTakenOnce : Prop :=
  (∀ window frame s, exec (.join window frame) s = exec (.slotFrame window frame) s)
  ∧ (∀ (s : State) (window : Window) (bytes crc : List Byte), crc.length = 2 → crc ≠ halfBytes (radioCrc bytes) →
      exec (.slotFrame window (bytes ++ crc)) s = .next s)
  ∧ (∀ (s : State) (window : Window) (bytes : List Byte), ¬ (bytes.length = 7 ∧ bytes.head? = some 1) →
      ¬ (bytes.length = 6 ∧ bytes.head? = some 2) → exec (.slotFrame window (bytes ++ halfBytes (radioCrc bytes))) s = .next s)
  ∧ ∀ (s : State) (k : Slot) (hi lo flags numberKind element operand : Byte),
      let frame (head : List Byte) : List Byte := head ++ halfBytes (radioCrc head)
      let bytes := frame [0x01, hi, lo, flags, numberKind, element, operand]
      let keepAlive := frame [0x01, hi, lo, flags, 0, element, operand]
      let number := numberKind.extractLsb' 4 4
      let kind := numberKind.extractLsb' 0 4
      let accepted := s.slotTaken k = false ∧ (s.robot k).state.isLinked = true ∧ (s.robot k).robotId = some (hi ++ lo)
      (∀ window, (∀ j, window ≠ .reply j) → exec (.slotFrame window bytes) s = .next s)
      ∧ (¬ accepted → exec (.slotFrame (.reply k) bytes) s = .next s)
      ∧ (number ≠ 0 → (kind = 0 ∨ 5 < kind.toNat ∨ (kind = 4 ∧ operand ≠ 1 ∧ operand ≠ 2)) →
          exec (.slotFrame (.reply k) bytes) s = .next s)
      ∧ (accepted → number = 0 → ∃ t, exec (.slotFrame (.reply k) bytes) s = .next t
          ∧ s.onlyChanges t [.hlp, .rcc, .roster] ∧ s.robotsBut t k
          ∧ t.rcc = { s.rcc with takenSlots := s.rcc.takenSlots.set k.val true }
          ∧ (let heard : List Notice := if (s.robot k).silent then [.robot k .heard] else []
             let r := { s.robot k with unheard := 0, silent := false }
             match (s.robot k).state, flags.getLsbD 0, s.mch.phase.inMatch, (s.robot k).ejectedMark with
             | .linked, true, false, _ => t.robot k = { r with state := .ready } ∧ t.hlp = s.hlp.raiseAll (heard ++ [.robot k .ready])
             | .linked, true, true, false =>
               t.robot k = { r with state := .active } ∧ t.hlp = s.hlp.raiseAll (heard ++ [.robot k .lateArrival])
             | .ready, false, _, _ => t.robot k = { r with state := .linked } ∧ t.hlp = s.hlp.raiseAll (heard ++ [.robot k .notReady])
             | _, _, _, _ => t.robot k = r ∧ t.hlp = s.hlp.raiseAll heard))
      ∧ (accepted → number ≠ 0 → ∀ t, exec (.slotFrame (.reply k) keepAlive) s = .next t →
          (kind = 1 → exec (.slotFrame (.reply k) bytes) s = exec (.claim k number element) t)
          ∧ (kind = 2 → exec (.slotFrame (.reply k) bytes) s = exec (.release k number element) t)
          ∧ (kind = 3 → exec (.slotFrame (.reply k) bytes) s = exec (.cancel k number) t)
          ∧ (kind = 4 → operand = 1 → exec (.slotFrame (.reply k) bytes) s = exec (.act k number element .opening) t)
          ∧ (kind = 4 → operand = 2 → exec (.slotFrame (.reply k) bytes) s = exec (.act k number element .closing) t)
          ∧ (kind = 5 → exec (.slotFrame (.reply k) bytes) s = exec (.ackSignal k number operand) t))

/-- JOIN in the join slot, once in a cycle: an unknown team is answered so; a team with another robot id bound is
answered TEAM_TAKEN; otherwise the robot is joined, an ASSIGNED one becoming LINKED, a linked one rejoining with its open
request absent. The answer waits for the next beacon. -/
def Obligations.JoinBindsARobot : Prop :=
  ∀ (s : State) (team robotId : Half) (kit : Byte),
    let head := 0x02#8 :: (halfBytes team ++ halfBytes robotId ++ [kit])
    let frame := head ++ halfBytes (radioCrc head)
    (∀ window, window ≠ .join → exec (.join window frame) s = .next s)
    ∧ (s.rcc.takenJoin = true → exec (.join .join frame) s = .next s)
    ∧ (s.rcc.takenJoin = false → ∃ t result, exec (.join .join frame) s = .next t
        ∧ t.rcc = { s.rcc with takenJoin := true, joinAnswer := some { robotId := robotId, result := result } }
        ∧ ((∀ k, (s.robot k).state ≠ .vacant → (s.robot k).team ≠ some team) →
            s.onlyChanges t [.rcc] ∧ result = .unknownTeam)
        ∧ ∀ k, (s.robot k).state ≠ .vacant → (s.robot k).team = some team →
            (∀ j, j ≠ k → (s.robot j).state ≠ .vacant → (s.robot j).team ≠ some team) →
            let r := s.robot k
            (∀ bound, r.robotId = some bound → bound ≠ robotId → s.onlyChanges t [.hlp, .rcc] ∧ result = .teamTaken
              ∧ t.hlp = s.hlp.raise (.robot k (.duplicateTeam bound robotId)))
            ∧ (r.robotId = some robotId → r.state.isLinked = true →
                s.onlyChanges t [.hlp, .rcc, .roster] ∧ s.robotsBut t k ∧ result = .joined k
                ∧ t.robot k = { r with kitRevision := some kit, openRequest := none }
                ∧ t.hlp = s.hlp.raise (.robot k (.rejoined robotId kit r.state)))
            ∧ ((r.robotId = some robotId ∧ r.state.isLinked = false) ∨ r.robotId = none →
                s.onlyChanges t [.hlp, .rcc, .roster] ∧ s.robotsBut t k ∧ result = .joined k
                ∧ t.robot k = { r with robotId := some robotId, kitRevision := some kit, state := .linked, unheard := 0,
                                       silent := false }
                ∧ t.hlp = s.hlp.raise (.robot k (.joined robotId kit))))

/-! ## Claims -/

/-- A robot request with the number 0, from a robot that is not linked, or that repeats the open one or comes before its
answer hands nothing on (assumption 5). -/
def Obligations.RequestsThatAreNotNewChangeNothing : Prop :=
  ∀ (s : State) (k : Slot) (number : BitVec 4),
    (number = 0 ∨ (s.robot k).state.isLinked = false
      ∨ ∃ o, (s.robot k).openRequest = some o ∧ (o.answered = false ∨ o.number = number)) →
    (∀ element, exec (.claim k number element) s = .next s ∧ exec (.release k number element) s = .next s
      ∧ ∀ setpoint, exec (.act k number element setpoint) s = .next s)
    ∧ exec (.cancel k number) s = .next s ∧ ∀ mask, exec (.ackSignal k number mask) s = .next s

/-- CLAIM up to its relation checks (Tables 2-3 and 2-4): the first check that fails gives the answer, and nothing but
the open request changes. -/
def Obligations.ClaimAnswersTheFirstFailedCheck : Prop :=
  ∀ (s : State) (k : Slot) (number : BitVec 4) (element : Byte), s.executes k number = true →
    ∃ t, exec (.claim k number element) s = .next t ∧
      let answered (code : Answer) (detail : Option Nat) : Prop := s.answersRobot t k number .claim (some element) code detail
      if s.mch.phase.inMatch = false then answered .notNow none
      else if (s.robot k).state = .benched then answered .benched none
      else if (s.robot k).state ≠ .active then answered .notNow none
      else (48 ≤ element.toNat → answered .noElement none) ∧ ∀ i : Index, element.toNat = i.val →
        match s.elem i with
        | none => answered .noElement none
        | some r =>
          if r.part.kind = .carriage ∨ (r.part.kind = .goal ∧ r.alliance ≠ none) then answered .notClaimable none
          else if r.claim.holder = some k then answered .alreadyHolder none
          else if k ∈ r.claim.waiting then answered .alreadyWaiting (some (r.claim.waiting.idxOf k + 1))
          else if r.state ≠ .probing ∧ r.state ≠ .online then answered .elementFault none
          else if r.alliance ≠ none ∧ r.alliance ≠ (s.robot k).alliance then answered .notYours none
          else ∀ g, r.claim.guardRecord = some g → g.slot = k → answered .guarded (some g.remaining)

/-- CLAIM on a free element that passes its checks: TOO_MANY for a robot that holds 2 elements, otherwise GRANTED. A
grant that brings the robot to 2 takes it off the list it waits on, and its answer and notice name that element. CLAIM on
an element that has a holder and passes its checks: TOO_MANY for a robot that waits already or holds 2 elements,
LIST_FULL with 4 waiters, otherwise QUEUED at the tail with the position. A grant drives the lamp of a station whose lit state
changes, and nothing else of the bus changes. -/
def Obligations.ClaimGrantsOrQueues : Prop :=
  (∀ (s : State) (k : Slot) (number : BitVec 4) (element : Byte) (i : Index) (r : ElementRecord),
    s.executes k number = true → element.toNat = i.val → s.claimChecked k i r → r.claim.holder = none →
    ∃ t, exec (.claim k number element) s = .next t ∧
      if 2 ≤ (s.heldBy k).length then s.answersRobot t k number .claim (some element) .tooMany none
      else ∃ withdrawn : Option Index, withdrawn = (if (s.heldBy k).length = 1 then s.waitsOn k else none)
        ∧ s.onlyChanges t [.hlp, .roster, .elems, .ebc] ∧ s.robotsBut t k
        ∧ t.robot k = { s.robot k with openRequest := some (answeredRequest number .claim (some element) .granted
            (withdrawn.map Fin.val)) }
        ∧ t.elem i = some { r with claim := { r.claim with holder := some k, heldFor := 0 }, part := r.part.holderSeen true }
        ∧ (∀ j, j ≠ i → t.elem j = if withdrawn = some j then
            (s.elem j).map fun q => { q with claim := { q.claim with waiting := q.claim.waiting.erase k } } else s.elem j)
        ∧ t.hlp = s.hlp.raise (.claim (.granted i k withdrawn))
        ∧ t.ebc = (s.asksLamps (s.lampChanges t)).ebc
        ∧ (∀ p, r.part = .station p → p.lampMode = .auto → p.lit = false → t.lampAsked i true)
        ∧ ((∀ p, r.part ≠ .station p) → t.ebc = s.ebc))
  ∧ ∀ (s : State) (k : Slot) (number : BitVec 4) (element : Byte) (i : Index) (r : ElementRecord),
    s.executes k number = true → element.toNat = i.val → s.claimChecked k i r → r.claim.holder ≠ none →
    ∃ t, exec (.claim k number element) s = .next t ∧
      let answered (code : Answer) (detail : Option Nat) : Prop := s.answersRobot t k number .claim (some element) code detail
      ((∃ j, k ∈ s.waiters j) → answered .tooMany none)
      ∧ ((∀ j, k ∉ s.waiters j) →
          if 2 ≤ (s.heldBy k).length then answered .tooMany none
          else if 4 ≤ r.claim.waiting.length then answered .listFull none
          else s.onlyChanges t [.roster, .elems] ∧ s.robotsBut t k ∧ s.elemsBut t i
            ∧ t.robot k = { s.robot k with openRequest := some (answeredRequest number .claim (some element) .queued
                (some (r.claim.waiting.length + 1))) }
            ∧ t.elem i = some { r with claim := { r.claim with waiting := r.claim.waiting ++ [k] } })

/-- RELEASE: NOT_NOW outside OPENING to FINALE, NO_ELEMENT, NOT_HOLDER (in this order, the one in which the rule names them,
assumption 15), or RELEASED: the element passes to the robot that has waited longest, or becomes free, and a station is told of
the change of its holder: its lamp is driven when its lit state changes. CANCEL: NOT_NOW in SETUP, STAGED and ENDED; in OPENING
to FINALE a robot that waits on an element is removed from its list, the robots behind it move up and the answer is CANCELLED
with the element's index, and a robot that waits nowhere is answered NOT_WAITING. No notice is raised. -/
def Obligations.ReleaseAndCancel : Prop :=
  (∀ (s : State) (k : Slot) (number : BitVec 4) (element : Byte), s.executes k number = true →
    ∃ t, exec (.release k number element) s = .next t ∧
      let answered (code : Answer) (detail : Option Nat) : Prop := s.answersRobot t k number .release (some element) code detail
      if s.mch.phase.inMatch = false then answered .notNow none
      else (48 ≤ element.toNat → answered .noElement none) ∧ ∀ i : Index, element.toNat = i.val →
        match s.elem i with
        | none => answered .noElement none
        | some r =>
          if r.claim.holder = some k then
            s.onlyChanges t [.hlp, .roster, .elems, .ebc] ∧ s.robotsBut t k ∧ s.elemsBut t i
            ∧ t.robot k = { s.robot k with openRequest := some (answeredRequest number .release (some element) .released none) }
            ∧ t.elem i = some { r with
                claim := { r.claim with holder := r.claim.waiting.head?, heldFor := 0, waiting := r.claim.waiting.tail }
                part := r.part.holderSeen (!r.claim.waiting.isEmpty) }
            ∧ t.hlp = s.hlp.raiseAll (departureNotices i r.claim (.released i k))
            ∧ t.ebc = (s.asksLamps (s.lampChanges t)).ebc
            ∧ (∀ p, r.part = .station p → p.lampMode = .auto → p.lit = r.claim.waiting.isEmpty → t.lampAsked i (!p.lit))
            ∧ ((∀ p, r.part ≠ .station p) → t.ebc = s.ebc)
          else answered .notHolder none)
  ∧ ∀ (s : State) (k : Slot) (number : BitVec 4), s.executes k number = true → s.robotClaimsSound k →
    ∃ t, exec (.cancel k number) s = .next t ∧
      let answered (code : Answer) (detail : Option Nat) : Prop := s.answersRobot t k number .cancel none code detail
      if s.mch.phase.inMatch = false then answered .notNow none
      else ((∀ i, k ∉ s.waiters i) → answered .notWaiting none)
        ∧ ∀ i, k ∈ s.waiters i →
            s.onlyChanges t [.roster, .elems] ∧ s.robotsBut t k ∧ s.elemsBut t i
            ∧ t.robot k = { s.robot k with
                openRequest := some (answeredRequest number .cancel none .cancelled (some i.val)) }
            ∧ t.elem i = (s.elem i).map fun r => { r with claim := { r.claim with waiting := r.claim.waiting.erase k } }

/-- CLAIM_EXPIRY and GUARD_RUN_OUT alone (assumption 3), while match time runs: the tenth that brings held-for to the
hold limit sets the guard record when the guard time is not 0 and passes the element on; the tenth that brings a guard's
remaining to 0 removes the guard record and nothing else. -/
def Obligations.ExpiryGuardsAndPassesOn : Prop :=
  (∀ (s : State) (i : Index) (r : ElementRecord) (k : Slot), s.matchRuns = true → s.elem i = some r → r.claim.holder = some k →
    r.holdLimit ≠ 0 → r.holdLimit ≤ r.claim.heldFor + 1 →
    ∃ t, exec (.claimExpiry i) s = .next t ∧ s.onlyChanges t [.hlp, .elems, .ebc] ∧ s.elemsBut t i
      ∧ t.elem i = some { r with
          claim := { holder := r.claim.waiting.head?, heldFor := 0, waiting := r.claim.waiting.tail,
                     guardRecord := if r.guardTime = 0 then r.claim.guardRecord
                       else some { slot := k, remaining := r.guardTime } }
          part := r.part.holderSeen (!r.claim.waiting.isEmpty) }
      ∧ t.ebc = (s.asksLamps (s.lampChanges t)).ebc
      ∧ t.hlp = s.hlp.raiseAll (departureNotices i r.claim (.expired i k r.guardTime)))
  ∧ ∀ (s : State) (i : Index) (r : ElementRecord) (g : Guard), s.matchRuns = true → s.elem i = some r →
      r.claim.guardRecord = some g → g.remaining ≤ 1 →
      ∃ t, exec (.guardRunOut i) s = .next t ∧ s.onlyChanges t [.elems] ∧ s.elemsBut t i
        ∧ t.elem i = some { r with claim := { r.claim with guardRecord := none } }

/-! ## The element bus -/

/-- TRANSACTION_SELECT on a free bus starts a queued STOP_ALL, else the oldest entry, of those with no older entry of
their element queued, of the highest class; the frame carries the element's address, 0 for a STOP_ALL. Age order is the
queue's invariant. With the bus not free nothing happens, nor with an empty queue. -/
def Obligations.SelectionStartsTheOldestOfTheHighestClass : Prop :=
  ∀ s : State,
    let rank (c : TxClass) : Nat := match c with
      | .safety => 0
      | .control => 1
      | .refresh => 2
      | .cosmetic => 3
    ∃ t, exec .transactionSelect s = .next t ∧
      if s.ebc.free = false ∨ s.ebc.queue = [] then t = s
      else s.onlyChanges t [.ebc] ∧ (s.ebc.ordered → ∃ e ∈ s.ebc.queue,
        t.ebc.inFlight = some { entry := e, address := s.addressOf e, elapsed := 0, orphaned := false }
        ∧ (∀ i r, e.element = some i → s.elem i = some r → s.addressOf e = r.address) ∧ (e.element = none → s.addressOf e = 0)
        ∧ t.ebc.busTx = busRequest (s.addressOf e) e.op ∧ t.ebc.turnaround = none ∧ t.ebc.quiet = none
        ∧ (∀ x ∈ s.ebc.queue, x ≠ e → x ∈ t.ebc.queue) ∧ e ∉ t.ebc.queue
        ∧ (if e.isStop then t.ebc.sched = s.ebc.sched
          else (∀ x ∈ s.ebc.queue, x.isStop = false)
            ∧ (∀ x ∈ s.ebc.queue, x.element = e.element → e.age ≤ x.age)
            ∧ ∀ x ∈ s.ebc.queue, (∀ y ∈ s.ebc.queue, y.element = x.element → x.age ≤ y.age) →
                rank e.cls < rank x.cls ∨ (rank e.cls = rank x.cls ∧ e.age ≤ x.age)))

/-- The place that a selection frees goes to one pending mark (R102): a closing-poll-wanted or carriage-sync mark by the
lowest index, the closing one first, then a poll-due mark, then a lamp-sync mark, each by the lowest index. The mark
becomes the entry it stood for, with the speed or lit state of that moment. -/
def Obligations.AFreedPlaceGoesToTheFirstMark : Prop :=
  ∀ (s : State) (e : Entry), s.ebc.free = true → selection s.ebc.queue = some e → e.isStop = false → s.ebc.ordinary ≤ 31 →
    ∃ t, exec .transactionSelect s = .next t ∧
      let rest := s.ebc.queue.erase e
      let entry (i : Index) (op : BusOp) (cls : TxClass) : Entry :=
        { age := s.ebc.nextAge, enteredAt := s.now, element := some i, op := op, cls := cls, origin := .internal }
      let handed (i : Index) (c : Sched) (op : BusOp) (cls : TxClass) : Prop :=
        t.ebc.queue = rest ++ [entry i op cls] ∧ t.sched i = c ∧ (∀ j, j ≠ i → t.sched j = s.sched j)
          ∧ t.ebc.nextAge = s.ebc.nextAge + 1
      let control (i : Index) : Bool := (s.sched i).closingWanted || (s.sched i).carriageSync
      ((∀ i, (s.sched i).marked = false) → t.ebc.queue = rest ∧ t.ebc.sched = s.ebc.sched ∧ t.ebc.nextAge = s.ebc.nextAge)
      ∧ (∀ i, control i = true → (∀ j, j < i → control j = false) →
          if (s.sched i).closingWanted then
            handed i { s.sched i with closingWanted := false, pollDue := false } (.poll .closing) .control
          else handed i { s.sched i with carriageSync := false } (.motion (.carriage (s.speedAt i))) .control)
      ∧ ((∀ i, control i = false) → ∀ i, (s.sched i).pollDue = true → (∀ j, j < i → (s.sched j).pollDue = false) →
          handed i { s.sched i with pollDue := false } (.poll .refresh) .refresh)
      ∧ ((∀ i, control i = false ∧ (s.sched i).pollDue = false) → ∀ i, (s.sched i).lampSync = true →
          (∀ j, j < i → (s.sched j).lampSync = false) →
          handed i { s.sched i with lampSync := false } (.lamp (s.litAt i)) .cosmetic)

/-- TURNAROUND_EXPIRY and BUS_QUIET_TIME_END end their times and nothing else. STOP_ALL_SENT ends a STOP_ALL in flight,
which frees nothing and is reported to no record; the turnaround follows. With another transaction in flight, or none, it
is no event (assumption 1). REFRESH_DUE makes a refresh owed and asks for a refresh poll; before the due time, with a
refresh owed already, a poll-due mark, or no element it is no event (assumption 1). REFRESH_POLL_OVERDUE raises a queued
refresh poll of the element that has waited a poll period to class CONTROL and changes nothing else. -/
def Obligations.BusTimesAndRefreshPolls : Prop :=
  (∀ s : State,
    exec .turnaroundExpiry s = .next { s with ebc := { s.ebc with turnaround := none } }
    ∧ exec .busQuietTimeEnd s = .next { s with ebc := { s.ebc with quiet := none } }
    ∧ exec .stopAllSent s = .next (match s.ebc.inFlight with
      | some f => if f.entry.op = .stopAll then { s with ebc := { s.ebc with inFlight := none, turnaround := some 0 } } else s
      | none => s))
  ∧ (∀ (s : State) (i : Index) (due : Nat), (s.elem i).isSome → (s.sched i).due = some due → due ≤ s.now →
    (s.sched i).owed = false → (s.sched i).pollDue = false →
    ∃ t, exec (.refreshDue i) s = .next t ∧ s.onlyChanges t [.ebc] ∧ t.refreshAsked i
      ∧ (∀ j, j ≠ i → t.sched j = s.sched j)
      ∧ t.sched i = { s.sched i with owed := true, pollDue := (t.sched i).pollDue }
      ∧ (s.queued (fun e => e.isPoll && e.isFor i) = true ∨ s.pollInFlight i = true → t.ebc.queue = s.ebc.queue)
      ∧ (s.queued (fun e => e.isPoll && e.isFor i) = false → s.pollInFlight i = false →
          if s.ebc.ordinary < 31 ∧ ∀ j, (s.sched j).marked = false then
            t.ebc.queue = s.ebc.queue ++ [{ age := s.ebc.nextAge, enteredAt := s.now, element := some i, op := .poll .refresh,
                                            cls := .refresh, origin := .internal }]
          else t.ebc.queue = s.ebc.queue ∧ (t.sched i).pollDue = true))
  ∧ (∀ (s : State) (i : Index), s.elem i = none ∨ (∀ due, (s.sched i).due = some due → s.now < due) ∨ (s.sched i).owed = true
        ∨ (s.sched i).pollDue = true → exec (.refreshDue i) s = .next s)
  ∧ (∀ (s : State) (i : Index) (r : ElementRecord), s.elem i = some r → exec (.refreshPollOverdue i) s = .next { s with
      ebc := { s.ebc with queue := s.ebc.queue.map fun e =>
        if e.element = some i ∧ e.op = .poll .refresh ∧ e.cls = .refresh ∧ e.enteredAt + 20 * r.pollPeriod ≤ s.now then
          { e with cls := .control }
        else e } })
  ∧ ∀ (s : State) (i : Index), s.elem i = none → exec (.refreshPollOverdue i) s = .next s

/-! ## Ends of transactions -/

/-- A frame that arrives with no addressed transaction in flight, or before the reply window of the one in flight opens,
changes nothing; REPLY_TIMEOUT with no addressed transaction in flight is no event (assumption 1). In its reply window
(assumption 12), a frame with a wrong CRC, another source address (compared as a whole byte, assumption 28), another type,
another length or a field value of no meaning ends the transaction as the timeout does. An orphaned transaction ends on the
bus and is reported to no record. -/
def Obligations.UnsoundAndUnwantedReplies : Prop :=
  (∀ (s : State) (frame : List Byte), (∀ f, s.ebc.inFlight = some f → f.entry.op = .stopAll) →
    exec (.busReply frame) s = .next s ∧ exec .replyTimeout s = .next s)
  ∧ (∀ (s : State) (f : InFlight) (frame : List Byte), s.ebc.inFlight = some f → f.elapsed < 4 →
      exec (.busReply frame) s = .next s)
  ∧ (∀ (s : State) (f : InFlight) (i : Index) (frame : List Byte), s.ebc.inFlight = some f → f.entry.element = some i →
      f.entry.op ≠ .stopAll → f.orphaned = true →
      let ended := Host.Outcome.next { s with ebc := { s.ebc with inFlight := none, turnaround := some 0 } }
      (4 ≤ f.elapsed → exec (.busReply frame) s = ended) ∧ exec .replyTimeout s = ended)
  ∧ ∀ (s : State) (f : InFlight) (i : Index) (r : ElementRecord), s.awaitsReply f i r → f.entry.op ≠ .stopAll →
      let fails (frame : List Byte) : Prop := exec (.busReply frame) s = exec .replyTimeout s
      (∀ head crc : List Byte, crc.length = 2 → crc ≠ halfBytes (busCrc head) → fails (head ++ crc))
      ∧ (∀ head : List Byte, head.length < 3 ∨ head.head? ≠ some f.address → fails (busFrame head))
      ∧ (∀ type epoch fields, type ≠ (if f.entry.isPoll then 0x81#8 else 0x82#8) →
          fails (busFrame (f.address :: type :: epoch :: fields)))
      ∧ (∀ epoch fields, f.entry.isPoll = true → readingOf r.part.kind fields = none →
          fails (busFrame (f.address :: 0x81#8 :: epoch :: fields)))
      ∧ (∀ epoch fields, f.entry.isPoll = false → fields ≠ [] → fails (busFrame (f.address :: 0x82#8 :: epoch :: fields)))

/-- A poll reply with a sound reading (Table 11-8) completes the poll: the failure count is 0, epoch and reading are
stored, the state is ONLINE or FAULT (sensor), a restart is noticed and marked, and the next refresh is due one poll period
later. After the handler of the element's kind, an entry to FAULT requests a hold in a match phase when the record asks for
it: `u` is the state before that request. What its push discards is noticed oldest first (assumption 30). -/
def Obligations.CompletedPollUpdatesTheRecord : Prop :=
  (∀ counter status : Byte, readingOf .goal [counter, status] =
      if status.toNat ≤ 1 then some (.goal counter (status.getLsbD 0)) else none)
  ∧ (∀ position : Byte, readingOf .gate [position] = match position.toNat with
      | 0 => some (.gate .closed)
      | 1 => some (.gate .opened)
      | 2 => some (.gate .moving)
      | 3 => some (.gate .stopped)
      | 4 => some (.gate .jammed)
      | _ => none)
  ∧ (∀ occupied : Byte, readingOf .station [occupied] =
      if occupied = 0 then some (.station false) else if occupied = 1 then some (.station true) else none)
  ∧ (∀ (zone : Fin 8) (status speed : Byte), readingOf .carriage [byteOf zone.val, status, speed] =
      if status.toNat ≤ 7 ∧ -100 ≤ speed.toInt ∧ speed.toInt ≤ 100 then
        some (.carriage zone (status.getLsbD 0) (status.getLsbD 1) (status.getLsbD 2) speed.toInt)
      else none)
  ∧ ∀ (s : State) (f : InFlight) (i : Index) (r : ElementRecord) (role : PollRole) (epoch : Byte) (fields : List Byte)
      (reading : Reading), s.awaitsReply f i r → f.entry.op = .poll role → readingOf r.part.kind fields = some reading →
      let broken : Bool := match reading with
        | .goal _ sensorBreak => sensorBreak
        | .carriage _ _ _ encoderFault _ => encoderFault
        | .gate _ => false
        | .station _ => false
      let asksHold : Prop := broken = true ∧ (r.state = .probing ∨ r.state = .online) ∧ r.faultHolds = true
        ∧ s.mch.phase.inMatch = true
      ∃ t u after later, exec (.busReply (busFrame (f.address :: 0x81 :: epoch :: fields))) s = .next t
        ∧ u.thenHold t i asksHold
        ∧ s.onlyChanges u [.hlp, .roster, .elems, .ebc, .tu] ∧ u.endsOnBus ∧ s.elemsBut u i ∧ u.elem i = some after
        ∧ after = { r.afterPoll epoch reading broken with sticky := after.sticky, part := after.part }
        ∧ after.part.kind = r.part.kind
        ∧ after.sticky.restarted = (r.afterPoll epoch reading broken).sticky.restarted
        ∧ (u.sched i).due = some (s.now + 20 * r.pollPeriod) ∧ (u.sched i).owed = false
        ∧ (∀ j, j ≠ i → u.sched j = s.sched j)
        ∧ u.ebc.queue.filter (fun e => !e.isFor i) = s.ebc.queue.filter (fun e => !e.isFor i)
        ∧ (r.part.kind ≠ .gate → u.roster = s.roster) ∧ (r.part.kind ≠ .goal → u.tu = s.tu)
        ∧ u.hlp = (s.hlp.raiseAll (pollNotices i r epoch broken)).raiseAll later

/-- A completed refresh poll of a goal attributes the pieces counted since the last reading: none at the first poll, after a
restart of the node, and next to a reading with a sensor break; else to idle pieces with the window CLOSED, to held pieces with
a hold standing, else each piece counts, one after another, and is credited to the alliance's row or the holder's row (a piece
of a neutral goal that nobody holds stays unattributed), and the alliance total of the row changes by as much as the cell. The
piece that brings the count to 0 fills the window, with the bonus and the lamp; the count stops at −255 and marks the overrange
once. What several pieces make of the kind part and the cell, where none of them fills or meets the bound. An entry to FAULT by
a sensor break may request a hold: `u` is the state before that request, and what its push discards is noticed oldest first
(assumption 30). -/
def Obligations.GoalPollAttributesPieces : Prop :=
  (∀ (s : State) (f : InFlight) (i : Index) (r : ElementRecord) (p : GoalPart) (epoch counter : Byte) (broken : Bool),
    s.awaitsReply f i r → f.entry.op = .poll .refresh → r.part = .goal p →
    let asksHold : Prop := broken = true ∧ (r.state = .probing ∨ r.state = .online) ∧ r.faultHolds = true
      ∧ s.mch.phase.inMatch = true
    ∃ t u, exec (.busReply (busFrame [f.address, 0x81, epoch, counter, if broken then 1 else 0])) s = .next t
      ∧ u.thenHold t i asksHold ∧ s.goalPollDone u i r p .refresh epoch counter broken)
  ∧ (∀ (p : GoalPart) (lost : Bool) (n : Nat) (i : Index) (row : Option (Fin 28)), p.windowPieces ≤ 65535 → -255 ≤ p.count - n →
      ((n : Int) < p.count ∨ p.count ≤ 0 ∨ p.quota = 0 ∨ p.filled = true) →
      GoalPart.afterPieces lost n p = { p with
          counted := p.counted + BitVec.ofNat 16 n, windowPieces := min 65535 (p.windowPieces + n)
          unattributed := if lost then p.unattributed + BitVec.ofNat 16 n else p.unattributed, count := p.count - n }
        ∧ GoalPart.piecePoints n p = List.replicate n p.pointsPerPiece ∧ GoalPart.pieceNotices i row n p = [])
  ∧ ∀ (c : Cell) (n points : Nat), -32767 ≤ c.value → c.value ≤ 32767 →
      ((List.replicate n points).filter (· ≠ 0)).foldl (fun c n => c.add n) c =
        { value := min 32767 (c.value + n * points), saturated := c.saturated || decide (32767 < c.value + n * points) }

/-- The end of a closing poll, completed or failed, captures the closing record, marks it fresh (and the one before
overwritten when nobody has read it), ends the closing or reopens the window, and takes the goal off the final wait. A
completed one attributes its pieces first, and makes an incomplete record when it reports a sensor break. One that
REPLY_TIMEOUT fails, whatever time has passed (assumption 1), makes an incomplete record, in every state and at every failure
count; the third failure in a row enters FAULT, which may request a hold: `u` is the state before that request. What its push
discards is noticed oldest first (assumption 30). -/
def Obligations.ClosingPollCapturesTheRecord : Prop :=
  (∀ (s : State) (f : InFlight) (i : Index) (r : ElementRecord) (p : GoalPart) (epoch counter : Byte) (broken : Bool),
    s.awaitsReply f i r → f.entry.op = .poll .closing → r.part = .goal p →
    let asksHold : Prop := broken = true ∧ (r.state = .probing ∨ r.state = .online) ∧ r.faultHolds = true
      ∧ s.mch.phase.inMatch = true
    ∃ t u, exec (.busReply (busFrame [f.address, 0x81, epoch, counter, if broken then 1 else 0])) s = .next t
      ∧ u.thenHold t i asksHold ∧ s.goalPollDone u i r p .closing epoch counter broken)
  ∧ ∀ (s : State) (f : InFlight) (i : Index) (r : ElementRecord) (p : GoalPart), s.awaitsEnd f i r →
      f.entry.op = .poll .closing → r.part = .goal p → p.window = .closing →
      let asksHold : Prop := 2 ≤ r.failures ∧ (r.state = .probing ∨ r.state = .online) ∧ r.faultHolds = true
        ∧ s.mch.phase.inMatch = true
      ∃ t u, exec .replyTimeout s = .next t ∧ u.thenHold t i asksHold
        ∧ s.onlyChanges u [.hlp, .elems, .ebc, .tu] ∧ s.elemsBut u i
        ∧ u.elem i = some { r.afterFailure with sticky := r.sticky.captured true, part := .goal (p.closedBy true) }
        ∧ u.tu = s.captureTu i
        ∧ u.hlp = s.hlp.raiseAll (failureNotices i r ++ s.captureNotices i p true r.sticky.recordFresh)
        ∧ u.ebc = s.pollEnded i r.pollPeriod (litChange i p.lit (p.closedBy true).lit)

/-- A completed poll of a gate stores the position, asks for nothing on the bus, and ends a travelling motion at its target
(DONE), JAMMED (FAILED 1) or STOPPED (FAILED 2); GATE_TRAVEL_LIMIT ends it with FAILED 3, whatever its timer shows (assumption
1). The outcome goes to the robot or the host that asked. -/
def Obligations.GateMotionEnds : Prop :=
  (∀ (s : State) (f : InFlight) (i : Index) (r : ElementRecord) (p : GatePart) (role : PollRole) (epoch code : Byte)
    (position : GatePosition), s.awaitsReply f i r → f.entry.op = .poll role → r.part = .gate p → code = position.code →
    let before := pollNotices i r epoch false
    let seen (motion : GateMotion) : GatePart := { p with position := some position, motion := motion }
    ∃ t, exec (.busReply (busFrame [f.address, 0x81, epoch, code])) s = .next t
      ∧ s.onlyChanges t [.hlp, .roster, .elems, .ebc] ∧ s.elemsBut t i ∧ t.ebc = s.pollEnded i r.pollPeriod []
      ∧ match p.motion with
        | .travelling target origin elapsed =>
          if (target = .opening ∧ position = .opened) ∨ (target = .closing ∧ position = .closed) then
            t.gateAt i = some (seen .idle) ∧ s.outcomeTold t i origin before .done none (.gateDone target (some position))
          else if position = .jammed then
            t.gateAt i = some (seen .idle)
              ∧ s.outcomeTold t i origin before .failed (some 1) (.gateFailed target (some position) .jammed)
          else if position = .stopped then
            t.gateAt i = some (seen .idle)
              ∧ s.outcomeTold t i origin before .failed (some 2) (.gateFailed target (some position) .stopped)
          else t.gateAt i = some (seen (.travelling target origin elapsed)) ∧ t.roster = s.roster
            ∧ t.hlp = s.hlp.raiseAll before
        | motion => t.gateAt i = some (seen motion) ∧ t.roster = s.roster ∧ t.hlp = s.hlp.raiseAll before)
  ∧ ∀ (s : State) (i : Index) (p : GatePart) (target : GateTarget) (origin : Origin) (elapsed : Nat), s.gateAt i = some p →
      p.motion = .travelling target origin elapsed →
      ∃ t, exec (.gateTravelLimit i) s = .next t ∧ s.onlyChanges t [.hlp, .roster, .elems] ∧ s.elemsBut t i
        ∧ t.elem i = (s.elem i).map (fun r => { r with part := .gate { p with motion := .idle } })
        ∧ s.outcomeTold t i origin [] .failed (some 3) (.gateFailed target p.position .timeout)

/-- A completed poll of a station sets the presence, ends a trespass episode at EMPTY, marks a trespass in an open window
of a match phase that nobody holds, and drives the lamp again when that is wanted or the node has restarted. -/
def Obligations.StationPollSetsPresence : Prop :=
  ∀ (s : State) (f : InFlight) (i : Index) (r : ElementRecord) (p : StationPart) (role : PollRole) (epoch : Byte)
    (occupied : Bool), s.awaitsReply f i r → f.entry.op = .poll role → r.part = .station p →
    let trespass : Bool := occupied && p.windowOpen && s.mch.phase.inMatch && r.claim.holder.isNone && !p.trespassEpisode
    ∃ t, exec (.busReply (busFrame [f.address, 0x81, epoch, if occupied then 1 else 0])) s = .next t
      ∧ s.onlyChanges t [.hlp, .elems, .ebc] ∧ s.elemsBut t i
      ∧ t.elem i = some { r.afterPoll epoch (.station occupied) false with
          sticky := { (r.afterPoll epoch (.station occupied) false).sticky with trespass := r.sticky.trespass || trespass }
          part := .station { p with presence := some occupied, trespassEpisode := occupied && (p.trespassEpisode || trespass)
                                    lampResync := false } }
      ∧ t.hlp = s.hlp.raiseAll (pollNotices i r epoch false
          ++ if trespass then [.element i (.trespass s.mch.phase)] else [])
      ∧ t.ebc = s.pollEnded i r.pollPeriod
          (if p.lampResync || (r.epoch.isSome && r.epoch != some epoch) then [.lamp i p.lit] else [])
      ∧ (p.lampResync = true ∨ (∃ stored, r.epoch = some stored ∧ stored ≠ epoch) → t.lampAsked i p.lit)

/-- A completed poll of a carriage. With an encoder fault a RUNNING or HALTED carriage is STOPPED. Otherwise a RUNNING one
parks or turns at the end stop it runs into, takes a new zone's speed, or goes on; and a speed that is wanted again is driven,
unless the carriage is HALTED. Nothing else of the bus changes but what the end of a poll changes. An entry to FAULT by an
encoder fault may request a hold after that: `u` is the state before the request, and what its push discards is noticed oldest
first (assumption 30). -/
def Obligations.CarriagePollMovesTheCarriage : Prop :=
  ∀ (s : State) (f : InFlight) (i : Index) (r : ElementRecord) (p : CarriagePart) (role : PollRole) (epoch speed : Byte)
    (zone : Fin 8) (front rear encoder : Bool), s.awaitsReply f i r → f.entry.op = .poll role → r.part = .carriage p →
    -100 ≤ speed.toInt → speed.toInt ≤ 100 →
    let asksHold : Prop := encoder = true ∧ (r.state = .probing ∨ r.state = .online) ∧ r.faultHolds = true
      ∧ s.mch.phase.inMatch = true
    let status : Byte := byteOf (front.toNat + 2 * rear.toNat + 4 * encoder.toNat)
    let before := pollNotices i r epoch encoder
    let wanted : Bool := p.speedResync || (r.epoch.isSome && r.epoch != some epoch)
    let signed (direction : Direction) : Int := match direction with
      | .forward => (p.zoneSpeeds[zone.val] : Int)
      | .reverse => -(p.zoneSpeeds[zone.val] : Int)
    let ended := match p.direction with
      | .forward => front
      | .reverse => rear
    let turned : Direction := match p.direction with
      | .forward => .reverse
      | .reverse => .forward
    ∃ t u q asks, exec (.busReply (busFrame [f.address, 0x81, epoch, byteOf zone.val, status, speed])) s = .next t
      ∧ u.thenHold t i asksHold ∧ s.onlyChanges u [.hlp, .elems, .ebc] ∧ s.elemsBut u i
      ∧ u.elem i = some { r.afterPoll epoch (.carriage zone front rear encoder speed.toInt) encoder with part := .carriage q }
      ∧ u.ebc = s.pollEnded i r.pollPeriod asks
      ∧ if encoder then
          if p.runState = .running ∨ p.runState = .halted then
            q = { p with runState := .stopped, homing := false, commanded := 0, speedResync := wanted } ∧ asks = [.speed i 0]
              ∧ u.hlp = s.hlp.raiseAll (before ++ [.element i (.carriageStopped .encoder)])
          else q = { p with speedResync := wanted } ∧ asks = [] ∧ u.hlp = s.hlp.raiseAll before
        else
          let again (speed : Int) : List BusAsk := if wanted && p.runState != .halted then [.speed i speed] else []
          if p.runState = .running ∧ ended = true ∧ (p.homing = true ∨ p.endMode = .stop) then
            q = { p with runState := .parked, homing := false, commanded := 0, speedResync := false }
              ∧ asks = .speed i 0 :: again 0 ∧ u.hlp = s.hlp.raiseAll (before ++ [.element i (.parked (p.direction == .forward))])
          else if p.runState = .running ∧ ended = true then
            q = { p with direction := turned, speedZone := some zone, commanded := signed turned, speedResync := false }
              ∧ asks = .speed i (signed turned) :: again (signed turned) ∧ u.hlp = s.hlp.raiseAll before
          else if p.runState = .running ∧ p.speedZone ≠ some zone then
            q = { p with speedZone := some zone, commanded := signed p.direction, speedResync := false }
              ∧ asks = .speed i (signed p.direction) :: again (signed p.direction) ∧ u.hlp = s.hlp.raiseAll before
          else q = { p with speedResync := false } ∧ asks = again p.commanded ∧ u.hlp = s.hlp.raiseAll before

/-- An acknowledged LAMP or MOTION completes: the failure count is 0, the turnaround runs, and a gate whose drive was
SENT begins its travel from 0. Nothing else changes. -/
def Obligations.AcknowledgedDriveCompletes : Prop :=
  ∀ (s : State) (f : InFlight) (i : Index) (r : ElementRecord) (epoch : Byte), s.awaitsReply f i r → f.entry.isPoll = false →
    f.entry.op ≠ .stopAll →
    ∃ t, exec (.busReply (busFrame [f.address, 0x82, epoch])) s = .next t ∧ s.onlyChanges t [.elems, .ebc] ∧ s.elemsBut t i
      ∧ t.ebc = { s.ebc with inFlight := none, turnaround := some 0 }
      ∧ t.elem i = some { r with failures := 0, part := match f.entry.op, r.part with
          | .motion (.gate _), .gate p => .gate { p with motion := match p.motion with
              | .sent target origin => .travelling target origin 0
              | motion => motion }
          | _, part => part }

/-- REPLY_TIMEOUT, whatever time has passed (assumption 1), fails the addressed transaction: one more failure up to 3, the
third in a row enters FAULT (missing), and the handler of the kind takes the end: a failed LAMP is wanted again, a failed
carriage MOTION wants its speed again, a failed gate MOTION ends its motion with FAILED 4, and a carriage that is missing is
STOPPED. An entry to FAULT requests a hold in a match phase when the record asks for it: `u` is the state before that request.
What its push discards is noticed oldest first (assumption 30). (A failed closing poll is left to the statement on closing
polls.) -/
def Obligations.FailedTransactionCounts : Prop :=
  ∀ (s : State) (f : InFlight) (i : Index) (r : ElementRecord), s.awaitsEnd f i r → f.entry.op ≠ .stopAll →
    let asksHold : Prop := 2 ≤ r.failures ∧ (r.state = .probing ∨ r.state = .online) ∧ r.faultHolds = true
      ∧ s.mch.phase.inMatch = true
    let missing : Prop := 2 ≤ r.failures ∨ r.state = .fault .missing
    let bus (asks : List BusAsk) : Ebc := if f.entry.isPoll then s.pollEnded i r.pollPeriod asks else s.endedOnBus asks
    ∃ t u after, exec .replyTimeout s = .next t ∧ u.thenHold t i asksHold
      ∧ s.onlyChanges u [.hlp, .roster, .elems, .ebc, .tu] ∧ u.endsOnBus ∧ s.elemsBut u i
      ∧ u.elem i = some after ∧ after = { r.afterFailure with sticky := after.sticky, part := after.part }
      ∧ after.part.kind = r.part.kind
      ∧ (r.part.kind ≠ .gate → u.roster = s.roster) ∧ (f.entry.op ≠ .poll .closing → u.tu = s.tu)
      ∧ (f.entry.isPoll = true → (u.sched i).due = some (s.now + 20 * r.pollPeriod) ∧ (u.sched i).owed = false)
      ∧ (f.entry.isPoll = false → (u.sched i).due = (s.sched i).due ∧ (u.sched i).owed = (s.sched i).owed)
      ∧ (∀ j, j ≠ i → u.sched j = s.sched j)
      ∧ u.ebc.queue.filter (fun e => !e.isFor i) = s.ebc.queue.filter (fun e => !e.isFor i)
      ∧ (∀ p, r.part = .goal p → f.entry.op ≠ .poll .closing →
          after.part = .goal { p with lampResync := p.lampResync || f.entry.isLamp } ∧ after.sticky = r.sticky
            ∧ u.ebc = bus [] ∧ u.hlp = s.hlp.raiseAll (failureNotices i r))
      ∧ (∀ p, r.part = .station p → after.part = .station { p with lampResync := p.lampResync || f.entry.isLamp }
          ∧ after.sticky = r.sticky ∧ u.ebc = bus [] ∧ u.hlp = s.hlp.raiseAll (failureNotices i r))
      ∧ (∀ p, r.part = .gate p → after.sticky = r.sticky ∧ u.ebc = bus [] ∧ match f.entry.isMotion, p.motion with
          | true, .sent target origin => after.part = .gate { p with motion := .idle }
            ∧ s.outcomeTold u i origin (failureNotices i r) .failed (some 4) (.gateFailed target p.position .driveFailed)
          | _, _ => after.part = .gate p ∧ u.roster = s.roster ∧ u.hlp = s.hlp.raiseAll (failureNotices i r))
      ∧ (∀ p, r.part = .carriage p →
          let wanted := p.speedResync || f.entry.isMotion
          after.sticky = r.sticky
          ∧ (missing ∧ (p.runState = .running ∨ p.runState = .halted) →
            after.part = .carriage { p with runState := .stopped, homing := false, commanded := 0, speedResync := wanted }
            ∧ u.ebc = bus [.speed i 0]
            ∧ u.hlp = s.hlp.raiseAll (failureNotices i r ++ [.element i (.carriageStopped .missing)]))
          ∧ (¬ (missing ∧ (p.runState = .running ∨ p.runState = .halted)) →
            after.part = .carriage { p with speedResync := wanted } ∧ u.ebc = bus []
            ∧ u.hlp = s.hlp.raiseAll (failureNotices i r)))

/-! ## Windows, quotas and lamps -/

/-- SET-WINDOW: its checks, and the window evaluated with the new control: a goal's window opens, begins to close with
its closing poll asked for, or has its wish to reopen noted; a station's window changes at once. The reply shows the
window. A goal that opens has its lamp driven when its lit state changes, and nothing else of the bus changes. -/
def Obligations.SetWindowEvaluatesTheWindow : Prop :=
  (∀ control set phase, windowDesired control set phase = true ↔ phase ≠ .ended ∧ (control = .forcedOpen
    ∨ (control = .auto ∧ ((phase = .opening ∧ set.getLsbD 0 = true) ∨ (phase = .transition ∧ set.getLsbD 1 = true)
      ∨ (phase = .play ∧ set.getLsbD 2 = true) ∨ (phase = .finale ∧ set.getLsbD 3 = true)))))
  ∧ ∀ (s : State) (tag index control : Byte), s.accepts = true →
    ∃ t, exec (.setWindow tag index control) s = .next t
      ∧ (48 ≤ index.toNat ∨ 2 < control.toNat → s.refuses t 0x13 tag .badValue)
      ∧ ∀ (i : Index) (c : WindowControl), index.toNat = i.val → control = c.code → match s.elem i with
        | none => s.refuses t 0x13 tag .noSuchElement
        | some r => match r.part with
          | .gate _ => s.refuses t 0x13 tag .wrongKind
          | .carriage _ => s.refuses t 0x13 tag .wrongKind
          | .station p =>
            let q := StationPart.evaluated { p with control := c } s.mch.phase
            s.elemsBut t i ∧ t.elem i = some { r with part := .station q }
              ∧ s.answers t [.elems] 0x13 tag [] .ok (.window (if q.windowOpen then .opened else .closed))
          | .goal p =>
            let q := GoalPart.evaluated { p with control := c } s.mch.phase
            s.elemsBut t i ∧ t.elem i = some { r with part := .goal q }
              ∧ s.answers t [.elems, .ebc] 0x13 tag
                  (if p.window = .closed ∧ q.window = .opened then [.goal i q.windowNumber (.opened q.quota)] else [])
                  .ok (.window q.window)
              ∧ t.ebc = (s.asksAll (litChange i p.lit q.lit
                  ++ if p.window = .opened ∧ q.window = .closing then [.closing i] else [])).ebc
              ∧ (p.window = .opened → q.window = .closing → t.closingAsked i) ∧ (p.lit ≠ q.lit → t.lampAsked i q.lit)

/-- SET-QUOTA applies at once with the window CLOSED and pends otherwise; SET-LAMP stores the mode and drives the lamp
when its lit state changes, which alone the bus sees, and refuses AUTO while the mode is ON. -/
def Obligations.SetQuotaAndSetLamp : Prop :=
  (∀ (s : State) (tag index quota : Byte), s.accepts = true →
    ∃ t, exec (.setQuota tag index quota) s = .next t
      ∧ (48 ≤ index.toNat → s.refuses t 0x14 tag .badValue)
      ∧ ∀ i : Index, index.toNat = i.val → match s.elem i with
        | none => s.refuses t 0x14 tag .noSuchElement
        | some r => match r.part with
          | .goal p =>
            s.elemsBut t i
            ∧ if p.window = .closed then
                t.elem i = some (r.setPart (.goal { p with quota := quota.toNat, pendingQuota := none, count := quota.toNat }))
                  ∧ s.answers t [.elems] 0x14 tag [] .ok (.quota quota.toNat none)
              else t.elem i = some { r with part := .goal { p with pendingQuota := some quota.toNat } }
                ∧ s.answers t [.elems] 0x14 tag [] .ok (.quota p.quota (some quota.toNat))
          | _ => s.refuses t 0x14 tag .wrongKind)
  ∧ ∀ (s : State) (tag index mode : Byte), s.accepts = true →
    ∃ t, exec (.setLamp tag index mode) s = .next t
      ∧ (48 ≤ index.toNat ∨ 2 < mode.toNat → s.refuses t 0x15 tag .badValue)
      ∧ ∀ (i : Index) (m : LampMode), index.toNat = i.val → mode = m.code →
        let lit (auto : Bool) : Bool := match m with
          | .auto => auto
          | .off => false
          | .on => true
        let set (r : ElementRecord) (was lit : Bool) (part : KindPart) : Prop :=
          s.elemsBut t i ∧ t.elem i = some { r with part := part } ∧ s.answers t [.elems, .ebc] 0x15 tag [] .ok (.lamp m lit)
            ∧ t.ebc = (s.asksAll (litChange i was lit)).ebc ∧ (was ≠ lit → t.lampAsked i lit)
        match s.elem i with
        | none => s.refuses t 0x15 tag .noSuchElement
        | some r => match r.part with
          | .goal p =>
            if m = .auto ∧ p.lampMode = .on then s.refuses t 0x15 tag .lampSequence
            else set r p.lit (lit p.filled) (.goal { p with lampMode := m, lit := lit p.filled })
          | .station p =>
            if m = .auto ∧ p.lampMode = .on then s.refuses t 0x15 tag .lampSequence
            else set r p.lit (lit r.claim.holder.isSome) (.station { p with lampMode := m, lit := lit r.claim.holder.isSome })
          | .gate _ => s.refuses t 0x15 tag .wrongKind
          | .carriage _ => s.refuses t 0x15 tag .wrongKind

/-! ## Gates and carriages -/

/-- SET-GATE and ACT on a gate: the first row of their tables that applies gives the answer; when none does, a MOTION of
class CONTROL enters at the tail of the queue and the motion state is SENT. -/
def Obligations.GateMotionIsAskedFor : Prop :=
  let sent (s t : State) (i : Index) (r : ElementRecord) (p : GatePart) (target : GateTarget) (origin : Origin) : Prop :=
    s.elemsBut t i ∧ t.elem i = some { r with part := .gate { p with motion := .sent target origin } }
      ∧ t.ebc = { s.ebc with
          queue := s.ebc.queue ++ [{ age := s.ebc.nextAge, enteredAt := s.now, element := some i,
                                     op := .motion (.gate target), cls := .control, origin := origin }]
          nextAge := s.ebc.nextAge + 1 }
  let there (position : GatePosition) (target : GateTarget) : Prop :=
    (target = .opening ∧ position = .opened) ∨ (target = .closing ∧ position = .closed)
  let moving (p : GatePart) : Prop := p.position = some .moving ∨ p.motion ≠ .idle
  let room (s : State) : Prop := s.ebc.ordinary < 31 ∧ ∀ i, (s.sched i).marked = false
  let waits (s : State) (i : Index) : Prop := s.queued (fun e => e.isMotion && e.isFor i) = true
  (∀ (s : State) (tag index setpoint : Byte), s.accepts = true →
    ∃ t, exec (.setGate tag index setpoint) s = .next t
      ∧ (48 ≤ index.toNat ∨ (setpoint ≠ 1 ∧ setpoint ≠ 2) → s.refuses t 0x16 tag .badValue)
      ∧ ∀ (i : Index) (target : GateTarget), index.toNat = i.val → setpoint = gateCode target → match s.elem i with
        | none => s.refuses t 0x16 tag .noSuchElement
        | some r => match r.part with
          | .gate p =>
            if r.inFault = true then s.refuses t 0x16 tag .elementFault
            else (p.position = none → s.refuses t 0x16 tag .notReady) ∧ ∀ position, p.position = some position →
              (moving p → s.refuses t 0x16 tag .busy)
              ∧ (¬ moving p → there position target → s.answers t [] 0x16 tag [] .ok (.gate false))
              ∧ (¬ moving p → ¬ there position target →
                  (waits s i → s.refuses t 0x16 tag .busy)
                  ∧ (¬ waits s i → ¬ room s → s.refuses t 0x16 tag .queueFull)
                  ∧ (¬ waits s i → room s → sent s t i r p target (.host tag)
                      ∧ s.answers t [.elems, .ebc] 0x16 tag [] .ok (.gate true)))
          | _ => s.refuses t 0x16 tag .wrongKind)
  ∧ ∀ (s : State) (k : Slot) (number : BitVec 4) (element : Byte) (target : GateTarget), s.executes k number = true →
    ∃ t, exec (.act k number element target) s = .next t ∧
      let answered (code : Answer) : Prop := s.answersRobot t k number .act (some element) code none
      if s.mch.phase.inMatch = false ∨ s.mch.stack ≠ [] then answered .notNow
      else (48 ≤ element.toNat → answered .noElement) ∧ ∀ i : Index, element.toNat = i.val → match s.elem i with
        | none => answered .noElement
        | some r => match r.part with
          | .gate p =>
            if r.claim.holder ≠ some k then answered .notHolder
            else if r.inFault = true then answered .elementFault
            else (p.position = none → answered .notNow) ∧ ∀ position, p.position = some position →
              (moving p → answered .busy)
              ∧ (¬ moving p → there position target → answered .done)
              ∧ (¬ moving p → ¬ there position target →
                  (waits s i → answered .busy) ∧ (¬ waits s i → ¬ room s → answered .busFull)
                  ∧ (¬ waits s i → room s → sent s t i r p target (.robot k number)
                      ∧ s.onlyChanges t [.roster, .elems, .ebc] ∧ s.robotsBut t k
                      ∧ t.robot k = { s.robot k with
                          openRequest := some (OpenRequest.mk number .act (some element) false .wait none) }))
          | _ => answered .notAGate

/-- DRIVE-CARRIAGE: its checks, in the order in which its rule names them (assumption 15), and the carriage stopped, set
running with the speed of the zone it stands in, parked at the rear stop, or left HALTED while a hold stands. A drive of the
commanded speed is asked for unless it is left HALTED, and nothing else of the bus changes. -/
def Obligations.DriveCarriageCommandsTheCarriage : Prop :=
  ∀ (s : State) (tag index command direction : Byte), s.accepts = true →
    ∃ t, exec (.driveCarriage tag index command direction) s = .next t
      ∧ (48 ≤ index.toNat ∨ 2 < command.toNat ∨ (command = 0 ∧ 1 < direction.toNat) → s.refuses t 0x17 tag .badValue)
      ∧ ∀ i : Index, index.toNat = i.val → command.toNat ≤ 2 → (command = 0 → direction.toNat ≤ 1) → match s.elem i with
        | none => s.refuses t 0x17 tag .noSuchElement
        | some r => match r.part with
          | .carriage p =>
            let becomes (q : CarriagePart) : Prop := s.elemsBut t i ∧ t.elem i = some { r with part := .carriage q }
            let drives (q : CarriagePart) : Prop := becomes q ∧ t.ebc = (s.asksAll [.speed i q.commanded]).ebc ∧ t.speedAsked i q.commanded
              ∧ s.answers t [.elems, .ebc] 0x17 tag [] .ok (.carriage q.runState q.direction q.commanded)
            let halts (q : CarriagePart) : Prop := becomes q
              ∧ s.answers t [.elems] 0x17 tag [] .ok (.carriage q.runState q.direction q.commanded)
            if command = 1 then drives { p with runState := .stopped, homing := false, commanded := 0 }
            else if r.inFault = true then s.refuses t 0x17 tag .elementFault
            else match r.reading with
            | some (.carriage zone _ rear _ _) =>
              let heading : Direction := if command = 0 ∧ direction = 0 then .forward else .reverse
              let speed : Int := match heading with
                | .forward => (p.zoneSpeeds[zone.val] : Int)
                | .reverse => -(p.zoneSpeeds[zone.val] : Int)
              if command = 2 ∧ rear = true then
                drives { p with direction := .reverse, runState := .parked, homing := false, commanded := 0 }
              else if s.held = true then
                halts { p with direction := heading, runState := .halted, homing := command == 2, commanded := 0 }
              else drives { p with direction := heading, runState := .running, homing := command == 2, speedZone := some zone
                                   commanded := speed }
            | _ => s.refuses t 0x17 tag .notReady
          | _ => s.refuses t 0x17 tag .wrongKind

/-! ## Phases -/

/-- ARM, its phase checked first (assumption 15), leads to STAGED when a robot is assigned and an element defined, and starts
the host silence timer when its limit is not 0 (else the timer, which does not run, keeps its elapsed time, assumption 13);
START leads to the first phase with a duration, makes READY robots ACTIVE and sets match time to 0. Both evaluate every window:
a goal that opens has its lamp driven when its lit state changes, a goal that begins to close its closing poll, by index (the
order is the model's, assumption 30), and nothing else of the bus changes. -/
def Obligations.ArmAndStartEnterPhases : Prop :=
  (∀ (s : State) (tag : Byte), s.accepts = true →
    ∃ t, exec (.arm tag) s = .next t
      ∧ (s.mch.phase ≠ .setup → s.refuses t 0x09 tag .wrongPhase)
      ∧ (s.mch.phase = .setup → ((∀ k, (s.robot k).state = .vacant) ∨ ∀ i, s.elem i = none) →
          s.refuses t 0x09 tag .notReady)
      ∧ (s.mch.phase = .setup → (∃ k, (s.robot k).state ≠ .vacant) → (∃ i, s.elem i ≠ none) →
          let remaining := s.mch.durations.first.2
          t.mch = { s.mch with phase := .staged, remaining := remaining
                               silenceElapsed := if s.mch.hostLimit = 0 then s.mch.silenceElapsed else 0
                               silenceExpired := s.mch.hostLimit == 0 && s.mch.silenceExpired }
          ∧ s.windowsEvaluated t
          ∧ s.answers t [.elems, .ebc, .mch] 0x09 tag
              (.phase .staged .arm s.mch.matchTime remaining s.held :: s.openNotices .staged) .ok .empty))
  ∧ ∀ (s : State) (tag force : Byte), s.accepts = true →
    ∃ t, exec (.start tag force) s = .next t
      ∧ (1 < force.toNat → s.refuses t 0x0A tag .badValue)
      ∧ (force.toNat ≤ 1 → s.mch.phase ≠ .staged → s.refuses t 0x0A tag .wrongPhase)
      ∧ (force.toNat ≤ 1 → s.mch.phase = .staged → (∀ k, (s.robot k).state = .vacant) → s.refuses t 0x0A tag .notReady)
      ∧ (force.toNat ≤ 1 → s.mch.phase = .staged → (∃ k, (s.robot k).state ≠ .vacant) →
          let late : Prop := ∃ k, (s.robot k).state = .assigned ∨ (s.robot k).state = .linked
          (force = 0 → late → s.refuses t 0x0A tag .notReady)
          ∧ ((force = 0 → ¬ late) →
              let first := s.mch.durations.first
              t.mch = { s.restartSilence.mch with phase := first.1, remaining := first.2, matchTime := 0, tenthTimer := 0 }
              ∧ (∀ k, t.robot k = if (s.robot k).state = .ready then { s.robot k with state := .active } else s.robot k)
              ∧ t.roster = { s.roster with robots := t.roster.robots } ∧ s.windowsEvaluated t
              ∧ s.answers t [.roster, .elems, .ebc, .mch] 0x0A tag
                  (.phase first.1 .start 0 first.2 s.held :: s.openNotices first.1) .ok .empty))

/-- END-MATCH in a match phase enters ENDED. The host silence timer stops there and keeps its elapsed time (assumption 13).
RAN_OUT alone (assumption 3), with match time running and a tenth to go at most, enters the next phase that has a duration,
every window evaluated, or ENDED. At ENDED claims are emptied, a station whose holder goes has its lamp driven when its lit
state changes, robots go back to READY, open windows begin to close, and the final snapshot is taken when no goal is closing
and no send is in flight. The bus takes the asks of the entry by index (the order is the model's, assumption 30) and nothing
else of it changes. -/
def Obligations.PhasesEnd : Prop :=
  (∀ (s : State) (tag : Byte), s.accepts = true →
    ∃ t, exec (.endMatch tag) s = .next t
      ∧ (s.mch.phase.inMatch = false → s.refuses t 0x0B tag .wrongPhase)
      ∧ (s.mch.phase.inMatch = true → s.restartSilence.ends t ∧ t.hlp = s.hlp.answer (s.endNotices .endMatch) 0x0B tag .ok .empty))
  ∧ ∀ s : State, s.matchRuns = true → s.mch.remaining ≤ 1 →
    ∃ t, exec .ranOut s = .next t ∧
      let d := s.mch.durations
      let enters (p : Phase) (remaining : Nat) : Prop :=
        s.onlyChanges t [.hlp, .elems, .ebc, .mch] ∧ t.mch = { s.mch with phase := p, remaining := remaining }
          ∧ s.windowsEvaluated t
          ∧ t.hlp = s.hlp.raiseAll (.phase p .ranOut s.mch.matchTime remaining s.held :: s.openNotices p)
      if s.mch.phase = .opening ∧ d.transition ≠ 0 then enters .transition d.transition
      else if (s.mch.phase = .opening ∨ s.mch.phase = .transition) ∧ d.play ≠ 0 then enters .play d.play
      else if s.mch.phase ≠ .finale ∧ d.finale ≠ 0 then enters .finale d.finale
      else s.ends t ∧ t.hlp = s.hlp.raiseAll (s.endNotices .ranOut)

/-- CLEAR-MATCH outside the match phases, with the filtered FIELD_STOP line released: phase SETUP, holds gone, the tally
zeroed and a send stopped (its stop takes no final snapshot, assumption 14), the goals' and stations' match fields, the
ejections, the sticky flags but RESTARTED and the closing roles cleared. On the bus a goal that goes out has its lamp driven,
every closing role becomes a refresh role, of class CONTROL for an entry that has waited its poll period, a
closing-poll-wanted mark becomes a poll-due mark, and nothing else changes; several lamps are driven by ascending index, an
order that is the model's (assumption 30). The host silence timer stops and keeps its elapsed time (assumption 13). The HOLD
notice (cleared) shows match time 0 and phase SETUP and enters before the PHASE notice, a moment that is the model's choice
(assumption 32). -/
def Obligations.ClearMatchClears : Prop :=
  ∀ (s : State) (tag : Byte), s.accepts = true →
    ∃ t, exec (.clearMatch tag) s = .next t
      ∧ (s.mch.phase.inMatch = true → s.refuses t 0x0C tag .wrongPhase)
      ∧ (s.mch.phase.inMatch = false → s.mch.filtered = true → s.refuses t 0x0C tag .stopActive)
      ∧ (s.mch.phase.inMatch = false → s.mch.filtered = false →
          t.mch = { s.restartSilence.mch with phase := .setup, remaining := 0, matchTime := 0, tenthTimer := 0, stack := []
                                              pendingSet := PendingSet.empty }
          ∧ t.tu = { s.tu with cells := Vector.replicate 1344 Cell.zero, totals := Totals.zero, image := none, sending := none
                               finalWait := none }
          ∧ (∀ i, t.elem i = (s.elem i).map ElementRecord.cleared)
          ∧ (∀ k, t.robot k = { s.robot k with
              state := if (s.robot k).state = .ejected then .linked else (s.robot k).state, ejectedMark := false })
          ∧ t.roster = { s.roster with robots := t.roster.robots }
          ∧ (∀ e ∈ t.ebc.queue, e.op ≠ .poll .closing) ∧ (∀ i, (t.sched i).closingWanted = false)
          ∧ (∀ f, t.ebc.inFlight = some f → f.entry.op ≠ .poll .closing)
          ∧ (let lamps := (s.asksLamps (s.lampChanges t)).ebc
             let late (e : Entry) : Bool := match e.element.bind s.elem with
               | some r => decide (e.enteredAt + 20 * r.pollPeriod ≤ s.now)
               | none => false
             t.ebc = { lamps with
               queue := lamps.queue.map fun e =>
                 if e.op = .poll .closing then { e with op := .poll .refresh, cls := if late e then .control else .refresh } else e
               inFlight := s.ebc.inFlight.map fun f =>
                 if f.entry.op = .poll .closing then { f with entry := { f.entry with op := .poll .refresh } } else f
               sched := lamps.sched.map fun c => if c.closingWanted then { c with closingWanted := false, pollDue := true } else c })
          ∧ s.answers t [.roster, .elems, .ebc, .mch, .tu] 0x0C tag
              ((if s.mch.stack = [] ∧ s.mch.pendingSet = PendingSet.empty then []
                else [.hold 0 .setup (.cleared (s.mch.stack.reverse.map Hold.number)
                  ((if s.mch.pendingSet.fieldStop then [.fieldStop] else [])
                    ++ (if s.mch.pendingSet.elementFault.isSome then [.elementFault] else [])
                    ++ if s.mch.pendingSet.hostLost then [.hostLost] else []))])
                ++ [.phase .setup .clearMatch 0 0 false]
                ++ (match s.tu.sending, s.tu.image with
                  | some d, some m => [.sheetDone m.number d.order m.isFinal m.totals d.parts true]
                  | _, _ => []))
              .ok .empty)

/-- A tenth of match time: match time rises and phase remaining falls by one, every guard and every holder's held-for count,
claims at their hold limit expire, benches count down and end, and stations accrue, credit their holder, or note a trespass;
a station whose lit state changes has its lamp driven, and the alliance totals follow the cells. `u` is the state after that;
a tenth that leaves no phase remaining then runs the phase out in the same event. Where the spec orders nothing (the Claim
Arbiter before the stations, the hand-on before the phase that it ends, indices and slots ascending) the order is the
model's, assumption 30. With match time stopped the row changes nothing, and STATION_ACCRUAL_SECOND alone acts when one tenth
is missing (assumptions 1 and 3). -/
def Obligations.TenthOfMatchTime : Prop :=
  (∀ s : State, s.matchRuns = true →
    ∃ u, (if 2 ≤ s.mch.remaining then exec .matchTenth s = .next u else exec .matchTenth s = exec .ranOut u)
      ∧ s.onlyChanges u [.hlp, .roster, .elems, .ebc, .mch, .tu]
      ∧ u.mch = { s.mch with matchTime := s.mch.matchTime + 1, remaining := s.mch.remaining - 1, tenthTimer := 0 }
      ∧ (∀ i, u.elem i = (s.elem i).map ElementRecord.afterTenth)
      ∧ (∀ k, u.robot k = match (s.robot k).state, (s.robot k).bench with
          | .benched, some n =>
            if n ≤ 1 then { s.robot k with state := .active, bench := none } else { s.robot k with bench := some (n - 1) }
          | _, _ => s.robot k)
      ∧ u.roster = { s.roster with robots := u.roster.robots }
      ∧ (∀ row i, u.tu.cell row i = match (s.elem i).bind ElementRecord.creditAtTenth with
          | some (row', points) =>
            if row = row' then (s.tu.cell row i).add points else s.tu.cell row i
          | none => s.tu.cell row i)
      ∧ u.tu = { s.tu with cells := u.tu.cells, totals := s.totalsAfterTenth }
      ∧ u.hlp = s.hlp.raiseAll s.tenthNotices ∧ u.ebc = (s.asksLamps (s.lampChanges u)).ebc)
  ∧ (∀ s : State, s.matchRuns = false → exec .matchTenth s = .next s)
  ∧ ∀ (s : State) (i : Index) (r : ElementRecord) (p : StationPart) (k : Slot), s.matchRuns = true → s.elem i = some r →
      r.part = .station p → r.claim.holder = some k → r.accruing p = true → 9 ≤ p.accrual →
      ∃ t, exec (.stationAccrualSecond i) s = .next t ∧ s.onlyChanges t [.elems, .tu] ∧ s.elemsBut t i
        ∧ t.elem i = some { r with part := .station { p with accrual := 0 } }
        ∧ t.tu = s.creditedTu (some (slotRow k)) i [p.pointsPerSecond]

/-! ## Holds -/

/-- HOLD pushes a hold with the host's tag, or is refused with a full stack. RESUME names the top hold, and not one whose
line is still asserted: it is popped; a pending hold is pushed in its place, FIELD_STOP before HOST_LOST before
ELEMENT_FAULT; and when the stack is empty every HALTED carriage runs again. The hold number of a push is free on the
stack. Several MOTION entries that a push discards are noticed oldest first, and several carriages run again by ascending index,
both orders the model's (assumption 30). -/
def Obligations.HoldPushesAndResumePops : Prop :=
  (∀ m : Mch, m.stack.length ≤ 6 → m.nextHold ≠ 0 ∧ m.nextHold ∉ m.stack.map Hold.number
    ∧ (nextNumber m.lastNumber ∉ m.stack.map Hold.number → m.nextHold = nextNumber m.lastNumber))
  ∧ (∀ (s : State) (tag holdTag : Byte), s.accepts = true →
    ∃ t, exec (.hold tag holdTag) s = .next t
      ∧ if 6 ≤ s.mch.stack.length then s.refuses t 0x0D tag .holdFull
        else s.restartSilence.pushes t .hostHold (some holdTag)
          ∧ t.hlp = s.hlp.answer (s.pushNotices .hostHold (some holdTag)) 0x0D tag .ok (.holdNumber s.mch.nextHold))
  ∧ ∀ (s : State) (tag number : Byte), s.accepts = true →
    ∃ t, exec (.resume tag number) s = .next t
      ∧ if number = 0 then s.refuses t 0x0E tag .badValue
        else match s.mch.stack with
        | [] => s.refuses t 0x0E tag .wrongHold
        | top :: rest =>
          if top.number ≠ number then s.refuses t 0x0E tag .wrongHold
          else if top.cause = .fieldStop ∧ s.mch.filtered = true then s.refuses t 0x0E tag .stopActive
          else
            let popped : Notice := .hold s.mch.matchTime s.mch.phase (.popped top.number top.cause top.detail rest.length)
            let u : State := { s.restartSilence with mch := { s.restartSilence.mch with stack := rest } }
            let pushed (left : PendingSet) (cause : HoldCause) (detail : Option Byte) : Prop :=
              let v : State := { u with mch := { u.mch with pendingSet := left } }
              v.pushes t cause detail ∧ t.hlp = s.hlp.answer (popped :: v.pushNotices cause detail) 0x0E tag .ok
                (.resumed (rest.length + 1) (some v.mch.nextHold))
            let pending := s.mch.pendingSet
            if pending.fieldStop = true then pushed { pending with fieldStop := false } .fieldStop none
            else if pending.hostLost = true then pushed { pending with hostLost := false } .hostLost none
            else match pending.elementFault with
            | some i => pushed { pending with elementFault := none } .elementFault (some (indexByte i))
            | none =>
              t.mch = u.mch ∧ t.hlp = s.hlp.answer [popped] 0x0E tag .ok (.resumed rest.length none)
              ∧ (rest ≠ [] → s.restartSilence.onlyChanges t [.hlp, .mch])
              ∧ (rest = [] → s.restartSilence.onlyChanges t [.hlp, .elems, .ebc, .mch] ∧ t.ebc = (s.asksAll s.restartAsks).ebc
                  ∧ ∀ i, match s.carriageAt i, s.elem i with
                | some p, some r =>
                  if p.runState = .halted then ∃ q, t.elem i = some { r with part := .carriage q } ∧ t.speedAsked i q.commanded
                    ∧ match r.reading with
                      | some (.carriage zone _ _ _ _) => q = { p with runState := .running, speedZone := some zone
                                                                      commanded := match p.direction with
                          | .forward => (p.zoneSpeeds[zone.val] : Int)
                          | .reverse => -(p.zoneSpeeds[zone.val] : Int) }
                      | _ => q = { p with runState := .running }
                  else t.elem i = s.elem i
                | _, _ => t.elem i = s.elem i)

/-- The FIELD_STOP filter follows a changed raw level after its time, and requests a push when it asserts; the host
silence timer at its limit requests a push and stays expired. An event that is not due changes nothing (assumption 1). Several
MOTION entries that a push discards are noticed oldest first, an order that is the model's (assumption 30). -/
def Obligations.LineAndTimerRequestPushes : Prop :=
  (∀ (s : State) (level : Bool), exec (.fieldStopLineChange level) s =
    .next (if s.mch.raw = level then s else { s with mch := { s.mch with raw := level, rawHeld := 0 } }))
  ∧ (∀ s : State, s.mch.raw = true → s.mch.filtered = false → ∃ t, exec .fieldStopAsserted s = .next t
      ∧ ({ s with mch := { s.mch with filtered := true } } : State).pushRequested t .fieldStop)
  ∧ (∀ s : State, s.mch.raw = false ∨ s.mch.filtered = true → exec .fieldStopAsserted s = .next s)
  ∧ (∀ s : State, exec .fieldStopReleased s = .next (if s.mch.raw = false ∧ s.mch.filtered = true then
      { s with mch := { s.mch with filtered := false } } else s))
  ∧ (∀ s : State, s.silenceRunning = true → ∃ t, exec .hostSilenceExpiry s = .next t
      ∧ ({ s with mch := { s.mch with silenceElapsed := 20000 * s.mch.hostLimit, silenceExpired := true } } : State).pushRequested
          t .hostLost)
  ∧ (∀ s : State, s.silenceRunning = false → exec .hostSilenceExpiry s = .next s)
  ∧ ∀ s : State, s.silenceRunning = true ↔ s.mch.phase ≠ .setup ∧ s.mch.phase ≠ .ended ∧ s.mch.hostLimit ≠ 0
      ∧ s.mch.silenceExpired = false

/-- HALT_OUT is asserted while the hold stack is non-empty or the filtered FIELD_STOP line is asserted, and released
otherwise; it is released at the end of a reset. A slot is given RUN when its robot is ACTIVE and not silent, the phase
is OPENING, PLAY or FINALE, the stack is empty and the filtered line released; the beacon entry built at that moment
carries that grant. -/
def Obligations.HaltOutAndTheGrant : Prop :=
  (∀ s : State, s.haltOut = true ↔ s.mch.stack ≠ [] ∨ s.mch.filtered = true)
  ∧ (∀ cause raw pending, (State.afterReset cause raw pending).haltOut = false)
  ∧ (∀ (s : State) (k : Slot), s.runs k = true ↔ (s.robot k).state = .active ∧ (s.robot k).silent = false
      ∧ (s.mch.phase = .opening ∨ s.mch.phase = .play ∨ s.mch.phase = .finale) ∧ s.mch.stack = [] ∧ s.mch.filtered = false)
  ∧ ∀ (s : State) (k : Slot), (s.slotEntry k).run = s.runs k

/-! ## The tally -/

/-- ADJUST: its checks (the coding of the points first, and WRONG_PHASE before the ranges, assumption 15), and the points added
to the cell within −32767 and 32767, the mark set where a bound cut the sum, and the row's alliance total changed by what the
cell changed. -/
def Obligations.AdjustChangesACell : Prop :=
  ∀ (s : State) (tag row column : Byte) (points : Half), s.accepts = true →
    ∃ t, exec (.adjust tag row column points) s = .next t
      ∧ (points = 0x8000#16 → s.refuses t 0x1B tag .badValue)
      ∧ (points ≠ 0x8000#16 → s.mch.phase = .setup ∨ s.mch.phase = .staged → s.refuses t 0x1B tag .wrongPhase)
      ∧ (s.mch.phase ≠ .setup → s.mch.phase ≠ .staged → (28 ≤ row.toNat ∨ 48 ≤ column.toNat ∨ points = 0) →
          s.refuses t 0x1B tag .badValue)
      ∧ ∀ (ρ : Fin 28) (i : Index), points ≠ 0x8000#16 → points ≠ 0 → s.mch.phase ≠ .setup → s.mch.phase ≠ .staged →
          row.toNat = ρ.val → column.toNat = i.val →
          let old := s.tu.cell ρ i
          let sum := old.value + points.toInt
          let new : Cell :=
            { value := max (-32767) (min 32767 sum)
              saturated := old.saturated || decide (sum < -32767) || decide (32767 < sum) }
          let change := new.value - old.value
          let owner : Option Alliance := if h : ρ.val < 24 then
              if (s.robot ⟨ρ.val, h⟩).state = .vacant then none else (s.robot ⟨ρ.val, h⟩).alliance
            else some (if ρ = 24 then .a else if ρ = 25 then .b else if ρ = 26 then .c else .d)
          t.tu.cell ρ i = new ∧ (∀ row' column', ¬ (row' = ρ ∧ column' = i) → t.tu.cell row' column' = s.tu.cell row' column')
          ∧ t.tu = { s.tu with
              cells := t.tu.cells
              totals := { a := s.tu.totals.a + if owner = some .a then change else 0
                          b := s.tu.totals.b + if owner = some .b then change else 0
                          c := s.tu.totals.c + if owner = some .c then change else 0
                          d := s.tu.totals.d + if owner = some .d then change else 0 } }
          ∧ s.answers t [.tu] 0x1B tag [] .ok (.adjusted new change)

/-- SHEET takes a snapshot, begins a send of the image that stands, or both; its first parts enter behind its reply. A
send in flight refuses it, and a send without an image is refused, BUSY before NO_IMAGE (an order that is the model's, assumption
15). SHEET-STOP ends a send with its stopped SHEET_DONE,
after which a final snapshot that waited for the send is taken; without a send it changes nothing. -/
def Obligations.SheetAndSheetStop : Prop :=
  (∀ (s : State) (tag mode order : Byte), s.accepts = true →
    ∃ t, exec (.sheet tag mode order) s = .next t
      ∧ (2 < mode.toNat ∨ 1 < order.toNat → s.refuses t 0x1C tag .badValue)
      ∧ (mode.toNat ≤ 2 → order.toNat ≤ 1 → s.tu.sending.isSome → s.refuses t 0x1C tag .busy)
      ∧ ∀ o : SheetOrder, order = o.code → s.tu.sending = none →
          let m := s.imageNow false
          let snapped : Notice := .snapshotTaken m.number s.mch.phase s.mch.matchTime
          let sends (m : Image) (notices : List Notice) : Prop :=
            ∃ h parts, h = s.hlp.answer notices 0x1C tag .ok (.sheet m.number m.isFinal (some 84))
              ∧ parts = (if h.out.length ≤ 18 then 19 - h.out.length else 0)
              ∧ t.hlp = { h with
                  out := h.out ++ (List.range parts).map fun j =>
                    .notice (h.lost && j == 0) (.sheetPart m.number o (16 * j) ((List.range 16).map fun c => m.cellAt o (16 * j + c)))
                  lost := h.lost && parts == 0 }
              ∧ t.tu.image = some m ∧ t.tu.sending = some { order := o, parts := parts }
              ∧ t.tu = { s.tu with image := t.tu.image, sending := t.tu.sending, lastSnapshot := t.tu.lastSnapshot }
              ∧ s.restartSilence.onlyChanges t [.hlp, .tu]
          (mode = 0 → t.tu = { s.tu with image := some m, lastSnapshot := m.number }
            ∧ s.answers t [.tu] 0x1C tag [snapped] .ok (.sheet m.number false none))
          ∧ (mode = 1 → match s.tu.image with
            | none => s.refuses t 0x1C tag .noImage
            | some stands => sends stands [] ∧ t.tu.lastSnapshot = s.tu.lastSnapshot)
          ∧ (mode = 2 → sends m [snapped] ∧ t.tu.lastSnapshot = m.number))
  ∧ ∀ (s : State) (tag : Byte), s.accepts = true →
    ∃ t, exec (.sheetStop tag) s = .next t
      ∧ (s.tu.sending = none → s.answers t [] 0x1D tag [] .ok .sheetIdle)
      ∧ ∀ d m, s.tu.sending = some d → s.tu.image = some m →
          let idle : State := { s with tu := { s.tu with sending := none } }
          t.tu = (match s.tu.finalWait with
            | some wait => idle.finalTaken wait
            | none => idle.tu)
          ∧ s.answers t [.tu] 0x1D tag
              (.sheetDone m.number d.order m.isFinal m.totals d.parts true
                :: match s.tu.finalWait with
                  | some wait => idle.finalNotices wait
                  | none => [])
              .ok (.sheetStopped d.parts)

/-! ## What every step keeps -/

/-- The outbound queue keeps its limits, the tally its ranges, and the hold stack at most 6 records with different
numbers, with a pending hold only while it is full. Every alliance total stays the sum of its rows. -/
def Obligations.StepKeepsLinkTallyAndHolds : Prop :=
  ∀ s t : State, s.hlp.sound → s.tu.sound → s.mch.holdsSound → step s = .next t →
    t.hlp.sound ∧ t.tu.sound ∧ t.mch.holdsSound ∧ (s.totalsSound → t.totalsSound)

/-- The transaction queue keeps its limits, its age order and its one POLL, one LAMP and one MOTION for an element, and a
pending mark stands only while the queue is full and only for what is not queued. A queued MOTION fits its element's kind. -/
def Obligations.StepKeepsTheBusQueue : Prop :=
  ∀ s t : State, s.ebc.sound → s.motionsFit → step s = .next t → t.ebc.sound ∧ t.motionsFit

/-- No robot holds more than 2 elements, waits on more than 1, or waits while it holds 2; the robots of one element are
all different, at most 4 wait, and nobody waits on a free element. Every robot that holds or waits is ACTIVE, in OPENING to
FINALE, as long as every robot record is sound. -/
def Obligations.StepKeepsTheClaims : Prop :=
  ∀ s t : State, s.claimsSound → step s = .next t → t.claimsSound ∧ (s.roster.sound → s.claimantsActive → t.claimantsActive)

/-- Every robot record keeps what its state says of its fields, no team stands in two slots, and the limits keep their
order. -/
def Obligations.StepKeepsTheRoster : Prop :=
  ∀ s t : State, s.roster.sound → step s = .next t → t.roster.sound

/-- Every goal accounts for each piece, every count, accrual and failure count keeps its range, and no node address is
used twice. -/
def Obligations.StepKeepsTheFieldTable : Prop :=
  ∀ s t : State, s.fieldSound → step s = .next t → t.fieldSound

/-- What the steps keep holds in the state after a reset. -/
def Obligations.ResetIsSound : Prop :=
  State.reset.hlp.sound ∧ State.reset.tu.sound ∧ State.reset.totalsSound ∧ State.reset.mch.holdsSound ∧ State.reset.ebc.sound
    ∧ State.reset.motionsFit ∧ State.reset.claimsSound ∧ State.reset.claimantsActive ∧ State.reset.roster.sound
    ∧ State.reset.fieldSound

end
end

