-- ==== Sys2Proof/Laws/State.lean ====
section
/-! SUPPORT. One lemma per field and update of State, each true by rfl, and the lookups after an update. -/
namespace Sys2Proof.Machine

variable (s : State)

/-! `State.setHlp` -/

@[simp] theorem State.setHlp_hlp (h : Hlp) : (s.setHlp h).hlp = h := rfl
@[simp] theorem State.setHlp_rcc (h : Hlp) : (s.setHlp h).rcc = s.rcc := rfl
@[simp] theorem State.setHlp_roster (h : Hlp) : (s.setHlp h).roster = s.roster := rfl
@[simp] theorem State.setHlp_elems (h : Hlp) : (s.setHlp h).elems = s.elems := rfl
@[simp] theorem State.setHlp_ebc (h : Hlp) : (s.setHlp h).ebc = s.ebc := rfl
@[simp] theorem State.setHlp_mch (h : Hlp) : (s.setHlp h).mch = s.mch := rfl
@[simp] theorem State.setHlp_tu (h : Hlp) : (s.setHlp h).tu = s.tu := rfl
@[simp] theorem State.setHlp_now (h : Hlp) : (s.setHlp h).now = s.now := rfl
@[simp] theorem State.setHlp_pending (h : Hlp) : (s.setHlp h).pending = s.pending := rfl

/-! `State.setRcc` -/

@[simp] theorem State.setRcc_hlp (r : Rcc) : (s.setRcc r).hlp = s.hlp := rfl
@[simp] theorem State.setRcc_rcc (r : Rcc) : (s.setRcc r).rcc = r := rfl
@[simp] theorem State.setRcc_roster (r : Rcc) : (s.setRcc r).roster = s.roster := rfl
@[simp] theorem State.setRcc_elems (r : Rcc) : (s.setRcc r).elems = s.elems := rfl
@[simp] theorem State.setRcc_ebc (r : Rcc) : (s.setRcc r).ebc = s.ebc := rfl
@[simp] theorem State.setRcc_mch (r : Rcc) : (s.setRcc r).mch = s.mch := rfl
@[simp] theorem State.setRcc_tu (r : Rcc) : (s.setRcc r).tu = s.tu := rfl
@[simp] theorem State.setRcc_now (r : Rcc) : (s.setRcc r).now = s.now := rfl
@[simp] theorem State.setRcc_pending (r : Rcc) : (s.setRcc r).pending = s.pending := rfl

/-! `State.setRoster` -/

@[simp] theorem State.setRoster_hlp (r : Roster) : (s.setRoster r).hlp = s.hlp := rfl
@[simp] theorem State.setRoster_rcc (r : Roster) : (s.setRoster r).rcc = s.rcc := rfl
@[simp] theorem State.setRoster_roster (r : Roster) : (s.setRoster r).roster = r := rfl
@[simp] theorem State.setRoster_elems (r : Roster) : (s.setRoster r).elems = s.elems := rfl
@[simp] theorem State.setRoster_ebc (r : Roster) : (s.setRoster r).ebc = s.ebc := rfl
@[simp] theorem State.setRoster_mch (r : Roster) : (s.setRoster r).mch = s.mch := rfl
@[simp] theorem State.setRoster_tu (r : Roster) : (s.setRoster r).tu = s.tu := rfl
@[simp] theorem State.setRoster_now (r : Roster) : (s.setRoster r).now = s.now := rfl
@[simp] theorem State.setRoster_pending (r : Roster) : (s.setRoster r).pending = s.pending := rfl

/-! `State.setEbc` -/

@[simp] theorem State.setEbc_hlp (e : Ebc) : (s.setEbc e).hlp = s.hlp := rfl
@[simp] theorem State.setEbc_rcc (e : Ebc) : (s.setEbc e).rcc = s.rcc := rfl
@[simp] theorem State.setEbc_roster (e : Ebc) : (s.setEbc e).roster = s.roster := rfl
@[simp] theorem State.setEbc_elems (e : Ebc) : (s.setEbc e).elems = s.elems := rfl
@[simp] theorem State.setEbc_ebc (e : Ebc) : (s.setEbc e).ebc = e := rfl
@[simp] theorem State.setEbc_mch (e : Ebc) : (s.setEbc e).mch = s.mch := rfl
@[simp] theorem State.setEbc_tu (e : Ebc) : (s.setEbc e).tu = s.tu := rfl
@[simp] theorem State.setEbc_now (e : Ebc) : (s.setEbc e).now = s.now := rfl
@[simp] theorem State.setEbc_pending (e : Ebc) : (s.setEbc e).pending = s.pending := rfl

/-! `State.setMch` -/

@[simp] theorem State.setMch_hlp (m : Mch) : (s.setMch m).hlp = s.hlp := rfl
@[simp] theorem State.setMch_rcc (m : Mch) : (s.setMch m).rcc = s.rcc := rfl
@[simp] theorem State.setMch_roster (m : Mch) : (s.setMch m).roster = s.roster := rfl
@[simp] theorem State.setMch_elems (m : Mch) : (s.setMch m).elems = s.elems := rfl
@[simp] theorem State.setMch_ebc (m : Mch) : (s.setMch m).ebc = s.ebc := rfl
@[simp] theorem State.setMch_mch (m : Mch) : (s.setMch m).mch = m := rfl
@[simp] theorem State.setMch_tu (m : Mch) : (s.setMch m).tu = s.tu := rfl
@[simp] theorem State.setMch_now (m : Mch) : (s.setMch m).now = s.now := rfl
@[simp] theorem State.setMch_pending (m : Mch) : (s.setMch m).pending = s.pending := rfl

/-! `State.setTu` -/

@[simp] theorem State.setTu_hlp (t : Tu) : (s.setTu t).hlp = s.hlp := rfl
@[simp] theorem State.setTu_rcc (t : Tu) : (s.setTu t).rcc = s.rcc := rfl
@[simp] theorem State.setTu_roster (t : Tu) : (s.setTu t).roster = s.roster := rfl
@[simp] theorem State.setTu_elems (t : Tu) : (s.setTu t).elems = s.elems := rfl
@[simp] theorem State.setTu_ebc (t : Tu) : (s.setTu t).ebc = s.ebc := rfl
@[simp] theorem State.setTu_mch (t : Tu) : (s.setTu t).mch = s.mch := rfl
@[simp] theorem State.setTu_tu (t : Tu) : (s.setTu t).tu = t := rfl
@[simp] theorem State.setTu_now (t : Tu) : (s.setTu t).now = s.now := rfl
@[simp] theorem State.setTu_pending (t : Tu) : (s.setTu t).pending = s.pending := rfl

/-! `State.setElem` -/

@[simp] theorem State.setElem_hlp (i : Index) (r : Option ElementRecord) : (s.setElem i r).hlp = s.hlp := rfl
@[simp] theorem State.setElem_rcc (i : Index) (r : Option ElementRecord) : (s.setElem i r).rcc = s.rcc := rfl
@[simp] theorem State.setElem_roster (i : Index) (r : Option ElementRecord) : (s.setElem i r).roster = s.roster := rfl
@[simp] theorem State.setElem_elems (i : Index) (r : Option ElementRecord) : (s.setElem i r).elems = s.elems.set i.val r := rfl
@[simp] theorem State.setElem_ebc (i : Index) (r : Option ElementRecord) : (s.setElem i r).ebc = s.ebc := rfl
@[simp] theorem State.setElem_mch (i : Index) (r : Option ElementRecord) : (s.setElem i r).mch = s.mch := rfl
@[simp] theorem State.setElem_tu (i : Index) (r : Option ElementRecord) : (s.setElem i r).tu = s.tu := rfl
@[simp] theorem State.setElem_now (i : Index) (r : Option ElementRecord) : (s.setElem i r).now = s.now := rfl
@[simp] theorem State.setElem_pending (i : Index) (r : Option ElementRecord) : (s.setElem i r).pending = s.pending := rfl

/-! `State.setRobot` -/

@[simp] theorem State.setRobot_hlp (k : Slot) (r : RobotRecord) : (s.setRobot k r).hlp = s.hlp := rfl
@[simp] theorem State.setRobot_rcc (k : Slot) (r : RobotRecord) : (s.setRobot k r).rcc = s.rcc := rfl
@[simp] theorem State.setRobot_roster (k : Slot) (r : RobotRecord) : (s.setRobot k r).roster = { s.roster with robots := s.roster.robots.set k.val r } := rfl
@[simp] theorem State.setRobot_elems (k : Slot) (r : RobotRecord) : (s.setRobot k r).elems = s.elems := rfl
@[simp] theorem State.setRobot_ebc (k : Slot) (r : RobotRecord) : (s.setRobot k r).ebc = s.ebc := rfl
@[simp] theorem State.setRobot_mch (k : Slot) (r : RobotRecord) : (s.setRobot k r).mch = s.mch := rfl
@[simp] theorem State.setRobot_tu (k : Slot) (r : RobotRecord) : (s.setRobot k r).tu = s.tu := rfl
@[simp] theorem State.setRobot_now (k : Slot) (r : RobotRecord) : (s.setRobot k r).now = s.now := rfl
@[simp] theorem State.setRobot_pending (k : Slot) (r : RobotRecord) : (s.setRobot k r).pending = s.pending := rfl

/-! `State.setSched` -/

@[simp] theorem State.setSched_hlp (i : Index) (c : Sched) : (s.setSched i c).hlp = s.hlp := rfl
@[simp] theorem State.setSched_rcc (i : Index) (c : Sched) : (s.setSched i c).rcc = s.rcc := rfl
@[simp] theorem State.setSched_roster (i : Index) (c : Sched) : (s.setSched i c).roster = s.roster := rfl
@[simp] theorem State.setSched_elems (i : Index) (c : Sched) : (s.setSched i c).elems = s.elems := rfl
@[simp] theorem State.setSched_ebc (i : Index) (c : Sched) : (s.setSched i c).ebc = { s.ebc with sched := s.ebc.sched.set i.val c } := rfl
@[simp] theorem State.setSched_mch (i : Index) (c : Sched) : (s.setSched i c).mch = s.mch := rfl
@[simp] theorem State.setSched_tu (i : Index) (c : Sched) : (s.setSched i c).tu = s.tu := rfl
@[simp] theorem State.setSched_now (i : Index) (c : Sched) : (s.setSched i c).now = s.now := rfl
@[simp] theorem State.setSched_pending (i : Index) (c : Sched) : (s.setSched i c).pending = s.pending := rfl

/-! ## Lookups after an update -/

/-- A vector's entry after one is set, both places below the length. -/
theorem getElem_set_fin {α : Type} {n : Nat} (v : Vector α n) (i j : Fin n) (x : α) :
    (v.set i.val x)[j.val] = if j = i then x else v[j.val] := by
  rw [Vector.getElem_set]
  by_cases h : i = j
  · subst h; simp
  · rw [if_neg (fun e => h (Fin.ext e)), if_neg (fun e => h e.symm)]

theorem State.elem_setElem (i j : Index) (r : Option ElementRecord) :
    (s.setElem i r).elem j = if j = i then r else s.elem j := getElem_set_fin s.elems i j r

@[simp] theorem State.elem_setElem_self (i : Index) (r : Option ElementRecord) : (s.setElem i r).elem i = r := by
  rw [State.elem_setElem, if_pos rfl]

theorem State.robot_setRobot (k j : Slot) (r : RobotRecord) :
    (s.setRobot k r).robot j = if j = k then r else s.robot j := getElem_set_fin s.roster.robots k j r

@[simp] theorem State.robot_setRobot_self (k : Slot) (r : RobotRecord) : (s.setRobot k r).robot k = r := by
  rw [State.robot_setRobot, if_pos rfl]

theorem State.sched_setSched (i j : Index) (c : Sched) :
    (s.setSched i c).sched j = if j = i then c else s.sched j := getElem_set_fin s.ebc.sched i j c

@[simp] theorem State.sched_setSched_self (i : Index) (c : Sched) : (s.setSched i c).sched i = c := by
  rw [State.sched_setSched, if_pos rfl]

/-- A lookup reads one block alone. -/
theorem State.elem_congr {s t : State} (h : t.elems = s.elems) (i : Index) : t.elem i = s.elem i := by
  unfold State.elem; rw [h]

theorem State.robot_congr {s t : State} (h : t.roster = s.roster) (k : Slot) : t.robot k = s.robot k := by
  unfold State.robot; rw [h]

theorem State.sched_congr {s t : State} (h : t.ebc = s.ebc) (i : Index) : t.sched i = s.sched i := by
  unfold State.sched; rw [h]

@[simp] theorem State.elem_setHlp (x : Hlp) (i : Index) : (s.setHlp x).elem i = s.elem i := rfl
@[simp] theorem State.robot_setHlp (x : Hlp) (k : Slot) : (s.setHlp x).robot k = s.robot k := rfl
@[simp] theorem State.sched_setHlp (x : Hlp) (i : Index) : (s.setHlp x).sched i = s.sched i := rfl
@[simp] theorem State.elem_setRcc (x : Rcc) (i : Index) : (s.setRcc x).elem i = s.elem i := rfl
@[simp] theorem State.robot_setRcc (x : Rcc) (k : Slot) : (s.setRcc x).robot k = s.robot k := rfl
@[simp] theorem State.sched_setRcc (x : Rcc) (i : Index) : (s.setRcc x).sched i = s.sched i := rfl
@[simp] theorem State.elem_setRoster (x : Roster) (i : Index) : (s.setRoster x).elem i = s.elem i := rfl
@[simp] theorem State.sched_setRoster (x : Roster) (i : Index) : (s.setRoster x).sched i = s.sched i := rfl
@[simp] theorem State.elem_setEbc (x : Ebc) (i : Index) : (s.setEbc x).elem i = s.elem i := rfl
@[simp] theorem State.robot_setEbc (x : Ebc) (k : Slot) : (s.setEbc x).robot k = s.robot k := rfl
@[simp] theorem State.elem_setMch (x : Mch) (i : Index) : (s.setMch x).elem i = s.elem i := rfl
@[simp] theorem State.robot_setMch (x : Mch) (k : Slot) : (s.setMch x).robot k = s.robot k := rfl
@[simp] theorem State.sched_setMch (x : Mch) (i : Index) : (s.setMch x).sched i = s.sched i := rfl
@[simp] theorem State.elem_setTu (x : Tu) (i : Index) : (s.setTu x).elem i = s.elem i := rfl
@[simp] theorem State.robot_setTu (x : Tu) (k : Slot) : (s.setTu x).robot k = s.robot k := rfl
@[simp] theorem State.sched_setTu (x : Tu) (i : Index) : (s.setTu x).sched i = s.sched i := rfl
@[simp] theorem State.robot_setElem (i : Index) (r : Option ElementRecord) (k : Slot) : (s.setElem i r).robot k = s.robot k := rfl
@[simp] theorem State.sched_setElem (i j : Index) (r : Option ElementRecord) : (s.setElem i r).sched j = s.sched j := rfl
@[simp] theorem State.elem_setRobot (k : Slot) (r : RobotRecord) (i : Index) : (s.setRobot k r).elem i = s.elem i := rfl
@[simp] theorem State.sched_setRobot (k : Slot) (r : RobotRecord) (i : Index) : (s.setRobot k r).sched i = s.sched i := rfl
@[simp] theorem State.elem_setSched (i j : Index) (c : Sched) : (s.setSched i c).elem j = s.elem j := rfl
@[simp] theorem State.robot_setSched (i : Index) (c : Sched) (k : Slot) : (s.setSched i c).robot k = s.robot k := rfl

end Sys2Proof.Machine
end

