-- ==== Sys2Proof/Laws/Frames.lean ====
section
/-! SUPPORT. Frames: for each shared operation, the blocks of the state that it leaves as they are. -/
namespace Sys2Proof.Machine

variable (s : State)

/-! ## Walks -/

/-- What each step of a fold keeps, the fold keeps. -/
theorem foldl_keeps {α β γ : Type} (g : α → γ) (f : α → β → α) (h : ∀ a b, g (f a b) = g a) (l : List β) (a : α) :
    g (l.foldl f a) = g a := by
  induction l generalizing a with
  | nil => rfl
  | cons b l ih => rw [List.foldl_cons, ih, h]

@[simp] theorem State.eachIndex_hlp (f : Index → State → State) (h : ∀ i t, (f i t).hlp = t.hlp) :
    (s.eachIndex f).hlp = s.hlp := foldl_keeps State.hlp _ (fun t i => h i t) _ s
@[simp] theorem State.eachIndex_rcc (f : Index → State → State) (h : ∀ i t, (f i t).rcc = t.rcc) :
    (s.eachIndex f).rcc = s.rcc := foldl_keeps State.rcc _ (fun t i => h i t) _ s
@[simp] theorem State.eachIndex_roster (f : Index → State → State) (h : ∀ i t, (f i t).roster = t.roster) :
    (s.eachIndex f).roster = s.roster := foldl_keeps State.roster _ (fun t i => h i t) _ s
@[simp] theorem State.eachIndex_elems (f : Index → State → State) (h : ∀ i t, (f i t).elems = t.elems) :
    (s.eachIndex f).elems = s.elems := foldl_keeps State.elems _ (fun t i => h i t) _ s
@[simp] theorem State.eachIndex_ebc (f : Index → State → State) (h : ∀ i t, (f i t).ebc = t.ebc) :
    (s.eachIndex f).ebc = s.ebc := foldl_keeps State.ebc _ (fun t i => h i t) _ s
@[simp] theorem State.eachIndex_mch (f : Index → State → State) (h : ∀ i t, (f i t).mch = t.mch) :
    (s.eachIndex f).mch = s.mch := foldl_keeps State.mch _ (fun t i => h i t) _ s
@[simp] theorem State.eachIndex_tu (f : Index → State → State) (h : ∀ i t, (f i t).tu = t.tu) :
    (s.eachIndex f).tu = s.tu := foldl_keeps State.tu _ (fun t i => h i t) _ s
@[simp] theorem State.eachIndex_now (f : Index → State → State) (h : ∀ i t, (f i t).now = t.now) :
    (s.eachIndex f).now = s.now := foldl_keeps State.now _ (fun t i => h i t) _ s
@[simp] theorem State.eachIndex_pending (f : Index → State → State) (h : ∀ i t, (f i t).pending = t.pending) :
    (s.eachIndex f).pending = s.pending := foldl_keeps State.pending _ (fun t i => h i t) _ s

@[simp] theorem State.eachSlot_hlp (f : Slot → State → State) (h : ∀ k t, (f k t).hlp = t.hlp) :
    (s.eachSlot f).hlp = s.hlp := foldl_keeps State.hlp _ (fun t k => h k t) _ s
@[simp] theorem State.eachSlot_rcc (f : Slot → State → State) (h : ∀ k t, (f k t).rcc = t.rcc) :
    (s.eachSlot f).rcc = s.rcc := foldl_keeps State.rcc _ (fun t k => h k t) _ s
@[simp] theorem State.eachSlot_roster (f : Slot → State → State) (h : ∀ k t, (f k t).roster = t.roster) :
    (s.eachSlot f).roster = s.roster := foldl_keeps State.roster _ (fun t k => h k t) _ s
@[simp] theorem State.eachSlot_elems (f : Slot → State → State) (h : ∀ k t, (f k t).elems = t.elems) :
    (s.eachSlot f).elems = s.elems := foldl_keeps State.elems _ (fun t k => h k t) _ s
@[simp] theorem State.eachSlot_ebc (f : Slot → State → State) (h : ∀ k t, (f k t).ebc = t.ebc) :
    (s.eachSlot f).ebc = s.ebc := foldl_keeps State.ebc _ (fun t k => h k t) _ s
@[simp] theorem State.eachSlot_mch (f : Slot → State → State) (h : ∀ k t, (f k t).mch = t.mch) :
    (s.eachSlot f).mch = s.mch := foldl_keeps State.mch _ (fun t k => h k t) _ s
@[simp] theorem State.eachSlot_tu (f : Slot → State → State) (h : ∀ k t, (f k t).tu = t.tu) :
    (s.eachSlot f).tu = s.tu := foldl_keeps State.tu _ (fun t k => h k t) _ s
@[simp] theorem State.eachSlot_now (f : Slot → State → State) (h : ∀ k t, (f k t).now = t.now) :
    (s.eachSlot f).now = s.now := foldl_keeps State.now _ (fun t k => h k t) _ s
@[simp] theorem State.eachSlot_pending (f : Slot → State → State) (h : ∀ k t, (f k t).pending = t.pending) :
    (s.eachSlot f).pending = s.pending := foldl_keeps State.pending _ (fun t k => h k t) _ s

/-! ## Shared operations -/

@[simp] theorem State.modElem_frame (i : Index) (f : ElementRecord → ElementRecord) :
    (s.modElem i f).hlp = s.hlp ∧ (s.modElem i f).rcc = s.rcc ∧ (s.modElem i f).roster = s.roster ∧
      (s.modElem i f).ebc = s.ebc ∧ (s.modElem i f).mch = s.mch ∧ (s.modElem i f).tu = s.tu ∧
      (s.modElem i f).now = s.now ∧ (s.modElem i f).pending = s.pending := by
  unfold State.modElem; split <;> simp

@[simp] theorem State.modRobot_frame (k : Slot) (f : RobotRecord → RobotRecord) :
    (s.modRobot k f).hlp = s.hlp ∧ (s.modRobot k f).rcc = s.rcc ∧ (s.modRobot k f).elems = s.elems ∧
      (s.modRobot k f).ebc = s.ebc ∧ (s.modRobot k f).mch = s.mch ∧ (s.modRobot k f).tu = s.tu ∧
      (s.modRobot k f).now = s.now ∧ (s.modRobot k f).pending = s.pending := by
  simp [State.modRobot]

@[simp] theorem State.modSched_frame (i : Index) (f : Sched → Sched) :
    (s.modSched i f).hlp = s.hlp ∧ (s.modSched i f).rcc = s.rcc ∧ (s.modSched i f).roster = s.roster ∧
      (s.modSched i f).elems = s.elems ∧ (s.modSched i f).mch = s.mch ∧ (s.modSched i f).tu = s.tu ∧
      (s.modSched i f).now = s.now ∧ (s.modSched i f).pending = s.pending := by
  simp [State.modSched]

@[simp] theorem State.setPart_frame (i : Index) (p : KindPart) :
    (s.setPart i p).hlp = s.hlp ∧ (s.setPart i p).rcc = s.rcc ∧ (s.setPart i p).roster = s.roster ∧
      (s.setPart i p).ebc = s.ebc ∧ (s.setPart i p).mch = s.mch ∧ (s.setPart i p).tu = s.tu ∧
      (s.setPart i p).now = s.now ∧ (s.setPart i p).pending = s.pending := by
  simp [State.setPart]

@[simp] theorem State.raise_frame (n : Notice) :
    (s.raise n).rcc = s.rcc ∧ (s.raise n).roster = s.roster ∧ (s.raise n).elems = s.elems ∧ (s.raise n).ebc = s.ebc ∧
      (s.raise n).mch = s.mch ∧ (s.raise n).tu = s.tu ∧ (s.raise n).now = s.now ∧ (s.raise n).pending = s.pending := by
  simp [State.raise]

@[simp] theorem State.raiseHold_frame (w : HoldNotice) :
    (s.raiseHold w).rcc = s.rcc ∧ (s.raiseHold w).roster = s.roster ∧ (s.raiseHold w).elems = s.elems ∧
      (s.raiseHold w).ebc = s.ebc ∧ (s.raiseHold w).mch = s.mch ∧ (s.raiseHold w).tu = s.tu ∧
      (s.raiseHold w).now = s.now ∧ (s.raiseHold w).pending = s.pending := by
  simp [State.raiseHold]

@[simp] theorem State.raiseRobot_frame (k : Slot) (w : RobotNotice) :
    (s.raiseRobot k w).rcc = s.rcc ∧ (s.raiseRobot k w).roster = s.roster ∧ (s.raiseRobot k w).elems = s.elems ∧
      (s.raiseRobot k w).ebc = s.ebc ∧ (s.raiseRobot k w).mch = s.mch ∧ (s.raiseRobot k w).tu = s.tu ∧
      (s.raiseRobot k w).now = s.now ∧ (s.raiseRobot k w).pending = s.pending := by
  simp [State.raiseRobot]

@[simp] theorem State.raiseClaim_frame (w : ClaimNotice) :
    (s.raiseClaim w).rcc = s.rcc ∧ (s.raiseClaim w).roster = s.roster ∧ (s.raiseClaim w).elems = s.elems ∧
      (s.raiseClaim w).ebc = s.ebc ∧ (s.raiseClaim w).mch = s.mch ∧ (s.raiseClaim w).tu = s.tu ∧
      (s.raiseClaim w).now = s.now ∧ (s.raiseClaim w).pending = s.pending := by
  simp [State.raiseClaim]

@[simp] theorem State.raiseElement_frame (i : Index) (w : ElementNotice) :
    (s.raiseElement i w).rcc = s.rcc ∧ (s.raiseElement i w).roster = s.roster ∧
      (s.raiseElement i w).elems = s.elems ∧ (s.raiseElement i w).ebc = s.ebc ∧ (s.raiseElement i w).mch = s.mch ∧
      (s.raiseElement i w).tu = s.tu ∧ (s.raiseElement i w).now = s.now ∧ (s.raiseElement i w).pending = s.pending := by
  simp [State.raiseElement]

@[simp] theorem State.queueReply_frame (kind tag : Byte) (status : Status) (body : ReplyBody) :
    (s.queueReply kind tag status body).rcc = s.rcc ∧ (s.queueReply kind tag status body).roster = s.roster ∧
      (s.queueReply kind tag status body).elems = s.elems ∧ (s.queueReply kind tag status body).ebc = s.ebc ∧
      (s.queueReply kind tag status body).mch = s.mch ∧ (s.queueReply kind tag status body).tu = s.tu ∧
      (s.queueReply kind tag status body).now = s.now ∧ (s.queueReply kind tag status body).pending = s.pending := by
  simp [State.queueReply]

@[simp] theorem State.restartSilence_frame :
    (s.restartSilence).hlp = s.hlp ∧ (s.restartSilence).rcc = s.rcc ∧ (s.restartSilence).roster = s.roster ∧
      (s.restartSilence).elems = s.elems ∧ (s.restartSilence).ebc = s.ebc ∧ (s.restartSilence).tu = s.tu ∧
      (s.restartSilence).now = s.now ∧ (s.restartSilence).pending = s.pending := by
  unfold State.restartSilence; split <;> simp

@[simp] theorem State.answerNow_frame (k : Slot) (code : Answer) (detail : Option Nat) :
    (s.answerNow k code detail).hlp = s.hlp ∧ (s.answerNow k code detail).rcc = s.rcc ∧
      (s.answerNow k code detail).elems = s.elems ∧ (s.answerNow k code detail).ebc = s.ebc ∧
      (s.answerNow k code detail).mch = s.mch ∧ (s.answerNow k code detail).tu = s.tu ∧
      (s.answerNow k code detail).now = s.now ∧ (s.answerNow k code detail).pending = s.pending := by
  simp [State.answerNow]

@[simp] theorem State.answerLater_frame (k : Slot) (i : Index) (number : BitVec 4) (code : Answer) (detail : Option Nat) :
    (s.answerLater k i number code detail).hlp = s.hlp ∧ (s.answerLater k i number code detail).rcc = s.rcc ∧
      (s.answerLater k i number code detail).elems = s.elems ∧ (s.answerLater k i number code detail).ebc = s.ebc ∧
      (s.answerLater k i number code detail).mch = s.mch ∧ (s.answerLater k i number code detail).tu = s.tu ∧
      (s.answerLater k i number code detail).now = s.now ∧ (s.answerLater k i number code detail).pending = s.pending := by
  unfold State.answerLater; (repeat' split) <;> simp

@[simp] theorem State.modSticky_frame (i : Index) (f : Sticky → Sticky) :
    (s.modSticky i f).hlp = s.hlp ∧ (s.modSticky i f).rcc = s.rcc ∧ (s.modSticky i f).roster = s.roster ∧
      (s.modSticky i f).ebc = s.ebc ∧ (s.modSticky i f).mch = s.mch ∧ (s.modSticky i f).tu = s.tu ∧
      (s.modSticky i f).now = s.now ∧ (s.modSticky i f).pending = s.pending := by
  simp [State.modSticky]

/-! ## Tally -/

@[simp] theorem State.addPoints_frame (row : Fin 28) (column : Index) (points : Int) :
    (s.addPoints row column points).hlp = s.hlp ∧ (s.addPoints row column points).rcc = s.rcc ∧
      (s.addPoints row column points).roster = s.roster ∧ (s.addPoints row column points).elems = s.elems ∧
      (s.addPoints row column points).ebc = s.ebc ∧ (s.addPoints row column points).mch = s.mch ∧
      (s.addPoints row column points).now = s.now ∧ (s.addPoints row column points).pending = s.pending := by
  simp [State.addPoints]

@[simp] theorem State.credit_frame (row : Fin 28) (column : Index) (points : Nat) :
    (s.credit row column points).hlp = s.hlp ∧ (s.credit row column points).rcc = s.rcc ∧
      (s.credit row column points).roster = s.roster ∧ (s.credit row column points).elems = s.elems ∧
      (s.credit row column points).ebc = s.ebc ∧ (s.credit row column points).mch = s.mch ∧
      (s.credit row column points).now = s.now ∧ (s.credit row column points).pending = s.pending := by
  unfold State.credit; split <;> simp

@[simp] theorem State.snapshot_frame (isFinal : Bool) :
    (s.snapshot isFinal).hlp = s.hlp ∧ (s.snapshot isFinal).rcc = s.rcc ∧ (s.snapshot isFinal).roster = s.roster ∧
      (s.snapshot isFinal).elems = s.elems ∧ (s.snapshot isFinal).ebc = s.ebc ∧ (s.snapshot isFinal).mch = s.mch ∧
      (s.snapshot isFinal).now = s.now ∧ (s.snapshot isFinal).pending = s.pending := by
  simp [State.snapshot]

@[simp] theorem State.finalCheck_frame :
    (s.finalCheck).rcc = s.rcc ∧ (s.finalCheck).roster = s.roster ∧ (s.finalCheck).elems = s.elems ∧
      (s.finalCheck).ebc = s.ebc ∧ (s.finalCheck).mch = s.mch ∧ (s.finalCheck).now = s.now ∧
      (s.finalCheck).pending = s.pending := by
  unfold State.finalCheck; split <;> simp

@[simp] theorem State.captured_frame (i : Index) :
    (s.captured i).rcc = s.rcc ∧ (s.captured i).roster = s.roster ∧ (s.captured i).elems = s.elems ∧
      (s.captured i).ebc = s.ebc ∧ (s.captured i).mch = s.mch ∧ (s.captured i).now = s.now ∧
      (s.captured i).pending = s.pending := by
  unfold State.captured; (repeat' split) <;> simp

@[simp] theorem State.awaitFinal_frame (l : List Index) :
    (s.awaitFinal l).rcc = s.rcc ∧ (s.awaitFinal l).roster = s.roster ∧ (s.awaitFinal l).elems = s.elems ∧
      (s.awaitFinal l).ebc = s.ebc ∧ (s.awaitFinal l).mch = s.mch ∧ (s.awaitFinal l).now = s.now ∧
      (s.awaitFinal l).pending = s.pending := by
  simp [State.awaitFinal]

@[simp] theorem State.endSend_frame (stopped : Bool) :
    (s.endSend stopped).rcc = s.rcc ∧ (s.endSend stopped).roster = s.roster ∧ (s.endSend stopped).elems = s.elems ∧
      (s.endSend stopped).ebc = s.ebc ∧ (s.endSend stopped).mch = s.mch ∧ (s.endSend stopped).now = s.now ∧
      (s.endSend stopped).pending = s.pending := by
  unfold State.endSend; split <;> simp

@[simp] theorem State.pumpOne_frame :
    (s.pumpOne).rcc = s.rcc ∧ (s.pumpOne).roster = s.roster ∧ (s.pumpOne).elems = s.elems ∧ (s.pumpOne).ebc = s.ebc ∧
      (s.pumpOne).mch = s.mch ∧ (s.pumpOne).now = s.now ∧ (s.pumpOne).pending = s.pending := by
  unfold State.pumpOne; (repeat' split) <;> simp

@[simp] theorem State.pumpUpTo_frame (n : Nat) :
    (State.pumpUpTo n s).rcc = s.rcc ∧ (State.pumpUpTo n s).roster = s.roster ∧
      (State.pumpUpTo n s).elems = s.elems ∧ (State.pumpUpTo n s).ebc = s.ebc ∧ (State.pumpUpTo n s).mch = s.mch ∧
      (State.pumpUpTo n s).now = s.now ∧ (State.pumpUpTo n s).pending = s.pending := by
  induction n generalizing s with
  | zero => simp [State.pumpUpTo]
  | succ n ih => simp [State.pumpUpTo, ih]

@[simp] theorem State.pump_frame :
    (s.pump).rcc = s.rcc ∧ (s.pump).roster = s.roster ∧ (s.pump).elems = s.elems ∧ (s.pump).ebc = s.ebc ∧
      (s.pump).mch = s.mch ∧ (s.pump).now = s.now ∧ (s.pump).pending = s.pending := by
  simp [State.pump]

@[simp] theorem State.beginSend_frame (order : SheetOrder) :
    (s.beginSend order).hlp = s.hlp ∧ (s.beginSend order).rcc = s.rcc ∧ (s.beginSend order).roster = s.roster ∧
      (s.beginSend order).elems = s.elems ∧ (s.beginSend order).ebc = s.ebc ∧ (s.beginSend order).mch = s.mch ∧
      (s.beginSend order).now = s.now ∧ (s.beginSend order).pending = s.pending := by
  simp [State.beginSend]

@[simp] theorem State.clearTally_frame :
    (s.clearTally).rcc = s.rcc ∧ (s.clearTally).roster = s.roster ∧ (s.clearTally).elems = s.elems ∧
      (s.clearTally).ebc = s.ebc ∧ (s.clearTally).mch = s.mch ∧ (s.clearTally).now = s.now ∧
      (s.clearTally).pending = s.pending := by
  simp [State.clearTally]

@[simp] theorem State.hostSnapshot_frame :
    (s.hostSnapshot).rcc = s.rcc ∧ (s.hostSnapshot).roster = s.roster ∧ (s.hostSnapshot).elems = s.elems ∧
      (s.hostSnapshot).ebc = s.ebc ∧ (s.hostSnapshot).mch = s.mch ∧ (s.hostSnapshot).now = s.now ∧
      (s.hostSnapshot).pending = s.pending := by
  simp [State.hostSnapshot]

/-! ## Element bus -/

@[simp] theorem State.enter_frame (element : Option Index) (op : BusOp) (cls : TxClass) (origin : Origin) :
    (s.enter element op cls origin).hlp = s.hlp ∧ (s.enter element op cls origin).rcc = s.rcc ∧
      (s.enter element op cls origin).roster = s.roster ∧ (s.enter element op cls origin).elems = s.elems ∧
      (s.enter element op cls origin).mch = s.mch ∧ (s.enter element op cls origin).tu = s.tu ∧
      (s.enter element op cls origin).now = s.now ∧ (s.enter element op cls origin).pending = s.pending := by
  simp [State.enter]

@[simp] theorem State.mapQueue_frame (f : Entry → Entry) :
    (s.mapQueue f).hlp = s.hlp ∧ (s.mapQueue f).rcc = s.rcc ∧ (s.mapQueue f).roster = s.roster ∧
      (s.mapQueue f).elems = s.elems ∧ (s.mapQueue f).mch = s.mch ∧ (s.mapQueue f).tu = s.tu ∧
      (s.mapQueue f).now = s.now ∧ (s.mapQueue f).pending = s.pending := by
  simp [State.mapQueue]

@[simp] theorem State.askLamp_frame (i : Index) (on : Bool) :
    (s.askLamp i on).hlp = s.hlp ∧ (s.askLamp i on).rcc = s.rcc ∧ (s.askLamp i on).roster = s.roster ∧
      (s.askLamp i on).elems = s.elems ∧ (s.askLamp i on).mch = s.mch ∧ (s.askLamp i on).tu = s.tu ∧
      (s.askLamp i on).now = s.now ∧ (s.askLamp i on).pending = s.pending := by
  unfold State.askLamp; (repeat' split) <;> simp

@[simp] theorem State.askCarriage_frame (i : Index) (speed : Int) :
    (s.askCarriage i speed).hlp = s.hlp ∧ (s.askCarriage i speed).rcc = s.rcc ∧
      (s.askCarriage i speed).roster = s.roster ∧ (s.askCarriage i speed).elems = s.elems ∧
      (s.askCarriage i speed).mch = s.mch ∧ (s.askCarriage i speed).tu = s.tu ∧ (s.askCarriage i speed).now = s.now ∧
      (s.askCarriage i speed).pending = s.pending := by
  unfold State.askCarriage; (repeat' split) <;> simp

@[simp] theorem State.askClosing_frame (i : Index) :
    (s.askClosing i).hlp = s.hlp ∧ (s.askClosing i).rcc = s.rcc ∧ (s.askClosing i).roster = s.roster ∧
      (s.askClosing i).elems = s.elems ∧ (s.askClosing i).mch = s.mch ∧ (s.askClosing i).tu = s.tu ∧
      (s.askClosing i).now = s.now ∧ (s.askClosing i).pending = s.pending := by
  unfold State.askClosing; (repeat' split) <;> simp

@[simp] theorem State.askRefresh_frame (i : Index) :
    (s.askRefresh i).hlp = s.hlp ∧ (s.askRefresh i).rcc = s.rcc ∧ (s.askRefresh i).roster = s.roster ∧
      (s.askRefresh i).elems = s.elems ∧ (s.askRefresh i).mch = s.mch ∧ (s.askRefresh i).tu = s.tu ∧
      (s.askRefresh i).now = s.now ∧ (s.askRefresh i).pending = s.pending := by
  unfold State.askRefresh; (repeat' split) <;> simp

@[simp] theorem State.handOver_frame :
    (s.handOver).hlp = s.hlp ∧ (s.handOver).rcc = s.rcc ∧ (s.handOver).roster = s.roster ∧
      (s.handOver).elems = s.elems ∧ (s.handOver).mch = s.mch ∧ (s.handOver).tu = s.tu ∧ (s.handOver).now = s.now ∧
      (s.handOver).pending = s.pending := by
  unfold State.handOver; (repeat' split) <;> simp

@[simp] theorem State.handOverUpTo_frame (n : Nat) :
    (State.handOverUpTo n s).hlp = s.hlp ∧ (State.handOverUpTo n s).rcc = s.rcc ∧
      (State.handOverUpTo n s).roster = s.roster ∧ (State.handOverUpTo n s).elems = s.elems ∧
      (State.handOverUpTo n s).mch = s.mch ∧ (State.handOverUpTo n s).tu = s.tu ∧
      (State.handOverUpTo n s).now = s.now ∧ (State.handOverUpTo n s).pending = s.pending := by
  induction n generalizing s with
  | zero => simp [State.handOverUpTo]
  | succ n ih => simp [State.handOverUpTo, ih]

@[simp] theorem State.endTransaction_frame :
    (s.endTransaction).hlp = s.hlp ∧ (s.endTransaction).rcc = s.rcc ∧ (s.endTransaction).roster = s.roster ∧
      (s.endTransaction).elems = s.elems ∧ (s.endTransaction).mch = s.mch ∧ (s.endTransaction).tu = s.tu ∧
      (s.endTransaction).now = s.now ∧ (s.endTransaction).pending = s.pending := by
  simp [State.endTransaction]

@[simp] theorem State.setDue_frame (i : Index) :
    (s.setDue i).hlp = s.hlp ∧ (s.setDue i).rcc = s.rcc ∧ (s.setDue i).roster = s.roster ∧
      (s.setDue i).elems = s.elems ∧ (s.setDue i).mch = s.mch ∧ (s.setDue i).tu = s.tu ∧ (s.setDue i).now = s.now ∧
      (s.setDue i).pending = s.pending := by
  unfold State.setDue; split <;> simp

@[simp] theorem State.gateIdle_frame (i : Index) :
    (s.gateIdle i).hlp = s.hlp ∧ (s.gateIdle i).rcc = s.rcc ∧ (s.gateIdle i).roster = s.roster ∧
      (s.gateIdle i).ebc = s.ebc ∧ (s.gateIdle i).mch = s.mch ∧ (s.gateIdle i).tu = s.tu ∧
      (s.gateIdle i).now = s.now ∧ (s.gateIdle i).pending = s.pending := by
  unfold State.gateIdle; split <;> simp

@[simp] theorem State.carriageDriveDiscarded_frame (i : Index) :
    (s.carriageDriveDiscarded i).hlp = s.hlp ∧ (s.carriageDriveDiscarded i).rcc = s.rcc ∧
      (s.carriageDriveDiscarded i).roster = s.roster ∧ (s.carriageDriveDiscarded i).ebc = s.ebc ∧
      (s.carriageDriveDiscarded i).mch = s.mch ∧ (s.carriageDriveDiscarded i).tu = s.tu ∧
      (s.carriageDriveDiscarded i).now = s.now ∧ (s.carriageDriveDiscarded i).pending = s.pending := by
  unfold State.carriageDriveDiscarded; (repeat' split) <;> simp

@[simp] theorem State.abandonPoll_frame :
    (s.abandonPoll).hlp = s.hlp ∧ (s.abandonPoll).rcc = s.rcc ∧ (s.abandonPoll).roster = s.roster ∧
      (s.abandonPoll).elems = s.elems ∧ (s.abandonPoll).mch = s.mch ∧ (s.abandonPoll).tu = s.tu ∧
      (s.abandonPoll).now = s.now ∧ (s.abandonPoll).pending = s.pending := by
  unfold State.abandonPoll; (repeat' split) <;> simp

@[simp] theorem State.clearRoles_frame :
    (s.clearRoles).hlp = s.hlp ∧ (s.clearRoles).rcc = s.rcc ∧ (s.clearRoles).roster = s.roster ∧
      (s.clearRoles).elems = s.elems ∧ (s.clearRoles).mch = s.mch ∧ (s.clearRoles).tu = s.tu ∧
      (s.clearRoles).now = s.now ∧ (s.clearRoles).pending = s.pending := by
  refine ⟨?_, ?_, ?_, ?_, ?_, ?_, ?_, ?_⟩ <;> (unfold State.clearRoles; simp)

@[simp] theorem State.startOnBus_frame (e : Entry) :
    (s.startOnBus e).hlp = s.hlp ∧ (s.startOnBus e).rcc = s.rcc ∧ (s.startOnBus e).roster = s.roster ∧
      (s.startOnBus e).elems = s.elems ∧ (s.startOnBus e).mch = s.mch ∧ (s.startOnBus e).tu = s.tu ∧
      (s.startOnBus e).now = s.now ∧ (s.startOnBus e).pending = s.pending := by
  simp [State.startOnBus]

/-! ## Goals -/

@[simp] theorem State.setGoal_frame (i : Index) (p : GoalPart) :
    (s.setGoal i p).hlp = s.hlp ∧ (s.setGoal i p).rcc = s.rcc ∧ (s.setGoal i p).roster = s.roster ∧
      (s.setGoal i p).ebc = s.ebc ∧ (s.setGoal i p).mch = s.mch ∧ (s.setGoal i p).tu = s.tu ∧
      (s.setGoal i p).now = s.now ∧ (s.setGoal i p).pending = s.pending := by
  simp [State.setGoal]

@[simp] theorem State.modGoal_frame (i : Index) (f : GoalPart → GoalPart) :
    (s.modGoal i f).hlp = s.hlp ∧ (s.modGoal i f).rcc = s.rcc ∧ (s.modGoal i f).roster = s.roster ∧
      (s.modGoal i f).ebc = s.ebc ∧ (s.modGoal i f).mch = s.mch ∧ (s.modGoal i f).tu = s.tu ∧
      (s.modGoal i f).now = s.now ∧ (s.modGoal i f).pending = s.pending := by
  unfold State.modGoal; split <;> simp

@[simp] theorem State.relightGoal_frame (i : Index) :
    (s.relightGoal i).hlp = s.hlp ∧ (s.relightGoal i).rcc = s.rcc ∧ (s.relightGoal i).roster = s.roster ∧
      (s.relightGoal i).mch = s.mch ∧ (s.relightGoal i).tu = s.tu ∧ (s.relightGoal i).now = s.now ∧
      (s.relightGoal i).pending = s.pending := by
  unfold State.relightGoal; dsimp only; (repeat' split) <;> simp

@[simp] theorem State.resyncGoalLamp_frame (i : Index) :
    (s.resyncGoalLamp i).hlp = s.hlp ∧ (s.resyncGoalLamp i).rcc = s.rcc ∧ (s.resyncGoalLamp i).roster = s.roster ∧
      (s.resyncGoalLamp i).mch = s.mch ∧ (s.resyncGoalLamp i).tu = s.tu ∧ (s.resyncGoalLamp i).now = s.now ∧
      (s.resyncGoalLamp i).pending = s.pending := by
  unfold State.resyncGoalLamp; (repeat' split) <;> simp

@[simp] theorem State.openWindow_frame (i : Index) :
    (s.openWindow i).rcc = s.rcc ∧ (s.openWindow i).roster = s.roster ∧ (s.openWindow i).mch = s.mch ∧
      (s.openWindow i).tu = s.tu ∧ (s.openWindow i).now = s.now ∧ (s.openWindow i).pending = s.pending := by
  unfold State.openWindow; split <;> simp

@[simp] theorem State.beginClose_frame (i : Index) :
    (s.beginClose i).hlp = s.hlp ∧ (s.beginClose i).rcc = s.rcc ∧ (s.beginClose i).roster = s.roster ∧
      (s.beginClose i).mch = s.mch ∧ (s.beginClose i).tu = s.tu ∧ (s.beginClose i).now = s.now ∧
      (s.beginClose i).pending = s.pending := by
  simp [State.beginClose]

@[simp] theorem State.evaluateGoal_frame (i : Index) :
    (s.evaluateGoal i).rcc = s.rcc ∧ (s.evaluateGoal i).roster = s.roster ∧ (s.evaluateGoal i).mch = s.mch ∧
      (s.evaluateGoal i).tu = s.tu ∧ (s.evaluateGoal i).now = s.now ∧ (s.evaluateGoal i).pending = s.pending := by
  unfold State.evaluateGoal; dsimp only; (repeat' split) <;> simp

@[simp] theorem State.endClosing_frame (i : Index) (failed : Bool) :
    (s.endClosing i failed).rcc = s.rcc ∧ (s.endClosing i failed).roster = s.roster ∧
      (s.endClosing i failed).mch = s.mch ∧ (s.endClosing i failed).now = s.now ∧
      (s.endClosing i failed).pending = s.pending := by
  unfold State.endClosing; (repeat' split) <;> simp

@[simp] theorem State.countPiece_frame (i : Index) :
    (s.countPiece i).rcc = s.rcc ∧ (s.countPiece i).roster = s.roster ∧ (s.countPiece i).mch = s.mch ∧
      (s.countPiece i).now = s.now ∧ (s.countPiece i).pending = s.pending := by
  unfold State.countPiece; dsimp only; (repeat' split) <;> simp

@[simp] theorem State.countPieces_frame (i : Index) (n : Nat) :
    (State.countPieces i n s).rcc = s.rcc ∧ (State.countPieces i n s).roster = s.roster ∧
      (State.countPieces i n s).mch = s.mch ∧ (State.countPieces i n s).now = s.now ∧
      (State.countPieces i n s).pending = s.pending := by
  induction n generalizing s with
  | zero => simp [State.countPieces]
  | succ n ih => simp [State.countPieces, ih]

@[simp] theorem State.attribute_frame (i : Index) (delta : Nat) :
    (s.attribute i delta).rcc = s.rcc ∧ (s.attribute i delta).roster = s.roster ∧ (s.attribute i delta).mch = s.mch ∧
      (s.attribute i delta).now = s.now ∧ (s.attribute i delta).pending = s.pending := by
  unfold State.attribute; dsimp only; (repeat' split) <;> simp

@[simp] theorem State.goalPolled_frame (i : Index) (role : PollRole) (delta : Nat) (restarted : Bool) :
    (s.goalPolled i role delta restarted).rcc = s.rcc ∧ (s.goalPolled i role delta restarted).roster = s.roster ∧
      (s.goalPolled i role delta restarted).mch = s.mch ∧ (s.goalPolled i role delta restarted).now = s.now ∧
      (s.goalPolled i role delta restarted).pending = s.pending := by
  unfold State.goalPolled; dsimp only; (repeat' split) <;> simp

@[simp] theorem State.goalFailed_frame (i : Index) (op : BusOp) :
    (s.goalFailed i op).rcc = s.rcc ∧ (s.goalFailed i op).roster = s.roster ∧ (s.goalFailed i op).mch = s.mch ∧
      (s.goalFailed i op).now = s.now ∧ (s.goalFailed i op).pending = s.pending := by
  unfold State.goalFailed; (repeat' split) <;> simp

@[simp] theorem State.clearGoal_frame (i : Index) :
    (s.clearGoal i).hlp = s.hlp ∧ (s.clearGoal i).rcc = s.rcc ∧ (s.clearGoal i).roster = s.roster ∧
      (s.clearGoal i).mch = s.mch ∧ (s.clearGoal i).tu = s.tu ∧ (s.clearGoal i).now = s.now ∧
      (s.clearGoal i).pending = s.pending := by
  simp [State.clearGoal]

/-! ## Stations -/

@[simp] theorem State.setStation_frame (i : Index) (p : StationPart) :
    (s.setStation i p).hlp = s.hlp ∧ (s.setStation i p).rcc = s.rcc ∧ (s.setStation i p).roster = s.roster ∧
      (s.setStation i p).ebc = s.ebc ∧ (s.setStation i p).mch = s.mch ∧ (s.setStation i p).tu = s.tu ∧
      (s.setStation i p).now = s.now ∧ (s.setStation i p).pending = s.pending := by
  simp [State.setStation]

@[simp] theorem State.modStation_frame (i : Index) (f : StationPart → StationPart) :
    (s.modStation i f).hlp = s.hlp ∧ (s.modStation i f).rcc = s.rcc ∧ (s.modStation i f).roster = s.roster ∧
      (s.modStation i f).ebc = s.ebc ∧ (s.modStation i f).mch = s.mch ∧ (s.modStation i f).tu = s.tu ∧
      (s.modStation i f).now = s.now ∧ (s.modStation i f).pending = s.pending := by
  unfold State.modStation; split <;> simp

@[simp] theorem State.relightStation_frame (i : Index) :
    (s.relightStation i).hlp = s.hlp ∧ (s.relightStation i).rcc = s.rcc ∧ (s.relightStation i).roster = s.roster ∧
      (s.relightStation i).mch = s.mch ∧ (s.relightStation i).tu = s.tu ∧ (s.relightStation i).now = s.now ∧
      (s.relightStation i).pending = s.pending := by
  unfold State.relightStation; dsimp only; (repeat' split) <;> simp

@[simp] theorem State.holderChanged_frame (i : Index) :
    (s.holderChanged i).hlp = s.hlp ∧ (s.holderChanged i).rcc = s.rcc ∧ (s.holderChanged i).roster = s.roster ∧
      (s.holderChanged i).mch = s.mch ∧ (s.holderChanged i).tu = s.tu ∧ (s.holderChanged i).now = s.now ∧
      (s.holderChanged i).pending = s.pending := by
  simp [State.holderChanged]

@[simp] theorem State.resyncStationLamp_frame (i : Index) :
    (s.resyncStationLamp i).hlp = s.hlp ∧ (s.resyncStationLamp i).rcc = s.rcc ∧
      (s.resyncStationLamp i).roster = s.roster ∧ (s.resyncStationLamp i).mch = s.mch ∧
      (s.resyncStationLamp i).tu = s.tu ∧ (s.resyncStationLamp i).now = s.now ∧
      (s.resyncStationLamp i).pending = s.pending := by
  unfold State.resyncStationLamp; (repeat' split) <;> simp

@[simp] theorem State.evaluateStation_frame (i : Index) :
    (s.evaluateStation i).hlp = s.hlp ∧ (s.evaluateStation i).rcc = s.rcc ∧ (s.evaluateStation i).roster = s.roster ∧
      (s.evaluateStation i).ebc = s.ebc ∧ (s.evaluateStation i).mch = s.mch ∧ (s.evaluateStation i).tu = s.tu ∧
      (s.evaluateStation i).now = s.now ∧ (s.evaluateStation i).pending = s.pending := by
  unfold State.evaluateStation; dsimp only; (repeat' split) <;> simp

@[simp] theorem State.evaluateWindows_frame :
    (s.evaluateWindows).rcc = s.rcc ∧ (s.evaluateWindows).roster = s.roster ∧ (s.evaluateWindows).mch = s.mch ∧
      (s.evaluateWindows).tu = s.tu ∧ (s.evaluateWindows).now = s.now ∧ (s.evaluateWindows).pending = s.pending := by
  refine ⟨?_, ?_, ?_, ?_, ?_, ?_⟩ <;> simp [State.evaluateWindows]

@[simp] theorem State.trespassTest_frame (i : Index) :
    (s.trespassTest i).rcc = s.rcc ∧ (s.trespassTest i).roster = s.roster ∧ (s.trespassTest i).ebc = s.ebc ∧
      (s.trespassTest i).mch = s.mch ∧ (s.trespassTest i).tu = s.tu ∧ (s.trespassTest i).now = s.now ∧
      (s.trespassTest i).pending = s.pending := by
  unfold State.trespassTest; (repeat' split) <;> simp

@[simp] theorem State.accrue_frame (i : Index) :
    (s.accrue i).hlp = s.hlp ∧ (s.accrue i).rcc = s.rcc ∧ (s.accrue i).roster = s.roster ∧ (s.accrue i).ebc = s.ebc ∧
      (s.accrue i).mch = s.mch ∧ (s.accrue i).now = s.now ∧ (s.accrue i).pending = s.pending := by
  unfold State.accrue; (repeat' split) <;> simp

@[simp] theorem State.stationTenth_frame (i : Index) :
    (s.stationTenth i).rcc = s.rcc ∧ (s.stationTenth i).roster = s.roster ∧ (s.stationTenth i).ebc = s.ebc ∧
      (s.stationTenth i).mch = s.mch ∧ (s.stationTenth i).now = s.now ∧ (s.stationTenth i).pending = s.pending := by
  simp [State.stationTenth]

@[simp] theorem State.stationPolled_frame (i : Index) (occupied restarted : Bool) :
    (s.stationPolled i occupied restarted).rcc = s.rcc ∧ (s.stationPolled i occupied restarted).roster = s.roster ∧
      (s.stationPolled i occupied restarted).mch = s.mch ∧ (s.stationPolled i occupied restarted).tu = s.tu ∧
      (s.stationPolled i occupied restarted).now = s.now ∧ (s.stationPolled i occupied restarted).pending = s.pending := by
  simp [State.stationPolled]

@[simp] theorem State.stationFailed_frame (i : Index) (op : BusOp) :
    (s.stationFailed i op).hlp = s.hlp ∧ (s.stationFailed i op).rcc = s.rcc ∧
      (s.stationFailed i op).roster = s.roster ∧ (s.stationFailed i op).ebc = s.ebc ∧
      (s.stationFailed i op).mch = s.mch ∧ (s.stationFailed i op).tu = s.tu ∧ (s.stationFailed i op).now = s.now ∧
      (s.stationFailed i op).pending = s.pending := by
  unfold State.stationFailed; split <;> simp

@[simp] theorem State.clearStation_frame (i : Index) :
    (s.clearStation i).hlp = s.hlp ∧ (s.clearStation i).rcc = s.rcc ∧ (s.clearStation i).roster = s.roster ∧
      (s.clearStation i).ebc = s.ebc ∧ (s.clearStation i).mch = s.mch ∧ (s.clearStation i).tu = s.tu ∧
      (s.clearStation i).now = s.now ∧ (s.clearStation i).pending = s.pending := by
  simp [State.clearStation]

/-! ## Gates -/

@[simp] theorem State.setGate_frame (i : Index) (p : GatePart) :
    (s.setGate i p).hlp = s.hlp ∧ (s.setGate i p).rcc = s.rcc ∧ (s.setGate i p).roster = s.roster ∧
      (s.setGate i p).ebc = s.ebc ∧ (s.setGate i p).mch = s.mch ∧ (s.setGate i p).tu = s.tu ∧
      (s.setGate i p).now = s.now ∧ (s.setGate i p).pending = s.pending := by
  simp [State.setGate]

@[simp] theorem State.gateDone_frame (i : Index) (target : GateTarget) (origin : Origin) (position : Option GatePosition) :
    (s.gateDone i target origin position).rcc = s.rcc ∧ (s.gateDone i target origin position).ebc = s.ebc ∧
      (s.gateDone i target origin position).mch = s.mch ∧ (s.gateDone i target origin position).tu = s.tu ∧
      (s.gateDone i target origin position).now = s.now ∧ (s.gateDone i target origin position).pending = s.pending := by
  unfold State.gateDone; split <;> simp

@[simp] theorem State.gateFails_frame (i : Index) (target : GateTarget) (origin : Origin) (position : Option GatePosition) (cause : GateFailure) :
    (s.gateFails i target origin position cause).rcc = s.rcc ∧
      (s.gateFails i target origin position cause).ebc = s.ebc ∧
      (s.gateFails i target origin position cause).mch = s.mch ∧
      (s.gateFails i target origin position cause).tu = s.tu ∧
      (s.gateFails i target origin position cause).now = s.now ∧
      (s.gateFails i target origin position cause).pending = s.pending := by
  unfold State.gateFails; split <;> simp

@[simp] theorem State.gatePolled_frame (i : Index) (position : GatePosition) :
    (s.gatePolled i position).rcc = s.rcc ∧ (s.gatePolled i position).ebc = s.ebc ∧
      (s.gatePolled i position).mch = s.mch ∧ (s.gatePolled i position).tu = s.tu ∧
      (s.gatePolled i position).now = s.now ∧ (s.gatePolled i position).pending = s.pending := by
  unfold State.gatePolled; (repeat' split) <;> simp

@[simp] theorem State.gateDriven_frame (i : Index) :
    (s.gateDriven i).hlp = s.hlp ∧ (s.gateDriven i).rcc = s.rcc ∧ (s.gateDriven i).roster = s.roster ∧
      (s.gateDriven i).ebc = s.ebc ∧ (s.gateDriven i).mch = s.mch ∧ (s.gateDriven i).tu = s.tu ∧
      (s.gateDriven i).now = s.now ∧ (s.gateDriven i).pending = s.pending := by
  unfold State.gateDriven; (repeat' split) <;> simp

@[simp] theorem State.gateFailed_frame (i : Index) (op : BusOp) :
    (s.gateFailed i op).rcc = s.rcc ∧ (s.gateFailed i op).ebc = s.ebc ∧ (s.gateFailed i op).mch = s.mch ∧
      (s.gateFailed i op).tu = s.tu ∧ (s.gateFailed i op).now = s.now ∧ (s.gateFailed i op).pending = s.pending := by
  unfold State.gateFailed; (repeat' split) <;> simp

@[simp] theorem State.sendGate_frame (i : Index) (p : GatePart) (target : GateTarget) (origin : Origin) :
    (s.sendGate i p target origin).hlp = s.hlp ∧ (s.sendGate i p target origin).rcc = s.rcc ∧
      (s.sendGate i p target origin).roster = s.roster ∧ (s.sendGate i p target origin).mch = s.mch ∧
      (s.sendGate i p target origin).tu = s.tu ∧ (s.sendGate i p target origin).now = s.now ∧
      (s.sendGate i p target origin).pending = s.pending := by
  simp [State.sendGate]

@[simp] theorem State.actOn_frame (k : Slot) (number : BitVec 4) (element : Byte) (target : GateTarget) :
    (s.actOn k number element target).hlp = s.hlp ∧ (s.actOn k number element target).rcc = s.rcc ∧
      (s.actOn k number element target).mch = s.mch ∧ (s.actOn k number element target).tu = s.tu ∧
      (s.actOn k number element target).now = s.now ∧ (s.actOn k number element target).pending = s.pending := by
  unfold State.actOn; (repeat' split) <;> simp

/-! ## Carriages -/

@[simp] theorem State.setCarriage_frame (i : Index) (p : CarriagePart) :
    (s.setCarriage i p).hlp = s.hlp ∧ (s.setCarriage i p).rcc = s.rcc ∧ (s.setCarriage i p).roster = s.roster ∧
      (s.setCarriage i p).ebc = s.ebc ∧ (s.setCarriage i p).mch = s.mch ∧ (s.setCarriage i p).tu = s.tu ∧
      (s.setCarriage i p).now = s.now ∧ (s.setCarriage i p).pending = s.pending := by
  simp [State.setCarriage]

@[simp] theorem State.driveCarriage_frame (i : Index) (p : CarriagePart) :
    (s.driveCarriage i p).hlp = s.hlp ∧ (s.driveCarriage i p).rcc = s.rcc ∧ (s.driveCarriage i p).roster = s.roster ∧
      (s.driveCarriage i p).mch = s.mch ∧ (s.driveCarriage i p).tu = s.tu ∧ (s.driveCarriage i p).now = s.now ∧
      (s.driveCarriage i p).pending = s.pending := by
  simp [State.driveCarriage]

@[simp] theorem State.carriageStep_frame (i : Index) (p : CarriagePart) (zone : Fin 8) (front rear : Bool) :
    (s.carriageStep i p zone front rear).rcc = s.rcc ∧ (s.carriageStep i p zone front rear).roster = s.roster ∧
      (s.carriageStep i p zone front rear).mch = s.mch ∧ (s.carriageStep i p zone front rear).tu = s.tu ∧
      (s.carriageStep i p zone front rear).now = s.now ∧ (s.carriageStep i p zone front rear).pending = s.pending := by
  unfold State.carriageStep; (repeat' split) <;> simp

@[simp] theorem State.resyncCarriage_frame (i : Index) :
    (s.resyncCarriage i).hlp = s.hlp ∧ (s.resyncCarriage i).rcc = s.rcc ∧ (s.resyncCarriage i).roster = s.roster ∧
      (s.resyncCarriage i).mch = s.mch ∧ (s.resyncCarriage i).tu = s.tu ∧ (s.resyncCarriage i).now = s.now ∧
      (s.resyncCarriage i).pending = s.pending := by
  unfold State.resyncCarriage; (repeat' split) <;> simp

@[simp] theorem State.carriageFault_frame (i : Index) (cause : CarriageStop) :
    (s.carriageFault i cause).rcc = s.rcc ∧ (s.carriageFault i cause).roster = s.roster ∧
      (s.carriageFault i cause).mch = s.mch ∧ (s.carriageFault i cause).tu = s.tu ∧
      (s.carriageFault i cause).now = s.now ∧ (s.carriageFault i cause).pending = s.pending := by
  unfold State.carriageFault; (repeat' split) <;> simp

@[simp] theorem State.wantSpeed_frame (i : Index) :
    (s.wantSpeed i).hlp = s.hlp ∧ (s.wantSpeed i).rcc = s.rcc ∧ (s.wantSpeed i).roster = s.roster ∧
      (s.wantSpeed i).ebc = s.ebc ∧ (s.wantSpeed i).mch = s.mch ∧ (s.wantSpeed i).tu = s.tu ∧
      (s.wantSpeed i).now = s.now ∧ (s.wantSpeed i).pending = s.pending := by
  unfold State.wantSpeed; split <;> simp

@[simp] theorem State.carriagePolled_frame (i : Index) (zone : Fin 8) (front rear encoderFault restarted : Bool) :
    (s.carriagePolled i zone front rear encoderFault restarted).rcc = s.rcc ∧
      (s.carriagePolled i zone front rear encoderFault restarted).roster = s.roster ∧
      (s.carriagePolled i zone front rear encoderFault restarted).mch = s.mch ∧
      (s.carriagePolled i zone front rear encoderFault restarted).tu = s.tu ∧
      (s.carriagePolled i zone front rear encoderFault restarted).now = s.now ∧
      (s.carriagePolled i zone front rear encoderFault restarted).pending = s.pending := by
  unfold State.carriagePolled; dsimp only; (repeat' split) <;> simp

@[simp] theorem State.carriageFailed_frame (i : Index) (op : BusOp) :
    (s.carriageFailed i op).rcc = s.rcc ∧ (s.carriageFailed i op).roster = s.roster ∧
      (s.carriageFailed i op).mch = s.mch ∧ (s.carriageFailed i op).tu = s.tu ∧ (s.carriageFailed i op).now = s.now ∧
      (s.carriageFailed i op).pending = s.pending := by
  unfold State.carriageFailed; dsimp only; (repeat' split) <;> simp

@[simp] theorem State.haltCarriage_frame (i : Index) :
    (s.haltCarriage i).hlp = s.hlp ∧ (s.haltCarriage i).rcc = s.rcc ∧ (s.haltCarriage i).roster = s.roster ∧
      (s.haltCarriage i).ebc = s.ebc ∧ (s.haltCarriage i).mch = s.mch ∧ (s.haltCarriage i).tu = s.tu ∧
      (s.haltCarriage i).now = s.now ∧ (s.haltCarriage i).pending = s.pending := by
  unfold State.haltCarriage; (repeat' split) <;> simp

@[simp] theorem State.restartCarriage_frame (i : Index) :
    (s.restartCarriage i).hlp = s.hlp ∧ (s.restartCarriage i).rcc = s.rcc ∧ (s.restartCarriage i).roster = s.roster ∧
      (s.restartCarriage i).mch = s.mch ∧ (s.restartCarriage i).tu = s.tu ∧ (s.restartCarriage i).now = s.now ∧
      (s.restartCarriage i).pending = s.pending := by
  unfold State.restartCarriage; (repeat' split) <;> simp

@[simp] theorem State.stopHalted_frame (i : Index) :
    (s.stopHalted i).hlp = s.hlp ∧ (s.stopHalted i).rcc = s.rcc ∧ (s.stopHalted i).roster = s.roster ∧
      (s.stopHalted i).ebc = s.ebc ∧ (s.stopHalted i).mch = s.mch ∧ (s.stopHalted i).tu = s.tu ∧
      (s.stopHalted i).now = s.now ∧ (s.stopHalted i).pending = s.pending := by
  unfold State.stopHalted; (repeat' split) <;> simp

/-! ## Claims -/

@[simp] theorem State.modClaim_frame (i : Index) (f : ClaimPart → ClaimPart) :
    (s.modClaim i f).hlp = s.hlp ∧ (s.modClaim i f).rcc = s.rcc ∧ (s.modClaim i f).roster = s.roster ∧
      (s.modClaim i f).ebc = s.ebc ∧ (s.modClaim i f).mch = s.mch ∧ (s.modClaim i f).tu = s.tu ∧
      (s.modClaim i f).now = s.now ∧ (s.modClaim i f).pending = s.pending := by
  simp [State.modClaim]

@[simp] theorem State.promotionNotice_frame (i : Index) (before : ClaimPart) :
    (s.promotionNotice i before).rcc = s.rcc ∧ (s.promotionNotice i before).roster = s.roster ∧
      (s.promotionNotice i before).elems = s.elems ∧ (s.promotionNotice i before).ebc = s.ebc ∧
      (s.promotionNotice i before).mch = s.mch ∧ (s.promotionNotice i before).tu = s.tu ∧
      (s.promotionNotice i before).now = s.now ∧ (s.promotionNotice i before).pending = s.pending := by
  unfold State.promotionNotice; split <;> simp

@[simp] theorem State.depart_frame (i : Index) (notice : ClaimNotice) :
    (s.depart i notice).rcc = s.rcc ∧ (s.depart i notice).roster = s.roster ∧ (s.depart i notice).mch = s.mch ∧
      (s.depart i notice).tu = s.tu ∧ (s.depart i notice).now = s.now ∧ (s.depart i notice).pending = s.pending := by
  unfold State.depart; split <;> simp

@[simp] theorem State.leaveList_frame (i : Index) (k : Slot) :
    (s.leaveList i k).hlp = s.hlp ∧ (s.leaveList i k).rcc = s.rcc ∧ (s.leaveList i k).roster = s.roster ∧
      (s.leaveList i k).ebc = s.ebc ∧ (s.leaveList i k).mch = s.mch ∧ (s.leaveList i k).tu = s.tu ∧
      (s.leaveList i k).now = s.now ∧ (s.leaveList i k).pending = s.pending := by
  simp [State.leaveList]

@[simp] theorem State.grant_frame (k : Slot) (i : Index) :
    (s.grant k i).rcc = s.rcc ∧ (s.grant k i).mch = s.mch ∧ (s.grant k i).tu = s.tu ∧ (s.grant k i).now = s.now ∧
      (s.grant k i).pending = s.pending := by
  unfold State.grant; dsimp only; split <;> simp

@[simp] theorem State.claimFree_frame (k : Slot) (i : Index) :
    (s.claimFree k i).rcc = s.rcc ∧ (s.claimFree k i).mch = s.mch ∧ (s.claimFree k i).tu = s.tu ∧
      (s.claimFree k i).now = s.now ∧ (s.claimFree k i).pending = s.pending := by
  unfold State.claimFree; split <;> simp

@[simp] theorem State.claimHeld_frame (k : Slot) (i : Index) (c : ClaimPart) :
    (s.claimHeld k i c).hlp = s.hlp ∧ (s.claimHeld k i c).rcc = s.rcc ∧ (s.claimHeld k i c).ebc = s.ebc ∧
      (s.claimHeld k i c).mch = s.mch ∧ (s.claimHeld k i c).tu = s.tu ∧ (s.claimHeld k i c).now = s.now ∧
      (s.claimHeld k i c).pending = s.pending := by
  unfold State.claimHeld; (repeat' split) <;> simp

@[simp] theorem State.claimRelation_frame (k : Slot) (i : Index) (r : ElementRecord) :
    (s.claimRelation k i r).rcc = s.rcc ∧ (s.claimRelation k i r).mch = s.mch ∧ (s.claimRelation k i r).tu = s.tu ∧
      (s.claimRelation k i r).now = s.now ∧ (s.claimRelation k i r).pending = s.pending := by
  unfold State.claimRelation; (repeat' split) <;> simp

@[simp] theorem State.claimOn_frame (k : Slot) (element : Byte) :
    (s.claimOn k element).rcc = s.rcc ∧ (s.claimOn k element).mch = s.mch ∧ (s.claimOn k element).tu = s.tu ∧
      (s.claimOn k element).now = s.now ∧ (s.claimOn k element).pending = s.pending := by
  unfold State.claimOn; (repeat' split) <;> simp

@[simp] theorem State.releaseOn_frame (k : Slot) (element : Byte) :
    (s.releaseOn k element).rcc = s.rcc ∧ (s.releaseOn k element).mch = s.mch ∧ (s.releaseOn k element).tu = s.tu ∧
      (s.releaseOn k element).now = s.now ∧ (s.releaseOn k element).pending = s.pending := by
  unfold State.releaseOn; (repeat' split) <;> simp

@[simp] theorem State.cancelOn_frame (k : Slot) :
    (s.cancelOn k).hlp = s.hlp ∧ (s.cancelOn k).rcc = s.rcc ∧ (s.cancelOn k).ebc = s.ebc ∧
      (s.cancelOn k).mch = s.mch ∧ (s.cancelOn k).tu = s.tu ∧ (s.cancelOn k).now = s.now ∧
      (s.cancelOn k).pending = s.pending := by
  unfold State.cancelOn; (repeat' split) <;> simp

@[simp] theorem State.expire_frame (i : Index) :
    (s.expire i).rcc = s.rcc ∧ (s.expire i).roster = s.roster ∧ (s.expire i).mch = s.mch ∧ (s.expire i).tu = s.tu ∧
      (s.expire i).now = s.now ∧ (s.expire i).pending = s.pending := by
  unfold State.expire; (repeat' split) <;> simp

@[simp] theorem State.claimTenth_frame (i : Index) :
    (s.claimTenth i).rcc = s.rcc ∧ (s.claimTenth i).roster = s.roster ∧ (s.claimTenth i).mch = s.mch ∧
      (s.claimTenth i).tu = s.tu ∧ (s.claimTenth i).now = s.now ∧ (s.claimTenth i).pending = s.pending := by
  unfold State.claimTenth; dsimp only; (repeat' split) <;> simp

@[simp] theorem State.vacate_frame (k : Slot) (cause : VacateCause) :
    (s.vacate k cause).rcc = s.rcc ∧ (s.vacate k cause).roster = s.roster ∧ (s.vacate k cause).mch = s.mch ∧
      (s.vacate k cause).tu = s.tu ∧ (s.vacate k cause).now = s.now ∧ (s.vacate k cause).pending = s.pending := by
  unfold State.vacate; dsimp only
  refine ⟨(foldl_keeps State.rcc _ (by simp) _ _).trans ?_, (foldl_keeps State.roster _ (by simp) _ _).trans ?_, (foldl_keeps State.mch _ (by simp) _ _).trans ?_, (foldl_keeps State.tu _ (by simp) _ _).trans ?_, (foldl_keeps State.now _ (by simp) _ _).trans ?_, (foldl_keeps State.pending _ (by simp) _ _).trans ?_⟩ <;> (split <;> simp)

@[simp] theorem State.emptyClaim_frame (i : Index) :
    (s.emptyClaim i).hlp = s.hlp ∧ (s.emptyClaim i).rcc = s.rcc ∧ (s.emptyClaim i).roster = s.roster ∧
      (s.emptyClaim i).mch = s.mch ∧ (s.emptyClaim i).tu = s.tu ∧ (s.emptyClaim i).now = s.now ∧
      (s.emptyClaim i).pending = s.pending := by
  unfold State.emptyClaim; split <;> simp

@[simp] theorem State.emptyClaims_frame :
    (s.emptyClaims).rcc = s.rcc ∧ (s.emptyClaims).roster = s.roster ∧ (s.emptyClaims).mch = s.mch ∧
      (s.emptyClaims).tu = s.tu ∧ (s.emptyClaims).now = s.now ∧ (s.emptyClaims).pending = s.pending := by
  refine ⟨?_, ?_, ?_, ?_, ?_, ?_⟩ <;> simp [State.emptyClaims]

/-! ## Robots -/

@[simp] theorem State.hear_frame (k : Slot) :
    (s.hear k).rcc = s.rcc ∧ (s.hear k).elems = s.elems ∧ (s.hear k).ebc = s.ebc ∧ (s.hear k).mch = s.mch ∧
      (s.hear k).tu = s.tu ∧ (s.hear k).now = s.now ∧ (s.hear k).pending = s.pending := by
  unfold State.hear; dsimp only; split <;> simp

@[simp] theorem State.readyFlag_frame (k : Slot) (ready : Bool) :
    (s.readyFlag k ready).rcc = s.rcc ∧ (s.readyFlag k ready).elems = s.elems ∧ (s.readyFlag k ready).ebc = s.ebc ∧
      (s.readyFlag k ready).mch = s.mch ∧ (s.readyFlag k ready).tu = s.tu ∧ (s.readyFlag k ready).now = s.now ∧
      (s.readyFlag k ready).pending = s.pending := by
  unfold State.readyFlag; dsimp only; (repeat' split) <;> simp

@[simp] theorem State.ackOn_frame (k : Slot) (mask : Byte) :
    (s.ackOn k mask).rcc = s.rcc ∧ (s.ackOn k mask).elems = s.elems ∧ (s.ackOn k mask).ebc = s.ebc ∧
      (s.ackOn k mask).mch = s.mch ∧ (s.ackOn k mask).tu = s.tu ∧ (s.ackOn k mask).now = s.now ∧
      (s.ackOn k mask).pending = s.pending := by
  simp [State.ackOn]

@[simp] theorem State.openNew_frame (k : Slot) (number : BitVec 4) (q : RobotRequest) :
    (s.openNew k number q).hlp = s.hlp ∧ (s.openNew k number q).rcc = s.rcc ∧
      (s.openNew k number q).elems = s.elems ∧ (s.openNew k number q).ebc = s.ebc ∧
      (s.openNew k number q).mch = s.mch ∧ (s.openNew k number q).tu = s.tu ∧ (s.openNew k number q).now = s.now ∧
      (s.openNew k number q).pending = s.pending := by
  simp [State.openNew]

@[simp] theorem State.countCycle_frame :
    (s.countCycle).hlp = s.hlp ∧ (s.countCycle).rcc = s.rcc ∧ (s.countCycle).elems = s.elems ∧
      (s.countCycle).ebc = s.ebc ∧ (s.countCycle).mch = s.mch ∧ (s.countCycle).tu = s.tu ∧
      (s.countCycle).now = s.now ∧ (s.countCycle).pending = s.pending := by
  refine ⟨State.eachSlot_hlp _ _ fun k t => ?_, State.eachSlot_rcc _ _ fun k t => ?_, State.eachSlot_elems _ _ fun k t => ?_, State.eachSlot_ebc _ _ fun k t => ?_, State.eachSlot_mch _ _ fun k t => ?_, State.eachSlot_tu _ _ fun k t => ?_, State.eachSlot_now _ _ fun k t => ?_, State.eachSlot_pending _ _ fun k t => ?_⟩ <;> (split <;> simp)

@[simp] theorem State.fallSilent_frame (k : Slot) :
    (s.fallSilent k).rcc = s.rcc ∧ (s.fallSilent k).elems = s.elems ∧ (s.fallSilent k).ebc = s.ebc ∧
      (s.fallSilent k).mch = s.mch ∧ (s.fallSilent k).tu = s.tu ∧ (s.fallSilent k).now = s.now ∧
      (s.fallSilent k).pending = s.pending := by
  simp [State.fallSilent]

@[simp] theorem State.dropRobot_frame (k : Slot) :
    (s.dropRobot k).rcc = s.rcc ∧ (s.dropRobot k).mch = s.mch ∧ (s.dropRobot k).tu = s.tu ∧
      (s.dropRobot k).now = s.now ∧ (s.dropRobot k).pending = s.pending := by
  unfold State.dropRobot; dsimp only; split <;> simp

@[simp] theorem State.checkSilence_frame (k : Slot) :
    (s.checkSilence k).rcc = s.rcc ∧ (s.checkSilence k).elems = s.elems ∧ (s.checkSilence k).ebc = s.ebc ∧
      (s.checkSilence k).mch = s.mch ∧ (s.checkSilence k).tu = s.tu ∧ (s.checkSilence k).now = s.now ∧
      (s.checkSilence k).pending = s.pending := by
  unfold State.checkSilence; dsimp only; split <;> simp

@[simp] theorem State.checkDrop_frame (k : Slot) :
    (s.checkDrop k).rcc = s.rcc ∧ (s.checkDrop k).mch = s.mch ∧ (s.checkDrop k).tu = s.tu ∧
      (s.checkDrop k).now = s.now ∧ (s.checkDrop k).pending = s.pending := by
  unfold State.checkDrop; dsimp only; split <;> simp

@[simp] theorem State.rosterCycle_frame :
    (s.rosterCycle).rcc = s.rcc ∧ (s.rosterCycle).mch = s.mch ∧ (s.rosterCycle).tu = s.tu ∧
      (s.rosterCycle).now = s.now ∧ (s.rosterCycle).pending = s.pending := by
  refine ⟨?_, ?_, ?_, ?_, ?_⟩ <;> simp [State.rosterCycle]

@[simp] theorem State.benchRobot_frame (k : Slot) (tenths : Nat) :
    (s.benchRobot k tenths).rcc = s.rcc ∧ (s.benchRobot k tenths).elems = s.elems ∧
      (s.benchRobot k tenths).ebc = s.ebc ∧ (s.benchRobot k tenths).mch = s.mch ∧ (s.benchRobot k tenths).tu = s.tu ∧
      (s.benchRobot k tenths).now = s.now ∧ (s.benchRobot k tenths).pending = s.pending := by
  simp [State.benchRobot]

@[simp] theorem State.unbench_frame (k : Slot) (notice : RobotNotice) :
    (s.unbench k notice).rcc = s.rcc ∧ (s.unbench k notice).elems = s.elems ∧ (s.unbench k notice).ebc = s.ebc ∧
      (s.unbench k notice).mch = s.mch ∧ (s.unbench k notice).tu = s.tu ∧ (s.unbench k notice).now = s.now ∧
      (s.unbench k notice).pending = s.pending := by
  simp [State.unbench]

@[simp] theorem State.ejectRobot_frame (k : Slot) (former : RobotState) :
    (s.ejectRobot k former).rcc = s.rcc ∧ (s.ejectRobot k former).elems = s.elems ∧
      (s.ejectRobot k former).ebc = s.ebc ∧ (s.ejectRobot k former).mch = s.mch ∧ (s.ejectRobot k former).tu = s.tu ∧
      (s.ejectRobot k former).now = s.now ∧ (s.ejectRobot k former).pending = s.pending := by
  simp [State.ejectRobot]

@[simp] theorem State.benchTenth_frame (k : Slot) :
    (s.benchTenth k).rcc = s.rcc ∧ (s.benchTenth k).elems = s.elems ∧ (s.benchTenth k).ebc = s.ebc ∧
      (s.benchTenth k).mch = s.mch ∧ (s.benchTenth k).tu = s.tu ∧ (s.benchTenth k).now = s.now ∧
      (s.benchTenth k).pending = s.pending := by
  unfold State.benchTenth; (repeat' split) <;> simp

@[simp] theorem State.activateReady_frame :
    (s.activateReady).hlp = s.hlp ∧ (s.activateReady).rcc = s.rcc ∧ (s.activateReady).elems = s.elems ∧
      (s.activateReady).ebc = s.ebc ∧ (s.activateReady).mch = s.mch ∧ (s.activateReady).tu = s.tu ∧
      (s.activateReady).now = s.now ∧ (s.activateReady).pending = s.pending := by
  refine ⟨State.eachSlot_hlp _ _ fun k t => ?_, State.eachSlot_rcc _ _ fun k t => ?_, State.eachSlot_elems _ _ fun k t => ?_, State.eachSlot_ebc _ _ fun k t => ?_, State.eachSlot_mch _ _ fun k t => ?_, State.eachSlot_tu _ _ fun k t => ?_, State.eachSlot_now _ _ fun k t => ?_, State.eachSlot_pending _ _ fun k t => ?_⟩ <;> (split <;> simp)

@[simp] theorem State.robotsToReady_frame :
    (s.robotsToReady).hlp = s.hlp ∧ (s.robotsToReady).rcc = s.rcc ∧ (s.robotsToReady).elems = s.elems ∧
      (s.robotsToReady).ebc = s.ebc ∧ (s.robotsToReady).mch = s.mch ∧ (s.robotsToReady).tu = s.tu ∧
      (s.robotsToReady).now = s.now ∧ (s.robotsToReady).pending = s.pending := by
  refine ⟨State.eachSlot_hlp _ _ fun k t => ?_, State.eachSlot_rcc _ _ fun k t => ?_, State.eachSlot_elems _ _ fun k t => ?_, State.eachSlot_ebc _ _ fun k t => ?_, State.eachSlot_mch _ _ fun k t => ?_, State.eachSlot_tu _ _ fun k t => ?_, State.eachSlot_now _ _ fun k t => ?_, State.eachSlot_pending _ _ fun k t => ?_⟩ <;> (split <;> simp)

@[simp] theorem State.clearEjections_frame :
    (s.clearEjections).hlp = s.hlp ∧ (s.clearEjections).rcc = s.rcc ∧ (s.clearEjections).elems = s.elems ∧
      (s.clearEjections).ebc = s.ebc ∧ (s.clearEjections).mch = s.mch ∧ (s.clearEjections).tu = s.tu ∧
      (s.clearEjections).now = s.now ∧ (s.clearEjections).pending = s.pending := by
  refine ⟨?_, ?_, ?_, ?_, ?_, ?_, ?_, ?_⟩ <;> simp [State.clearEjections]

/-! ## Stop-all and holds -/

@[simp] theorem State.motionDiscarded_frame (byStopAll : Bool) (e : Entry) :
    (State.motionDiscarded byStopAll s e).rcc = s.rcc ∧ (State.motionDiscarded byStopAll s e).ebc = s.ebc ∧
      (State.motionDiscarded byStopAll s e).mch = s.mch ∧ (State.motionDiscarded byStopAll s e).tu = s.tu ∧
      (State.motionDiscarded byStopAll s e).now = s.now ∧ (State.motionDiscarded byStopAll s e).pending = s.pending := by
  unfold State.motionDiscarded; dsimp only; (repeat' split) <;> simp

@[simp] theorem State.discard_frame (p : Entry → Bool) (byStopAll : Bool) :
    (s.discard p byStopAll).rcc = s.rcc ∧ (s.discard p byStopAll).mch = s.mch ∧ (s.discard p byStopAll).tu = s.tu ∧
      (s.discard p byStopAll).now = s.now ∧ (s.discard p byStopAll).pending = s.pending := by
  unfold State.discard; dsimp only
  simp only [State.handOverUpTo_frame]
  refine ⟨(foldl_keeps State.rcc _ (by simp) _ _).trans ?_, (foldl_keeps State.mch _ (by simp) _ _).trans ?_, (foldl_keeps State.tu _ (by simp) _ _).trans ?_, (foldl_keeps State.now _ (by simp) _ _).trans ?_, (foldl_keeps State.pending _ (by simp) _ _).trans ?_⟩ <;> simp

@[simp] theorem State.askStopAll_frame :
    (s.askStopAll).rcc = s.rcc ∧ (s.askStopAll).mch = s.mch ∧ (s.askStopAll).tu = s.tu ∧ (s.askStopAll).now = s.now ∧
      (s.askStopAll).pending = s.pending := by
  unfold State.askStopAll; split <;> simp

@[simp] theorem State.motionOrphaned_frame (e : Entry) :
    (s.motionOrphaned e).hlp = s.hlp ∧ (s.motionOrphaned e).rcc = s.rcc ∧ (s.motionOrphaned e).elems = s.elems ∧
      (s.motionOrphaned e).ebc = s.ebc ∧ (s.motionOrphaned e).mch = s.mch ∧ (s.motionOrphaned e).tu = s.tu ∧
      (s.motionOrphaned e).now = s.now ∧ (s.motionOrphaned e).pending = s.pending := by
  unfold State.motionOrphaned; split <;> simp

@[simp] theorem State.orphan_frame (i : Index) :
    (s.orphan i).hlp = s.hlp ∧ (s.orphan i).rcc = s.rcc ∧ (s.orphan i).elems = s.elems ∧ (s.orphan i).mch = s.mch ∧
      (s.orphan i).tu = s.tu ∧ (s.orphan i).now = s.now ∧ (s.orphan i).pending = s.pending := by
  unfold State.orphan; (repeat' split) <;> simp

@[simp] theorem State.putAway_frame (i : Index) :
    (s.putAway i).rcc = s.rcc ∧ (s.putAway i).mch = s.mch ∧ (s.putAway i).tu = s.tu ∧ (s.putAway i).now = s.now ∧
      (s.putAway i).pending = s.pending := by
  simp [State.putAway]

@[simp] theorem State.pushHold_frame (cause : HoldCause) (detail : Option Byte) :
    (s.pushHold cause detail).rcc = s.rcc ∧ (s.pushHold cause detail).tu = s.tu ∧
      (s.pushHold cause detail).now = s.now ∧ (s.pushHold cause detail).pending = s.pending := by
  refine ⟨?_, ?_, ?_, ?_⟩ <;> simp [State.pushHold]

@[simp] theorem State.requestPush_frame (q : PushRequest) :
    (s.requestPush q).rcc = s.rcc ∧ (s.requestPush q).tu = s.tu ∧ (s.requestPush q).now = s.now ∧
      (s.requestPush q).pending = s.pending := by
  unfold State.requestPush; (repeat' split) <;> simp

@[simp] theorem State.popHold_frame (top : Hold) (rest : List Hold) :
    (s.popHold top rest).rcc = s.rcc ∧ (s.popHold top rest).roster = s.roster ∧
      (s.popHold top rest).elems = s.elems ∧ (s.popHold top rest).ebc = s.ebc ∧ (s.popHold top rest).tu = s.tu ∧
      (s.popHold top rest).now = s.now ∧ (s.popHold top rest).pending = s.pending := by
  simp [State.popHold]

@[simp] theorem State.pushPending_frame :
    (s.pushPending).rcc = s.rcc ∧ (s.pushPending).tu = s.tu ∧ (s.pushPending).now = s.now ∧
      (s.pushPending).pending = s.pending := by
  unfold State.pushPending; split <;> simp

@[simp] theorem State.stackEmptied_frame :
    (s.stackEmptied).hlp = s.hlp ∧ (s.stackEmptied).rcc = s.rcc ∧ (s.stackEmptied).roster = s.roster ∧
      (s.stackEmptied).mch = s.mch ∧ (s.stackEmptied).tu = s.tu ∧ (s.stackEmptied).now = s.now ∧
      (s.stackEmptied).pending = s.pending := by
  unfold State.stackEmptied; split <;> simp

/-! ## Ends and elements -/

@[simp] theorem State.raiseElement?_frame (i : Index) (n : Option ElementNotice) :
    (s.raiseElement? i n).rcc = s.rcc ∧ (s.raiseElement? i n).roster = s.roster ∧
      (s.raiseElement? i n).elems = s.elems ∧ (s.raiseElement? i n).ebc = s.ebc ∧ (s.raiseElement? i n).mch = s.mch ∧
      (s.raiseElement? i n).tu = s.tu ∧ (s.raiseElement? i n).now = s.now ∧ (s.raiseElement? i n).pending = s.pending := by
  unfold State.raiseElement?; split <;> simp

@[simp] theorem State.holdForFault_frame (i : Index) (asks : Bool) :
    (s.holdForFault i asks).rcc = s.rcc ∧ (s.holdForFault i asks).tu = s.tu ∧ (s.holdForFault i asks).now = s.now ∧
      (s.holdForFault i asks).pending = s.pending := by
  unfold State.holdForFault; split <;> simp

@[simp] theorem State.handReading_frame (i : Index) (role : PollRole) (reading : Reading) (delta : Nat) (restarted : Bool) :
    (s.handReading i role reading delta restarted).rcc = s.rcc ∧
      (s.handReading i role reading delta restarted).mch = s.mch ∧
      (s.handReading i role reading delta restarted).now = s.now ∧
      (s.handReading i role reading delta restarted).pending = s.pending := by
  unfold State.handReading; split <;> simp

@[simp] theorem State.pollCompleted_frame (i : Index) (role : PollRole) (epoch : Byte) (reading : Reading) :
    (s.pollCompleted i role epoch reading).rcc = s.rcc ∧ (s.pollCompleted i role epoch reading).now = s.now ∧
      (s.pollCompleted i role epoch reading).pending = s.pending := by
  unfold State.pollCompleted; split <;> simp

@[simp] theorem State.driveCompleted_frame (i : Index) (op : BusOp) :
    (s.driveCompleted i op).hlp = s.hlp ∧ (s.driveCompleted i op).rcc = s.rcc ∧
      (s.driveCompleted i op).roster = s.roster ∧ (s.driveCompleted i op).ebc = s.ebc ∧
      (s.driveCompleted i op).mch = s.mch ∧ (s.driveCompleted i op).tu = s.tu ∧ (s.driveCompleted i op).now = s.now ∧
      (s.driveCompleted i op).pending = s.pending := by
  unfold State.driveCompleted; split <;> simp

@[simp] theorem State.handFailure_frame (i : Index) (k : Kind) (op : BusOp) :
    (s.handFailure i k op).rcc = s.rcc ∧ (s.handFailure i k op).mch = s.mch ∧ (s.handFailure i k op).now = s.now ∧
      (s.handFailure i k op).pending = s.pending := by
  unfold State.handFailure; split <;> simp

@[simp] theorem State.transactionFailed_frame (i : Index) (op : BusOp) :
    (s.transactionFailed i op).rcc = s.rcc ∧ (s.transactionFailed i op).now = s.now ∧
      (s.transactionFailed i op).pending = s.pending := by
  unfold State.transactionFailed; (repeat' split) <;> simp

@[simp] theorem State.endWith_frame (i : Index) (op : BusOp) (r : BusResult) :
    (s.endWith i op r).rcc = s.rcc ∧ (s.endWith i op r).now = s.now ∧ (s.endWith i op r).pending = s.pending := by
  unfold State.endWith; (repeat' split) <;> simp

@[simp] theorem State.replied_frame (f : InFlight) (frame : List Byte) :
    (s.replied f frame).rcc = s.rcc ∧ (s.replied f frame).now = s.now ∧ (s.replied f frame).pending = s.pending := by
  unfold State.replied; (repeat' split) <;> simp

@[simp] theorem State.timedOut_frame (f : InFlight) :
    (s.timedOut f).rcc = s.rcc ∧ (s.timedOut f).now = s.now ∧ (s.timedOut f).pending = s.pending := by
  unfold State.timedOut; (repeat' split) <;> simp

@[simp] theorem State.askFirstLamp_frame (i : Index) (part : KindPart) :
    (s.askFirstLamp i part).hlp = s.hlp ∧ (s.askFirstLamp i part).rcc = s.rcc ∧
      (s.askFirstLamp i part).roster = s.roster ∧ (s.askFirstLamp i part).elems = s.elems ∧
      (s.askFirstLamp i part).mch = s.mch ∧ (s.askFirstLamp i part).tu = s.tu ∧ (s.askFirstLamp i part).now = s.now ∧
      (s.askFirstLamp i part).pending = s.pending := by
  unfold State.askFirstLamp; split <;> simp

@[simp] theorem State.define_frame (i : Index) (r : ElementRecord) :
    (s.define i r).rcc = s.rcc ∧ (s.define i r).mch = s.mch ∧ (s.define i r).tu = s.tu ∧ (s.define i r).now = s.now ∧
      (s.define i r).pending = s.pending := by
  unfold State.define; split <;> simp

@[simp] theorem State.undefine_frame (i : Index) :
    (s.undefine i).rcc = s.rcc ∧ (s.undefine i).mch = s.mch ∧ (s.undefine i).tu = s.tu ∧ (s.undefine i).now = s.now ∧
      (s.undefine i).pending = s.pending := by
  simp [State.undefine]

/-! ## Match clock and radio -/

@[simp] theorem State.setPhase_frame (p : Phase) (cause : PhaseCause) (remaining : Nat) :
    (s.setPhase p cause remaining).rcc = s.rcc ∧ (s.setPhase p cause remaining).roster = s.roster ∧
      (s.setPhase p cause remaining).elems = s.elems ∧ (s.setPhase p cause remaining).ebc = s.ebc ∧
      (s.setPhase p cause remaining).tu = s.tu ∧ (s.setPhase p cause remaining).now = s.now ∧
      (s.setPhase p cause remaining).pending = s.pending := by
  simp [State.setPhase]

@[simp] theorem State.enterEnded_frame (cause : PhaseCause) :
    (s.enterEnded cause).rcc = s.rcc ∧ (s.enterEnded cause).now = s.now ∧ (s.enterEnded cause).pending = s.pending := by
  simp [State.enterEnded]

@[simp] theorem State.enterNext_frame (p : Phase) (remaining : Nat) :
    (s.enterNext p remaining).rcc = s.rcc ∧ (s.enterNext p remaining).roster = s.roster ∧
      (s.enterNext p remaining).tu = s.tu ∧ (s.enterNext p remaining).now = s.now ∧
      (s.enterNext p remaining).pending = s.pending := by
  simp [State.enterNext]

@[simp] theorem State.setTimes_frame (t : TimingFields) :
    (s.setTimes t).hlp = s.hlp ∧ (s.setTimes t).elems = s.elems ∧ (s.setTimes t).ebc = s.ebc ∧
      (s.setTimes t).tu = s.tu ∧ (s.setTimes t).now = s.now ∧ (s.setTimes t).pending = s.pending := by
  simp [State.setTimes]

@[simp] theorem State.startMatch_frame :
    (s.startMatch).rcc = s.rcc ∧ (s.startMatch).tu = s.tu ∧ (s.startMatch).now = s.now ∧
      (s.startMatch).pending = s.pending := by
  simp [State.startMatch]

@[simp] theorem State.noticeCleared_frame (before : Mch) :
    (s.noticeCleared before).rcc = s.rcc ∧ (s.noticeCleared before).roster = s.roster ∧
      (s.noticeCleared before).elems = s.elems ∧ (s.noticeCleared before).ebc = s.ebc ∧
      (s.noticeCleared before).mch = s.mch ∧ (s.noticeCleared before).tu = s.tu ∧
      (s.noticeCleared before).now = s.now ∧ (s.noticeCleared before).pending = s.pending := by
  unfold State.noticeCleared; split <;> simp

@[simp] theorem State.reportClear_frame :
    (s.reportClear).rcc = s.rcc ∧ (s.reportClear).mch = s.mch ∧ (s.reportClear).now = s.now ∧
      (s.reportClear).pending = s.pending := by
  refine ⟨?_, ?_, ?_, ?_⟩ <;> simp [State.reportClear]

@[simp] theorem State.clearMatch_frame :
    (s.clearMatch).rcc = s.rcc ∧ (s.clearMatch).now = s.now ∧ (s.clearMatch).pending = s.pending := by
  simp [State.clearMatch]

@[simp] theorem State.runOut_frame :
    (s.runOut).rcc = s.rcc ∧ (s.runOut).now = s.now ∧ (s.runOut).pending = s.pending := by
  unfold State.runOut; split <;> simp

@[simp] theorem State.handTenth_frame :
    (s.handTenth).rcc = s.rcc ∧ (s.handTenth).mch = s.mch ∧ (s.handTenth).now = s.now ∧
      (s.handTenth).pending = s.pending := by
  refine ⟨?_, ?_, ?_, ?_⟩ <;> simp [State.handTenth]

@[simp] theorem State.matchTenth_frame :
    (s.matchTenth).rcc = s.rcc ∧ (s.matchTenth).now = s.now ∧ (s.matchTenth).pending = s.pending := by
  unfold State.matchTenth; dsimp only; split <;> simp

@[simp] theorem State.sendBeacon_frame (answer : Option JoinAnswer) :
    (s.sendBeacon answer).hlp = s.hlp ∧ (s.sendBeacon answer).roster = s.roster ∧
      (s.sendBeacon answer).elems = s.elems ∧ (s.sendBeacon answer).ebc = s.ebc ∧ (s.sendBeacon answer).mch = s.mch ∧
      (s.sendBeacon answer).tu = s.tu ∧ (s.sendBeacon answer).now = s.now ∧ (s.sendBeacon answer).pending = s.pending := by
  simp [State.sendBeacon]

@[simp] theorem State.passRequest_frame (k : Slot) (number : BitVec 4) (q : RobotRequest) :
    (s.passRequest k number q).rcc = s.rcc ∧ (s.passRequest k number q).mch = s.mch ∧
      (s.passRequest k number q).tu = s.tu ∧ (s.passRequest k number q).now = s.now ∧
      (s.passRequest k number q).pending = s.pending := by
  unfold State.passRequest State.handOn; dsimp only; split
  · cases q <;> simp
  · simp

@[simp] theorem State.takeSlotFrame_frame (k : Slot) (f : SlotFields) :
    (s.takeSlotFrame k f).mch = s.mch ∧ (s.takeSlotFrame k f).tu = s.tu ∧ (s.takeSlotFrame k f).now = s.now ∧
      (s.takeSlotFrame k f).pending = s.pending := by
  unfold State.takeSlotFrame; (repeat' split) <;> simp

@[simp] theorem State.joinOn_frame (team robotId : Half) (kit : Byte) :
    (s.joinOn team robotId kit).1.rcc = s.rcc ∧ (s.joinOn team robotId kit).1.elems = s.elems ∧ (s.joinOn team robotId kit).1.ebc = s.ebc ∧ (s.joinOn team robotId kit).1.mch = s.mch ∧ (s.joinOn team robotId kit).1.tu = s.tu ∧ (s.joinOn team robotId kit).1.now = s.now ∧ (s.joinOn team robotId kit).1.pending = s.pending := by
  unfold State.joinOn; dsimp only; (repeat' split) <;> simp

@[simp] theorem State.takeJoin_frame (team robotId : Half) (kit : Byte) :
    (s.takeJoin team robotId kit).elems = s.elems ∧ (s.takeJoin team robotId kit).ebc = s.ebc ∧
      (s.takeJoin team robotId kit).mch = s.mch ∧ (s.takeJoin team robotId kit).tu = s.tu ∧
      (s.takeJoin team robotId kit).now = s.now ∧ (s.takeJoin team robotId kit).pending = s.pending := by
  unfold State.takeJoin; split <;> simp

@[simp] theorem State.deliver_frame (window : Window) (frame : List Byte) :
    (s.deliver window frame).mch = s.mch ∧ (s.deliver window frame).tu = s.tu ∧
      (s.deliver window frame).now = s.now ∧ (s.deliver window frame).pending = s.pending := by
  unfold State.deliver; split <;> simp

@[simp] theorem State.setRx_frame (rx : List Byte) :
    (s.setRx rx).rcc = s.rcc ∧ (s.setRx rx).roster = s.roster ∧ (s.setRx rx).elems = s.elems ∧
      (s.setRx rx).ebc = s.ebc ∧ (s.setRx rx).mch = s.mch ∧ (s.setRx rx).tu = s.tu ∧ (s.setRx rx).now = s.now ∧
      (s.setRx rx).pending = s.pending := by
  simp [State.setRx]

@[simp] theorem State.headSent_frame (head : OutFrame) (rest : List OutFrame) :
    (s.headSent head rest).rcc = s.rcc ∧ (s.headSent head rest).roster = s.roster ∧
      (s.headSent head rest).elems = s.elems ∧ (s.headSent head rest).ebc = s.ebc ∧
      (s.headSent head rest).mch = s.mch ∧ (s.headSent head rest).now = s.now ∧
      (s.headSent head rest).pending = s.pending := by
  simp [State.headSent]

end Sys2Proof.Machine
end

