-- ==== Sys2Proof/Laws/Requests.lean ====
section
/-! SUPPORT. What accepting, refusing and answering a host request does, and what raising notices does. -/
namespace Sys2Proof.Machine

/-- A good frame that the part accepts is answered, and what its request sets going follows the reply (R183 to R185). -/
theorem State.goodFrameThen_eq {s : State} (h : s.accepts = true) (kind tag : Byte) (owner : State → Answered)
    (behind : State → State) :
    s.goodFrameThen kind tag owner behind = (owner s.restartSilence).sendThen kind tag behind := by
  simp only [State.accepts, Bool.and_eq_true] at h
  simp [State.goodFrameThen, h.1, h.2]

/-- A good frame that is not dispatched restarts the host silence timer at most (R183, R190). -/
theorem State.goodFrameThen_turnedAway {s : State} (h : s.accepts = false) (kind tag : Byte) (owner : State → Answered)
    (behind : State → State) :
    s.goodFrameThen kind tag owner behind = if s.listening then s.restartSilence else s := by
  unfold State.goodFrameThen
  cases hl : s.listening with
  | false => simp
  | true =>
    have : s.replyRoom = false := by simpa [State.accepts, hl] using h
    simp [this]

/-- A good frame that the part accepts is answered by its owner (R183, R184). -/
theorem State.goodFrame_eq {s : State} (h : s.accepts = true) (kind tag : Byte) (owner : State → Answered) :
    s.goodFrame kind tag owner = (owner s.restartSilence).send kind tag := by
  rw [State.goodFrame, State.goodFrameThen_eq h, Answered.sendThen]
  split <;> rfl

/-- Sending a refusal is what `State.refuses` says (R184). -/
theorem State.refuses_send (s : State) (kind tag : Byte) (st : Status) :
    s.refuses ((refuse s.restartSilence st).send kind tag) kind tag st := by
  constructor
  · intro b hb
    cases b <;> simp_all [State.sameBlock, Answered.send, refuse, State.queueReply]
  · simp [Answered.send, refuse, State.queueReply, Hlp.answer, Hlp.raiseAll]

/-- Sending an answer is what `State.answers` says, when the owner changed only the blocks listed and raised only the notices listed. -/
theorem State.answers_send {s : State} {a : Answered} {changed : List Block} {notices : List Notice} (kind tag : Byte)
    (hf : s.restartSilence.onlyChanges a.state (.hlp :: changed)) (hn : a.state.hlp = s.hlp.raiseAll notices) :
    s.answers (a.send kind tag) changed kind tag notices a.status a.body := by
  constructor
  · intro b hb
    have := hf b hb
    cases b <;> simp_all [State.sameBlock, Answered.send, State.queueReply]
  · simp [Answered.send, State.queueReply, Hlp.answer, hn]

/-- Restarting the host silence timer keeps the phase. -/
@[simp] theorem State.restartSilence_phase (s : State) : s.restartSilence.mch.phase = s.mch.phase := by
  unfold State.restartSilence; split <;> rfl

/-- Restarting the host silence timer keeps the hold stack. -/
@[simp] theorem State.restartSilence_stack (s : State) : s.restartSilence.mch.stack = s.mch.stack := by
  unfold State.restartSilence; split <;> rfl

/-- Restarting the host silence timer keeps every element record. -/
@[simp] theorem State.restartSilence_elem (s : State) (i : Index) : s.restartSilence.elem i = s.elem i := by
  simp [State.elem]

/-- Restarting the host silence timer keeps every robot record. -/
@[simp] theorem State.restartSilence_robot (s : State) (k : Slot) : s.restartSilence.robot k = s.robot k := by
  simp [State.robot]

/-- Restarting the host silence timer keeps the bookkeeping of every index. -/
@[simp] theorem State.restartSilence_sched (s : State) (i : Index) : s.restartSilence.sched i = s.sched i := by
  simp [State.sched]

/-- In SETUP the host silence timer does not restart (R164). -/
theorem State.restartSilence_setup (s : State) (h : s.mch.phase = .setup) : s.restartSilence = s := by
  simp [State.restartSilence, h, Phase.stagedToFinale]

/-- Everything that raising a notice can do: nothing when its class is masked, a loss at the notice limit, otherwise an entry at the tail (R186, R187). -/
theorem Hlp.raise_eq (h : Hlp) (n : Notice) : h.raise n =
    if n.passes h.mask then
      if 22 ≤ h.notices then { h with lost := true } else { h with out := h.out ++ [.notice h.lost n], lost := false }
    else h := rfl

/-- Notices raised one after another, cut in two. -/
theorem Hlp.raiseAll_append (h : Hlp) (a b : List Notice) : h.raiseAll (a ++ b) = (h.raiseAll a).raiseAll b := by
  simp [Hlp.raiseAll]

/-- No notice raised. -/
@[simp] theorem Hlp.raiseAll_nil (h : Hlp) : h.raiseAll [] = h := rfl

/-- Notices raised one after another, the first apart. -/
theorem Hlp.raiseAll_cons (h : Hlp) (a) (b : List Notice) : h.raiseAll (a :: b) = (h.raise a).raiseAll b := rfl

/-- A notice goes to the host link port. -/
@[simp] theorem State.raise_hlp (s : State) (n : Notice) : (s.raise n).hlp = s.hlp.raise n := rfl

/-- A CLAIM notice goes to the host link port. -/
@[simp] theorem State.raiseClaim_hlp (s : State) (n) : (s.raiseClaim n).hlp = s.hlp.raise (.claim n) := rfl

/-- A ROBOT notice goes to the host link port. -/
@[simp] theorem State.raiseRobot_hlp (s : State) (k n) : (s.raiseRobot k n).hlp = s.hlp.raise (.robot k n) := rfl

/-- A HOLD notice goes to the host link port with the match time and phase of that moment. -/
@[simp] theorem State.raiseHold_hlp (s : State) (n) : (s.raiseHold n).hlp = s.hlp.raise (.hold s.mch.matchTime s.mch.phase n) := rfl

/-- An ELEMENT notice goes to the host link port. -/
@[simp] theorem State.raiseElement_hlp (s : State) (k n) : (s.raiseElement k n).hlp = s.hlp.raise (.element k n) := rfl

end Sys2Proof.Machine
end

