-- ==== Sys2Proof/Laws/Records.lean ====
section
/-! SUPPORT. The records after each operation on the field table. -/
namespace Sys2Proof.Machine

/-- The records after one record was changed. -/
theorem State.elem_modElem (s : State) (i j : Index) (f : ElementRecord → ElementRecord) :
    (s.modElem i f).elem j = if j = i then (s.elem i).map f else s.elem j := by
  unfold State.modElem
  split
  · rename_i r h
    rw [State.elem_setElem, h]; rfl
  · rename_i h
    by_cases e : j = i
    · simp [e, h]
    · simp [e]

/-- The records after one kind part was replaced. -/
theorem State.elem_setPart (s : State) (i j : Index) (p : KindPart) :
    (s.setPart i p).elem j = if j = i then (s.elem i).map (·.setPart p) else s.elem j := State.elem_modElem ..

/-- The records after one claim part was changed. -/
theorem State.elem_modClaim (s : State) (i j : Index) (f : ClaimPart → ClaimPart) :
    (s.modClaim i f).elem j = if j = i then (s.elem i).map (fun r => { r with claim := f r.claim }) else s.elem j :=
  State.elem_modElem ..

/-- The records after the sticky flags of one were changed. -/
theorem State.elem_modSticky (s : State) (i j : Index) (f : Sticky → Sticky) :
    (s.modSticky i f).elem j = if j = i then (s.elem i).map (fun r => { r with sticky := f r.sticky }) else s.elem j :=
  State.elem_modElem ..

/-- The same field table gives the same records. -/
theorem State.elem_of_elems {s t : State} (h : t.elems = s.elems) : t.elem = s.elem := by
  funext i; simp [State.elem, h]

/-- The same roster gives the same robot records. -/
theorem State.robot_of_roster {s t : State} (h : t.roster = s.roster) : t.robot = s.robot := by
  funext i; simp [State.robot, h]

/-- The same element bus controller gives the same bookkeeping. -/
theorem State.sched_of_ebc {s t : State} (h : t.ebc = s.ebc) : t.sched = s.sched := by
  funext i; simp [State.sched, h]

/-- Asking for a lamp drive keeps every record. -/
@[simp] theorem State.elem_askLamp (s : State) (i j : Index) (b : Bool) : (s.askLamp i b).elem j = s.elem j := by
  simp [State.elem]

/-- Asking for a carriage drive keeps every record. -/
@[simp] theorem State.elem_askCarriage (s : State) (i j : Index) (b : Int) : (s.askCarriage i b).elem j = s.elem j := by
  simp [State.elem]

/-- Asking for a closing poll keeps every record. -/
@[simp] theorem State.elem_askClosing (s : State) (i j : Index)  : (s.askClosing i).elem j = s.elem j := by
  simp [State.elem]

/-- Raising a notice keeps every record. -/
@[simp] theorem State.elem_raise (s : State) (n) (j : Index)  : (s.raise n).elem j = s.elem j := by
  simp [State.elem]

/-- Raising a CLAIM notice keeps every record. -/
@[simp] theorem State.elem_raiseClaim (s : State) (n) (j : Index)  : (s.raiseClaim n).elem j = s.elem j := by
  simp [State.elem]

/-- Raising an ELEMENT notice keeps every record. -/
@[simp] theorem State.elem_raiseElement (s : State) (n k) (j : Index)  : (s.raiseElement k n).elem j = s.elem j := by
  simp [State.elem]

/-- Raising a ROBOT notice keeps every record. -/
@[simp] theorem State.elem_raiseRobot (s : State) (n k) (j : Index)  : (s.raiseRobot k n).elem j = s.elem j := by
  simp [State.elem]

/-- Raising a HOLD notice keeps every record. -/
@[simp] theorem State.elem_raiseHold (s : State) (n) (j : Index)  : (s.raiseHold n).elem j = s.elem j := by
  simp [State.elem]

/-- The notice of a promotion keeps every record. -/
@[simp] theorem State.elem_promotionNotice (s : State) (i c) (j : Index)  : (s.promotionNotice i c).elem j = s.elem j := by
  simp [State.elem]

/-- The station part at an index, from its record. -/
theorem State.stationAt_eq (s : State) (i : Index) : s.stationAt i = (s.elem i).bind fun r => match r.part with
    | .station p => some p
    | _ => none := by
  unfold State.stationAt; cases s.elem i <;> simp [Option.bind] <;> rfl

/-- The goal part at an index, from its record. -/
theorem State.goalAt_eq (s : State) (i : Index) : s.goalAt i = (s.elem i).bind fun r => match r.part with
    | .goal p => some p
    | _ => none := by
  unfold State.goalAt; cases s.elem i <;> rfl

/-- The gate part at an index, from its record. -/
theorem State.gateAt_eq (s : State) (i : Index) : s.gateAt i = (s.elem i).bind fun r => match r.part with
    | .gate p => some p
    | _ => none := by
  unfold State.gateAt; cases s.elem i <;> rfl

/-- The carriage part at an index, from its record. -/
theorem State.carriageAt_eq (s : State) (i : Index) : s.carriageAt i = (s.elem i).bind fun r => match r.part with
    | .carriage p => some p
    | _ => none := by
  unfold State.carriageAt; cases s.elem i <;> rfl

/-- A record with its goal part changed; a record of another kind is left. -/
def ElementRecord.onGoal (f : GoalPart → GoalPart) (r : ElementRecord) : ElementRecord :=
  match r.part with
  | .goal p => { r with part := .goal (f p) }
  | _ => r

/-- A record with its station part changed; a record of another kind is left. -/
def ElementRecord.onStation (f : StationPart → StationPart) (r : ElementRecord) : ElementRecord :=
  match r.part with
  | .station p => { r with part := .station (f p) }
  | _ => r

/-- A record with its carriage part changed; a record of another kind is left. -/
def ElementRecord.onCarriage (f : CarriagePart → CarriagePart) (r : ElementRecord) : ElementRecord :=
  match r.part with
  | .carriage p => { r with part := .carriage (f p) }
  | _ => r

/-- A record with its gate part changed; a record of another kind is left. -/
def ElementRecord.onGate (f : GatePart → GatePart) (r : ElementRecord) : ElementRecord :=
  match r.part with
  | .gate p => { r with part := .gate (f p) }
  | _ => r

/-- A goal part stands in a record. -/
theorem State.goal_some {s : State} {i : Index} {p : GoalPart} (h : s.goalAt i = some p) : ∃ r, s.elem i = some r ∧ r.part = .goal p := by
  rw [State.goalAt_eq] at h
  cases he : s.elem i with
  | none => simp [he] at h
  | some r => simp only [he, Option.bind_some] at h; refine ⟨r, rfl, ?_⟩; split at h <;> simp_all

/-- Where no goal part stands, changing goal parts changes nothing. -/
theorem State.goal_none {s : State} {i : Index} (h : s.goalAt i = none) (f) : (s.elem i).map (ElementRecord.onGoal f) = s.elem i := by
  rw [State.goalAt_eq] at h
  cases he : s.elem i with
  | none => rfl
  | some r => simp only [he, Option.bind_some] at h; simp [ElementRecord.onGoal]; split at h <;> simp_all

/-- The goal part of a goal record. -/
theorem State.goal_of {s : State} {i : Index} {r p} (h : s.elem i = some r) (hp : r.part = .goal p) : s.goalAt i = some p := by
  rw [State.goalAt_eq]; simp [h, hp]

/-- A station part stands in a record. -/
theorem State.station_some {s : State} {i : Index} {p} (h : s.stationAt i = some p) : ∃ r, s.elem i = some r ∧ r.part = .station p := by
  rw [State.stationAt_eq] at h
  cases he : s.elem i with
  | none => simp [he] at h
  | some r => simp only [he, Option.bind_some] at h; refine ⟨r, rfl, ?_⟩; split at h <;> simp_all

/-- Where no station part stands, changing station parts changes nothing. -/
theorem State.station_none {s : State} {i : Index} (h : s.stationAt i = none) (f) : (s.elem i).map (ElementRecord.onStation f) = s.elem i := by
  rw [State.stationAt_eq] at h
  cases he : s.elem i with
  | none => rfl
  | some r => simp only [he, Option.bind_some] at h; simp [ElementRecord.onStation]; split at h <;> simp_all

/-- A carriage part stands in a record. -/
theorem State.carriage_some {s : State} {i : Index} {p} (h : s.carriageAt i = some p) : ∃ r, s.elem i = some r ∧ r.part = .carriage p := by
  rw [State.carriageAt_eq] at h
  cases he : s.elem i with
  | none => simp [he] at h
  | some r => simp only [he, Option.bind_some] at h; refine ⟨r, rfl, ?_⟩; split at h <;> simp_all

/-- Where no carriage part stands, changing carriage parts changes nothing. -/
theorem State.carriage_none {s : State} {i : Index} (h : s.carriageAt i = none) (f) : (s.elem i).map (ElementRecord.onCarriage f) = s.elem i := by
  rw [State.carriageAt_eq] at h
  cases he : s.elem i with
  | none => rfl
  | some r => simp only [he, Option.bind_some] at h; simp [ElementRecord.onCarriage]; split at h <;> simp_all

/-- A gate part stands in a record. -/
theorem State.gate_some {s : State} {i : Index} {p} (h : s.gateAt i = some p) : ∃ r, s.elem i = some r ∧ r.part = .gate p := by
  rw [State.gateAt_eq] at h
  cases he : s.elem i with
  | none => simp [he] at h
  | some r => simp only [he, Option.bind_some] at h; refine ⟨r, rfl, ?_⟩; split at h <;> simp_all

/-- Where no gate part stands, changing gate parts changes nothing. -/
theorem State.gate_none {s : State} {i : Index} (h : s.gateAt i = none) (f) : (s.elem i).map (ElementRecord.onGate f) = s.elem i := by
  rw [State.gateAt_eq] at h
  cases he : s.elem i with
  | none => rfl
  | some r => simp only [he, Option.bind_some] at h; simp [ElementRecord.onGate]; split at h <;> simp_all

/-- A record left as it is, written as a change that changes nothing. -/
theorem ite_self_map {j i : Index} {s : State} {f} (h : (s.elem i).map f = s.elem i) : s.elem j = if j = i then (s.elem i).map f else s.elem j := by
  split
  · rename_i e; subst e; exact h.symm
  · rfl

/-- The records after a goal part was replaced. -/
theorem State.elem_setGoal (s : State) (i j : Index) (p) : (s.setGoal i p).elem j = if j = i then (s.elem i).map (·.setPart (.goal p)) else s.elem j := State.elem_setPart ..

/-- The records after a goal part was changed. -/
theorem State.elem_modGoal (s : State) (i j : Index) (f) : (s.modGoal i f).elem j = if j = i then (s.elem i).map (ElementRecord.onGoal f) else s.elem j := by
  unfold State.modGoal
  split
  · rename_i p h
    obtain ⟨r, hr, hp⟩ := State.goal_some h
    rw [State.elem_setGoal]; simp [hr, ElementRecord.onGoal, hp, ElementRecord.setPart]
  · rename_i h; exact ite_self_map (State.goal_none h _)

/-- The records after a station part was changed. -/
theorem State.elem_modStation (s : State) (i j : Index) (f) : (s.modStation i f).elem j = if j = i then (s.elem i).map (ElementRecord.onStation f) else s.elem j := by
  unfold State.modStation
  split
  · rename_i p h
    obtain ⟨r, hr, hp⟩ := State.station_some h
    rw [State.setStation, State.elem_setPart]; simp [hr, ElementRecord.onStation, hp, ElementRecord.setPart]
  · rename_i h; exact ite_self_map (State.station_none h _)

/-- A walk over every index whose steps each change their own record only and raise notices of it. -/
theorem State.eachIndex_walk (P : State → Prop) (f : Index → State → State) (g : Index → Option ElementRecord → Option ElementRecord)
    (n : Index → Option ElementRecord → List Notice)
    (hP : ∀ i t, P t → P (f i t))
    (he : ∀ i t j, P t → (f i t).elem j = if j = i then g i (t.elem i) else t.elem j)
    (hn : ∀ i t, P t → (f i t).hlp = t.hlp.raiseAll (n i (t.elem i))) (s : State) (hs : P s) :
    P (s.eachIndex f) ∧ (∀ j, (s.eachIndex f).elem j = g j (s.elem j))
    ∧ (s.eachIndex f).hlp = s.hlp.raiseAll (indices.flatMap fun i => n i (s.elem i)) := by
  have key : ∀ (l : List Index), l.Nodup → ∀ t, P t →
      P (l.foldl (fun t i => f i t) t) ∧ (∀ j, (l.foldl (fun t i => f i t) t).elem j = if j ∈ l then g j (t.elem j) else t.elem j)
      ∧ (l.foldl (fun t i => f i t) t).hlp = t.hlp.raiseAll (l.flatMap fun i => n i (t.elem i)) := by
    intro l
    induction l with
    | nil => intro _ t ht; simp [ht]
    | cons a l ih =>
      intro hl t ht
      have hl' := List.nodup_cons.mp hl
      obtain ⟨h1, h2, h3⟩ := ih hl'.2 (f a t) (hP a t ht)
      simp only [List.foldl_cons]
      refine ⟨h1, ?_, ?_⟩
      · intro j
        rw [h2 j, he a t j ht]
        by_cases e : j = a
        · subst e; simp [hl'.1]
        · simp [e]
      · rw [h3, hn a t ht, List.flatMap_cons, Hlp.raiseAll_append]
        congr 1
        apply List.flatMap_congr
        intro x hx
        have : x ≠ a := fun e => hl'.1 (e ▸ hx)
        rw [he a t x ht, if_neg this]
  obtain ⟨h1, h2, h3⟩ := key indices (List.nodup_finRange 48) s hs
  refine ⟨h1, ?_, h3⟩
  intro j
  have := h2 j
  rw [if_pos (by unfold indices; exact List.mem_finRange j)] at this
  exact this

end Sys2Proof.Machine
end

