-- ==== Sys2Proof/Laws/Asks.lean ====
section
/-! SUPPORT. What the asks for transactions leave queued or marked. -/
namespace Sys2Proof.Machine

/-- There is room for an entry: fewer than 31 wait and no mark is set (R90, R101). -/
theorem Ebc.noRoom_false (e : Ebc) :
    e.noRoom = false ↔ e.ordinary < 31 ∧ ∀ i : Index, e.sched[i.val].marked = false := by
  unfold Ebc.noRoom Ebc.full Ebc.anyMark
  rw [Bool.or_eq_false_iff, decide_eq_false_iff_not, List.any_eq_false]
  constructor
  · rintro ⟨h1, h2⟩
    refine ⟨Nat.lt_of_not_le h1, fun i => ?_⟩
    have := h2 e.sched[i.val] (by simp)
    simpa using this
  · rintro ⟨h1, h2⟩
    refine ⟨Nat.not_le_of_lt h1, fun c hc => ?_⟩
    obtain ⟨n, hn, rfl⟩ := List.mem_iff_getElem.mp hc
    have := h2 ⟨n, by simpa using hn⟩
    simpa using this

/-- An entry that was changed where a property held is found by what it was changed to. -/
theorem State.queued_mapQueue (s : State) (p q : Entry → Bool) (f : Entry → Entry) (h : s.queued p = true)
    (hf : ∀ e, p e = true → q (f e) = true) : (s.mapQueue fun e => if p e then f e else e).queued q = true := by
  unfold State.queued State.mapQueue at *
  rw [List.any_eq_true] at h
  obtain ⟨e, he, hp⟩ := h
  rw [State.setEbc_ebc, List.any_map, List.any_eq_true]
  exact ⟨e, he, by simp [hp, hf e hp]⟩

/-- An entry that has entered is queued. -/
theorem State.queued_enter (s : State) (i : Index) (op : BusOp) (cls : TxClass) (origin : Origin) (q : Entry → Bool)
    (h : q { age := s.ebc.nextAge, enteredAt := s.now, element := some i, op := op, cls := cls, origin := origin } = true) :
    (s.enter (some i) op cls origin).queued q = true := by
  unfold State.queued State.enter Ebc.enter
  rw [State.setEbc_ebc, List.any_append]
  simp [h]

/-- The bookkeeping of the index that was changed. -/
theorem State.sched_modSched_self (s : State) (i : Index) (f : Sched → Sched) : (s.modSched i f).sched i = f (s.sched i) := by
  unfold State.modSched
  rw [State.sched_setSched, if_pos rfl]

/-- After an ask for a lamp drive it is queued with that lit state, or marked (R96). -/
theorem State.askLamp_asked (s : State) (i : Index) (on : Bool) : (s.askLamp i on).lampAsked i on := by
  unfold State.askLamp State.lampAsked
  split
  · rename_i h
    left
    apply State.queued_mapQueue _ _ _ _ h
    intro e he
    simp only [Bool.and_eq_true] at he
    simp [Entry.isFor] at he ⊢
    exact he.2
  · split
    · right; rw [State.sched_modSched_self]
    · left
      apply State.queued_enter
      simp [Entry.isFor]

/-- After an ask for a carriage drive it is queued with that speed, or marked (R97). -/
theorem State.askCarriage_asked (s : State) (i : Index) (speed : Int) : (s.askCarriage i speed).speedAsked i speed := by
  unfold State.askCarriage State.speedAsked
  split
  · rename_i h
    left
    apply State.queued_mapQueue _ _ _ _ h
    intro e he
    simp [Entry.isCarriageDrive, Entry.isFor] at he ⊢
    exact he.1.2
  · split
    · right; rw [State.sched_modSched_self]
    · left
      apply State.queued_enter
      simp [Entry.isFor]

/-- After an ask for a closing poll it is queued, or marked (R98). -/
theorem State.askClosing_asked (s : State) (i : Index) : (s.askClosing i).closingAsked i := by
  unfold State.askClosing State.closingAsked
  split
  · rename_i h
    left
    apply State.queued_mapQueue _ _ _ _ h
    intro e he
    simp only [Bool.and_eq_true] at he
    simp [Entry.isFor] at he ⊢
    exact he.2
  · split
    · right; rw [State.sched_modSched_self]
    · left
      apply State.queued_enter
      simp [Entry.isFor]

/-- After an ask for a refresh poll a poll is queued or in flight, or marked (R94). -/
theorem State.askRefresh_asked (s : State) (i : Index) : (s.askRefresh i).refreshAsked i := by
  unfold State.askRefresh State.refreshAsked
  split
  · rename_i h
    rw [Bool.or_eq_true] at h
    exact h.elim Or.inl fun h => Or.inr (Or.inl h)
  · split
    · right; right; rw [State.sched_modSched_self]
    · left
      apply State.queued_enter
      simp [Entry.isFor, Entry.isPoll]

end Sys2Proof.Machine
end

