-- ==== Sys2Proof/Laws/Bus.lean ====
section
/-! SUPPORT. What freed places, discarded motions and removals do on the element bus. -/
namespace Sys2Proof.Machine

/-- The transaction queue has only grown, by INTERNAL entries of elements that are younger than all before; nothing else of the bus has moved but the pending marks and the age source. -/
structure Ebc.Grows (e e' : Ebc) : Prop where
  queue : ∃ added, e'.queue = e.queue ++ added ∧ ∀ x ∈ added, e.nextAge ≤ x.age ∧ x.origin = .internal ∧ x.element.isSome
  inFlight : e'.inFlight = e.inFlight
  turnaround : e'.turnaround = e.turnaround
  quiet : e'.quiet = e.quiet
  busTx : e'.busTx = e.busTx
  nextAge : e.nextAge ≤ e'.nextAge
  due : ∀ i : Index, e'.sched[i.val].due = e.sched[i.val].due ∧ e'.sched[i.val].owed = e.sched[i.val].owed

/-- Nothing has entered. -/
theorem Ebc.Grows.refl (e : Ebc) : e.Grows e := ⟨⟨[], by simp⟩, rfl, rfl, rfl, rfl, Nat.le_refl _, fun _ => ⟨rfl, rfl⟩⟩

/-- Growth upon growth. -/
theorem Ebc.Grows.trans {a b c : Ebc} (h : a.Grows b) (g : b.Grows c) : a.Grows c := by
  obtain ⟨l, hl, hl'⟩ := h.queue
  obtain ⟨m, hm, hm'⟩ := g.queue
  refine ⟨⟨l ++ m, by rw [hm, hl, List.append_assoc], ?_⟩, g.inFlight.trans h.inFlight, g.turnaround.trans h.turnaround,
    g.quiet.trans h.quiet, g.busTx.trans h.busTx, Nat.le_trans h.nextAge g.nextAge, fun i => ?_⟩
  · intro x hx
    rcases List.mem_append.mp hx with hx | hx
    · exact hl' x hx
    · exact ⟨Nat.le_trans h.nextAge (hm' x hx).1, (hm' x hx).2⟩
  · exact ⟨(g.due i).1.trans (h.due i).1, (g.due i).2.trans (h.due i).2⟩

/-- Pending marks may change. -/
theorem Ebc.grows_sched (e : Ebc) (i : Index) (c : Sched) (hd : c.due = e.sched[i.val].due) (ho : c.owed = e.sched[i.val].owed) :
    e.Grows { e with sched := e.sched.set i.val c } := by
  refine ⟨⟨[], by simp⟩, rfl, rfl, rfl, rfl, Nat.le_refl _, fun j => ?_⟩
  simp only [getElem_set_fin]
  split
  · rename_i h; subst h; exact ⟨hd, ho⟩
  · exact ⟨rfl, rfl⟩

/-- Pending marks of one index may change. -/
theorem State.grows_modSched (s : State) (i : Index) (f : Sched → Sched) (hd : ∀ c, (f c).due = c.due) (ho : ∀ c, (f c).owed = c.owed) :
    s.ebc.Grows (s.modSched i f).ebc := Ebc.grows_sched s.ebc i _ (hd _) (ho _)

/-- An INTERNAL entry of an element enters. -/
theorem Ebc.grows_enter (e : Ebc) (now : Nat) (i : Index) (op cls) : e.Grows (e.enter now (some i) op cls .internal) := by
  refine ⟨⟨[_], rfl, by simp⟩, rfl, rfl, rfl, rfl, Nat.le_succ _, fun j => ⟨rfl, rfl⟩⟩

/-- A mark becomes an entry. -/
theorem State.grows_mod_enter (s : State) (i : Index) (f : Sched → Sched) (hd : ∀ c, (f c).due = c.due) (ho : ∀ c, (f c).owed = c.owed) (op cls) :
    s.ebc.Grows ((s.modSched i f).enter (some i) op cls .internal).ebc :=
  (State.grows_modSched s i f hd ho).trans (Ebc.grows_enter _ _ _ _ _)

/-- A freed place lets at most one INTERNAL entry in (R102). -/
theorem State.handOver_grows (s : State) : s.ebc.Grows s.handOver.ebc := by
  unfold State.handOver
  split
  · exact Ebc.Grows.refl _
  · split
    · split
      · apply State.grows_mod_enter <;> intro _ <;> rfl
      · apply State.grows_mod_enter <;> intro _ <;> rfl
    · split
      · apply State.grows_mod_enter <;> intro _ <;> rfl
      · split
        · apply State.grows_mod_enter <;> intro _ <;> rfl
        · exact Ebc.Grows.refl _

/-- Freed places let INTERNAL entries in (R102). -/
theorem State.handOverUpTo_grows (n : Nat) : ∀ s : State, s.ebc.Grows (State.handOverUpTo n s).ebc := by
  induction n with
  | zero => intro s; exact Ebc.Grows.refl _
  | succ n ih => intro s; exact (State.handOver_grows s).trans (ih _)

/-- A robot record whose open request, when it meets a condition, takes an answer (R61). -/
def RobotRecord.given (r : RobotRecord) (p : OpenRequest → Bool) (c : Answer) (d : Option Nat) : RobotRecord :=
  match r.openRequest with
  | some o => if p o then { r with openRequest := some { o with answered := true, code := c, detail := d } } else r
  | none => r

/-- Two conditions, one answer: the first that is met answers. -/
theorem RobotRecord.given_given (r : RobotRecord) (p q : OpenRequest → Bool) (c d) (hq : ∀ o, o.answered = true → q o = false) :
    (r.given p c d).given q c d = r.given (fun o => p o || q o) c d := by
  unfold RobotRecord.given
  cases h : r.openRequest with
  | none => simp [h]
  | some o => 
    by_cases hp : p o = true
    · simp [hp, hq]
    · simp [hp, h]

/-- A condition that is never met answers nothing. -/
theorem RobotRecord.given_false (r : RobotRecord) (c d) : r.given (fun _ => false) c d = r := by
  unfold RobotRecord.given; split <;> simp

/-- The robot records after an answer at the taking of a request. -/
theorem State.robot_answerNow (s : State) (k j : Slot) (c d) : (s.answerNow k c d).robot j = if j = k then
   { s.robot k with openRequest := (s.robot k).openRequest.map fun o => { o with answered := true, code := c, detail := d } } else s.robot j := by
  simp [State.answerNow, State.modRobot, State.robot_setRobot]

/-- A later answer, as a condition on the open request. -/
theorem State.robotAnswered_eq (s : State) (k i n c d) : s.robotAnswered k i n c d = (s.robot k).given (fun o => o.awaits i n) c d := rfl

/-- The robot records after a later answer. -/
theorem State.robot_answerLater (s : State) (k j : Slot) (i n c d) : (s.answerLater k i n c d).robot j = if j = k then
   (s.robot k).given (fun o => o.awaits i n) c d else s.robot j := by
  unfold State.answerLater RobotRecord.given
  cases h : (s.robot k).openRequest with
  | none => by_cases e : j = k <;> simp [e]
  | some o =>
    simp only []
    by_cases ha : o.awaits i n = true
    · rw [if_pos ha, if_pos ha, State.robot_answerNow, h]; rfl
    · rw [if_neg ha, if_neg ha]; by_cases e : j = k <;> simp [e]

/-- An idle gate raises nothing. -/
@[simp] theorem State.gateIdle_hlp (s : State) (i) : (s.gateIdle i).hlp = s.hlp := by
  unfold State.gateIdle; split <;> simp

/-- A discarded carriage drive raises nothing. -/
@[simp] theorem State.carriageDriveDiscarded_hlp (s : State) (i) : (s.carriageDriveDiscarded i).hlp = s.hlp := by
  unfold State.carriageDriveDiscarded; (repeat' split) <;> simp

/-- The notice of one discarded entry, when the host asked for it (Table 5-6). -/
def Entry.discardNotice (e : Entry) : List Notice := (match e.op, e.element, e.origin with
    | .motion m, some i, .host _ => [.element i (.driveDiscarded m)]
    | _, _, _ => [])

/-- The notices of one discarded entry. -/
theorem State.motionDiscarded_hlp (b : Bool) (s : State) (e : Entry) : (State.motionDiscarded b s e).hlp =
    s.hlp.raiseAll e.discardNotice := by
  unfold State.motionDiscarded Entry.discardNotice
  rcases e with ⟨a, t, el, op, cls, og⟩
  cases op <;> cases el <;> cases og <;> cases b <;> simp [Hlp.raiseAll]

/-- The notices of the discarded entries, oldest first. -/
theorem State.discardNotices_eq (s : State) (p : Entry → Bool) : s.discardNotices p = (s.ebc.queue.filter p).flatMap Entry.discardNotice := by
  unfold State.discardNotices
  generalize s.ebc.queue.filter p = l
  induction l with
  | nil => rfl
  | cons e l ih =>
    rw [List.filterMap_cons, List.flatMap_cons, ← ih]
    rcases e with ⟨a, t, el, op, cls, og⟩
    cases op <;> cases el <;> cases og <;> simp [Entry.discardNotice]

/-- The notices of several discarded entries. -/
theorem State.motionDiscarded_fold_hlp (b : Bool) (l : List Entry) : ∀ s : State, (l.foldl (State.motionDiscarded b) s).hlp = 
    s.hlp.raiseAll (l.flatMap Entry.discardNotice) := by
  induction l with
  | nil => intro s; rfl
  | cons e l ih => intro s; rw [List.foldl_cons, ih, State.motionDiscarded_hlp, List.flatMap_cons, Hlp.raiseAll_append]

/-- The robot records after one discarded entry (R107, R111). -/
theorem State.motionDiscarded_robot (b : Bool) (s : State) (e : Entry) (k : Slot) : (State.motionDiscarded b s e).robot k =
    (s.robot k).given (e.actOf k) .failed (some (if b then 5 else 6)) := by
  have gi : ∀ (t : State) i, (t.gateIdle i).robot k = t.robot k := by
    intro t i; exact congrFun (State.robot_of_roster (by unfold State.gateIdle; split <;> simp)) k
  have ci : ∀ (t : State) i, (t.carriageDriveDiscarded i).robot k = t.robot k := by
    intro t i; exact congrFun (State.robot_of_roster (by unfold State.carriageDriveDiscarded; (repeat' split) <;> simp)) k
  rcases e with ⟨a, t, el, op, cls, og⟩
  have none_ : ∀ e : Entry, (∀ o, e.actOf k o = false) → (s.robot k).given (e.actOf k) .failed (some (if b then 5 else 6)) = s.robot k := by
    intro e h
    have : e.actOf k = fun _ => false := funext h
    rw [this]; exact RobotRecord.given_false ..
  cases op with
  | motion m =>
    cases el with
    | none => rw [none_ _ (fun o => rfl)]; rfl
    | some i =>
      cases og with
      | internal => rw [none_ _ (fun o => rfl)]; cases b <;> simp [State.motionDiscarded, ci]
      | host tag => rw [none_ _ (fun o => rfl)]; cases b <;> simp [State.motionDiscarded, gi, State.raiseElement, State.raise]
      | robot kk nn =>
        have hr : (State.motionDiscarded b s ⟨a, t, some i, .motion m, cls, .robot kk nn⟩).robot k = (s.answerLater kk i nn .failed (some (if b then 5 else 6))).robot k := by
          cases b <;> simp [State.motionDiscarded, gi]
        rw [hr, State.robot_answerLater]
        by_cases e : k = kk
        · subst e; rw [if_pos rfl]; congr 1; funext o; simp [Entry.actOf, Entry.isMotion]
        · rw [if_neg e, none_]
          intro o
          have e' : (kk == k) = false := by simp; exact fun h => e h.symm
          simp [Entry.actOf, e']
  | poll r => rw [none_ _ (fun o => rfl)]; rfl
  | lamp r => rw [none_ _ (fun o => rfl)]; rfl
  | stopAll => rw [none_ _ (fun o => rfl)]; rfl

/-- An answered request waits for nothing. -/
theorem Entry.actOf_answered (e : Entry) (k) (o : OpenRequest) (h : o.answered = true) : e.actOf k o = false := by
  unfold Entry.actOf; split <;> simp [OpenRequest.awaits, h]

/-- The robot records after several discarded entries. -/
theorem State.motionDiscarded_fold_robot (b : Bool) (l : List Entry) : ∀ (s : State) (k : Slot), (l.foldl (State.motionDiscarded b) s).robot k = 
    (s.robot k).given (fun o => l.any (·.actOf k o)) .failed (some (if b then 5 else 6)) := by
  induction l with
  | nil => intro s k; exact (RobotRecord.given_false ..).symm
  | cons e l ih =>
    intro s k
    rw [List.foldl_cons, ih, State.motionDiscarded_robot, RobotRecord.given_given]
    · simp
    · intro o h; simp [Entry.actOf_answered _ _ _ h]

/-- A roster with the same limits differs in its records alone. -/
theorem State.robots_roster {s t : State} (h1 : t.roster.silenceLimit = s.roster.silenceLimit) (h2 : t.roster.dropLimit = s.roster.dropLimit) :
    t.roster = { s.roster with robots := t.roster.robots } := by
  cases h : t.roster; simp_all

/-- What several discarded entries leave as it is. -/
theorem State.motionDiscarded_fold_frame (b : Bool) (l : List Entry) : ∀ s : State,
    let t := l.foldl (State.motionDiscarded b) s
    t.rcc = s.rcc ∧ t.ebc = s.ebc ∧ t.mch = s.mch ∧ t.tu = s.tu ∧ t.now = s.now ∧ t.pending = s.pending ∧
    t.roster.silenceLimit = s.roster.silenceLimit ∧ t.roster.dropLimit = s.roster.dropLimit := by
  have lim : ∀ (s : State) e, (State.motionDiscarded b s e).roster.silenceLimit = s.roster.silenceLimit ∧ (State.motionDiscarded b s e).roster.dropLimit = s.roster.dropLimit := by
    intro s e
    have al : ∀ k i n c d, (s.answerLater k i n c d).roster.silenceLimit = s.roster.silenceLimit ∧ (s.answerLater k i n c d).roster.dropLimit = s.roster.dropLimit := by
      intro k i n c d
      unfold State.answerLater; (repeat' split) <;> simp [State.answerNow, State.modRobot]
    have gi : ∀ (t : State) i, (t.gateIdle i).roster = t.roster := by
      intro t i; unfold State.gateIdle; split <;> simp
    have ci : ∀ (t : State) i, (t.carriageDriveDiscarded i).roster = t.roster := by
      intro t i; unfold State.carriageDriveDiscarded; (repeat' split) <;> simp
    unfold State.motionDiscarded
    rcases e with ⟨a, t, el, op, cls, og⟩
    cases op <;> cases el <;> cases og <;> cases b <;> simp [al]
  induction l with
  | nil => intro s; simp
  | cons e l ih =>
    intro s
    simp only [List.foldl_cons]
    obtain ⟨h1, h2, h3, h4, h5, h6, h7, h8⟩ := ih (State.motionDiscarded b s e)
    have hf := State.motionDiscarded_frame s b e
    have hl := lim s e
    simp_all

/-- Discarding at a removal keeps every record (R111). -/
theorem State.motionDiscarded_false_elems (s : State) (e : Entry) : (State.motionDiscarded false s e).elems = s.elems := by
  unfold State.motionDiscarded
  rcases e with ⟨a, t, el, op, cls, og⟩
  cases op <;> cases el <;> cases og <;> simp

/-- Discarding several at a removal keeps every record. -/
theorem State.motionDiscarded_fold_false_elems (l : List Entry) (s : State) : (l.foldl (State.motionDiscarded false) s).elems = s.elems :=
  foldl_keeps State.elems _ State.motionDiscarded_false_elems l s

/-- Filling freed places changes the bus alone. -/
theorem State.handOverUpTo_blocks (n : Nat) (s : State) :
    (State.handOverUpTo n s).hlp = s.hlp ∧ (State.handOverUpTo n s).rcc = s.rcc ∧ (State.handOverUpTo n s).roster = s.roster
    ∧ (State.handOverUpTo n s).elems = s.elems ∧ (State.handOverUpTo n s).mch = s.mch ∧ (State.handOverUpTo n s).tu = s.tu
    ∧ (State.handOverUpTo n s).now = s.now ∧ (State.handOverUpTo n s).pending = s.pending := by
  simp

/-- Everything a discarding does (R107, R111): notices, answers, the queue, and what it leaves as it is. -/
theorem State.discard_spec (s : State) (p : Entry → Bool) (b : Bool) :
    (s.discard p b).hlp = s.hlp.raiseAll (s.discardNotices p)
    ∧ s.failsActs (s.discard p b) (s.discardsAct p) (if b then 5 else 6)
    ∧ Ebc.Grows { s.ebc with queue := s.ebc.queue.filter fun e => !p e } (s.discard p b).ebc
    ∧ (s.discard p b).rcc = s.rcc ∧ (s.discard p b).mch = s.mch ∧ (s.discard p b).tu = s.tu
    ∧ (s.discard p b).now = s.now ∧ (s.discard p b).pending = s.pending
    ∧ (b = false → (s.discard p b).elems = s.elems) := by
  have hb := State.handOverUpTo_blocks (s.ebc.queue.filter p).length
    ((s.ebc.queue.filter p).foldl (State.motionDiscarded b) (s.setEbc { s.ebc with queue := s.ebc.queue.filter fun e => !p e }))
  have hf := State.motionDiscarded_fold_frame b (s.ebc.queue.filter p) (s.setEbc { s.ebc with queue := s.ebc.queue.filter fun e => !p e })
  simp only [] at hf
  obtain ⟨a1, a2, a3, a4, a5, a6, a7, a8⟩ := hb
  obtain ⟨b1, b2, b3, b4, b5, b6, b7, b8⟩ := hf
  unfold State.discard
  refine ⟨?_, ⟨?_, ?_⟩, ?_, ?_, ?_, ?_, ?_, ?_, ?_⟩
  · rw [a1, State.motionDiscarded_fold_hlp, State.discardNotices_eq]; rfl
  · intro k
    rw [State.robot_of_roster a3, State.motionDiscarded_fold_robot]
    have e1 : (s.setEbc { s.ebc with queue := s.ebc.queue.filter fun e => !p e }).robot k = s.robot k := rfl
    rw [e1]
    unfold RobotRecord.given
    cases h : (s.robot k).openRequest with
    | none => rfl
    | some o =>
      have : ((s.ebc.queue.filter p).any fun x => x.actOf k o) = s.discardsAct p k o := by
        unfold State.discardsAct State.queued
        rw [List.any_filter]
      simp only [this]
  · apply State.robots_roster
    · rw [a3, b7]; rfl
    · rw [a3, b8]; rfl
  · have := State.handOverUpTo_grows (s.ebc.queue.filter p).length ((s.ebc.queue.filter p).foldl (State.motionDiscarded b) (s.setEbc { s.ebc with queue := s.ebc.queue.filter fun e => !p e }))
    rw [b2] at this
    exact this
  · rw [a2, b1]; rfl
  · rw [a5, b3]; rfl
  · rw [a6, b4]; rfl
  · rw [a7, b5]; rfl
  · rw [a8, b6]; rfl
  · intro h; subst h; rw [a4, State.motionDiscarded_fold_false_elems]; rfl

/-- The bookkeeping after one index was changed. -/
theorem State.sched_modSched (s : State) (i j : Index) (f) : (s.modSched i f).sched j = if j = i then f (s.sched i) else s.sched j := by
  unfold State.modSched; rw [State.sched_setSched]

/-- An entry that enters keeps the bookkeeping. -/
@[simp] theorem State.sched_enter (s : State) (i j op c o) : (s.enter i op c o).sched j = s.sched j := rfl

/-- An entry enters at the tail. -/
@[simp] theorem State.queue_enter (s : State) (i op c o) : (s.enter i op c o).ebc.queue = s.ebc.queue ++ [{ age := s.ebc.nextAge, enteredAt := s.now, element := i, op := op, cls := c, origin := o }] := rfl

/-- A change of bookkeeping keeps the queue. -/
@[simp] theorem State.queue_modSched (s : State) (i f) : (s.modSched i f).ebc.queue = s.ebc.queue := rfl

/-- A freed place gives nothing to an index without a mark. -/
theorem State.handOver_unmarked (s : State) (i : Index) (h : (s.sched i).marked = false) :
    s.handOver.sched i = s.sched i ∧ s.handOver.ebc.queue.filter (·.isFor i) = s.ebc.queue.filter (·.isFor i) := by
  simp only [Sched.marked, Bool.or_eq_false_iff] at h
  obtain ⟨⟨⟨h1, h2⟩, h3⟩, h4⟩ := h
  have key : ∀ (j : Index) (f : Sched → Sched) op cls, j ≠ i → 
     ((s.modSched j f).enter (some j) op cls .internal).sched i = s.sched i ∧
     ((s.modSched j f).enter (some j) op cls .internal).ebc.queue.filter (·.isFor i) = s.ebc.queue.filter (·.isFor i) := by
    intro j f op cls hj
    constructor
    · rw [State.sched_enter, State.sched_modSched, if_neg (Ne.symm hj)]
    · simp [List.filter_append, Entry.isFor, hj]
  unfold State.handOver
  split
  · simp
  · split
    · rename_i j hj
      have hj := List.find?_some hj
      have : j ≠ i := by rintro rfl; simp_all
      split <;> exact key _ _ _ _ this
    · split
      · rename_i j hj
        have hj := List.find?_some hj
        have : j ≠ i := by rintro rfl; simp_all
        exact key _ _ _ _ this
      · split
        · rename_i j hj
          have hj := List.find?_some hj
          have : j ≠ i := by rintro rfl; simp_all
          exact key _ _ _ _ this
        · simp

/-- Freed places give nothing to an index without a mark. -/
theorem State.handOverUpTo_unmarked (n : Nat) (i : Index) : ∀ (s : State), (s.sched i).marked = false →
    (State.handOverUpTo n s).sched i = s.sched i ∧ (State.handOverUpTo n s).ebc.queue.filter (·.isFor i) = s.ebc.queue.filter (·.isFor i) := by
  induction n with
  | zero => intro s _; exact ⟨rfl, rfl⟩
  | succ n ih =>
    intro s h
    obtain ⟨h1, h2⟩ := State.handOver_unmarked s i h
    obtain ⟨h3, h4⟩ := ih s.handOver (by rw [h1]; exact h)
    exact ⟨h3.trans h1, h4.trans h2⟩

/-- Orphaning marks what is in flight for the element and changes nothing else of the bus (R111). -/
theorem State.orphan_ebc (s : State) (i : Index) : (s.orphan i).ebc = { s.ebc with
    inFlight := s.ebc.inFlight.map fun f => if f.entry.isFor i then { f with orphaned := true } else f } := by
  have self (x : Option InFlight) (flying : s.ebc.inFlight = x) : s.ebc = { s.ebc with inFlight := x } := by rw [← flying]
  unfold State.orphan
  split
  · rename_i f flying
    rw [flying, Option.map_some]
    by_cases here : f.entry.isFor i = true
    · rw [if_pos here, if_pos here]
      cases gone : f.orphaned <;> simp
    · rw [if_neg here, if_neg here]
      exact self _ flying
  · rename_i flying
    rw [flying, Option.map_none]
    exact self _ flying

/-- An orphaned MOTION answers the robot whose ACT waits for it, and no other (R7, R61). -/
theorem State.robot_motionOrphaned (s : State) (e : Entry) (k : Slot) :
    (s.motionOrphaned e).robot k = (s.robot k).given (e.actOf k) .failed (some 6) := by
  have unmoved (never : ∀ o, e.actOf k o = false) : (s.robot k).given (e.actOf k) .failed (some 6) = s.robot k := by
    rw [show e.actOf k = fun _ => false from funext never]
    exact RobotRecord.given_false ..
  unfold State.motionOrphaned
  split
  · rename_i m i j number op here origin
    rw [State.robot_answerLater]
    by_cases mine : k = j
    · subst mine
      rw [if_pos rfl]
      congr 1
      funext o
      simp [Entry.actOf, Entry.isMotion, op, here, origin]
    · rw [if_neg mine, unmoved]
      intro o
      have other : (j == k) = false := by simpa using fun same => mine same.symm
      simp [Entry.actOf, here, origin, other]
  · rename_i none_
    rw [unmoved]
    intro o
    rcases e with ⟨age, at_, element, op, cls, origin⟩
    cases op <;> cases element <;> cases origin <;> first | rfl | exact absurd rfl (none_ _ _ _ _ rfl rfl)

/-- Orphaning answers the robot whose ACT waits for the MOTION in flight (R7). -/
theorem State.robot_orphan (s : State) (i : Index) (k : Slot) :
    (s.orphan i).robot k = (s.robot k).given (s.orphansAct i k) .failed (some 6) := by
  have unmoved (never : ∀ o, s.orphansAct i k o = false) :
      (s.robot k).given (s.orphansAct i k) .failed (some 6) = s.robot k := by
    rw [show s.orphansAct i k = fun _ => false from funext never]
    exact RobotRecord.given_false ..
  unfold State.orphan
  cases flying : s.ebc.inFlight with
  | none => exact (unmoved fun o => by simp [State.orphansAct, flying]).symm
  | some f =>
    by_cases here : f.entry.isFor i = true
    · cases gone : f.orphaned with
      | true => simpa [here, gone] using (unmoved fun o => by simp [State.orphansAct, flying, gone]).symm
      | false =>
        have asks : s.orphansAct i k = f.entry.actOf k := by
          funext o
          simp [State.orphansAct, flying, here, gone]
        simpa [here, gone, asks] using s.robot_motionOrphaned f.entry k
    · simpa [here] using (unmoved fun o => by simp [State.orphansAct, flying, here]).symm

/-- Orphaning keeps the limits of the roster. -/
theorem State.orphan_limits (s : State) (i : Index) : (s.orphan i).roster.silenceLimit = s.roster.silenceLimit
    ∧ (s.orphan i).roster.dropLimit = s.roster.dropLimit := by
  have later (k : Slot) (j : Index) (number : BitVec 4) (code : Answer) (detail : Option Nat) :
      (s.answerLater k j number code detail).roster.silenceLimit = s.roster.silenceLimit
        ∧ (s.answerLater k j number code detail).roster.dropLimit = s.roster.dropLimit := by
    unfold State.answerLater
    (repeat' split) <;> simp [State.answerNow, State.modRobot]
  unfold State.orphan State.motionOrphaned
  (repeat' split) <;> simp [later]

/-- Everything that putting away the transactions of an old definition does (R5, R6, R7, R111): notices, answers, the bus, which
only grows by what the other elements' marks let in, and what it leaves as it is. -/
theorem State.putAway_spec (s : State) (i : Index) :
    let unmarked : Sched := { s.sched i with pollDue := false, closingWanted := false, lampSync := false, carriageSync := false }
    (s.putAway i).hlp = s.hlp.raiseAll (s.discardNotices (·.isFor i)) ∧ s.failsPutAway (s.putAway i) i
    ∧ Ebc.Grows { s.ebc with
        queue := s.ebc.queue.filter fun e => !e.isFor i
        sched := s.ebc.sched.set i.val unmarked
        inFlight := s.ebc.inFlight.map fun f => if f.entry.isFor i then { f with orphaned := true } else f } (s.putAway i).ebc
    ∧ (s.putAway i).rcc = s.rcc ∧ (s.putAway i).mch = s.mch ∧ (s.putAway i).tu = s.tu ∧ (s.putAway i).now = s.now
    ∧ (s.putAway i).pending = s.pending ∧ (s.putAway i).elems = s.elems
    ∧ (s.putAway i).ebc.queue.filter (·.isFor i) = [] ∧ (s.putAway i).sched i = unmarked := by
  intro unmarked
  obtain ⟨u, hu⟩ : ∃ u, u = s.modSched i fun c =>
    { c with pollDue := false, closingWanted := false, lampSync := false, carriageSync := false } := ⟨_, rfl⟩
  have cleared : u.sched i = unmarked := by rw [hu, State.sched_modSched, if_pos rfl]
  have put : s.putAway i = (u.discard (fun e => e.isFor i) false).orphan i := by rw [hu]; rfl
  obtain ⟨notices, ⟨answers, limits⟩, grows, rcc, mch, tu, now, waiting, elems⟩ := State.discard_spec u (fun e => e.isFor i) false
  have frame := (State.motionDiscarded_fold_frame false (u.ebc.queue.filter (fun e => e.isFor i))
    (u.setEbc { u.ebc with queue := u.ebc.queue.filter fun e => !e.isFor i })).2.1
  have kept := State.handOverUpTo_unmarked (u.ebc.queue.filter (fun e => e.isFor i)).length i
    ((u.ebc.queue.filter (fun e => e.isFor i)).foldl (State.motionDiscarded false)
      (u.setEbc { u.ebc with queue := u.ebc.queue.filter fun e => !e.isFor i })) (by
      rw [State.sched, frame]
      show (u.sched i).marked = false
      rw [cleared]
      rfl)
  have handed : u.discard (fun e => e.isFor i) false = State.handOverUpTo (u.ebc.queue.filter (fun e => e.isFor i)).length
    ((u.ebc.queue.filter (fun e => e.isFor i)).foldl (State.motionDiscarded false)
      (u.setEbc { u.ebc with queue := u.ebc.queue.filter fun e => !e.isFor i })) := rfl
  rw [put]
  simp only [State.orphan_frame, State.orphan_ebc]
  refine ⟨by rw [notices, hu]; rfl, ⟨fun k => ?_, ?_⟩, ?_, by rw [rcc, hu]; rfl, by rw [mch, hu]; rfl, by rw [tu, hu]; rfl,
    by rw [now, hu]; rfl, by rw [waiting, hu]; rfl, by rw [elems rfl, hu]; rfl, ?_, ?_⟩
  · have flying : (u.discard (fun e => e.isFor i) false).ebc.inFlight = s.ebc.inFlight := by rw [grows.inFlight, hu]; rfl
    have same : (u.discard (fun e => e.isFor i) false).orphansAct i k = s.orphansAct i k := by
      funext o
      rw [State.orphansAct, State.orphansAct, flying]
    have first : (u.discard (fun e => e.isFor i) false).robot k
        = (s.robot k).given (s.discardsAct (fun e => e.isFor i) k) .failed (some 6) := by
      rw [answers k, hu]
      rfl
    rw [State.robot_orphan, same, first, RobotRecord.given_given]
    · rfl
    · intro o done
      simp [State.orphansAct, Entry.actOf_answered _ _ _ done]
  · apply State.robots_roster
    · rw [(State.orphan_limits _ i).1, limits, hu]; rfl
    · rw [(State.orphan_limits _ i).2, limits, hu]; rfl
  · obtain ⟨queue, inFlight, turnaround, quiet, busTx, nextAge, due⟩ := grows
    rw [hu] at queue inFlight turnaround quiet busTx nextAge due
    exact ⟨by rw [hu]; exact queue, by rw [hu, inFlight]; rfl, by rw [hu]; exact turnaround, by rw [hu]; exact quiet,
      by rw [hu]; exact busTx, by rw [hu]; exact nextAge, by rw [hu]; exact due⟩
  · rw [handed, kept.2, frame]
    simp
  · rw [State.sched, State.orphan_ebc]
    show (u.discard (fun e => e.isFor i) false).sched i = _
    rw [handed, kept.1, State.sched, frame]
    exact cleared

/-! ## When an event of the bus happens -/

/-- The reply window is open for an addressed transaction whose request frame of 4 slices is over (R87). -/
theorem InFlight.windowOpen_iff (f : InFlight) : f.windowOpen = true ↔ f.entry.isStop = false ∧ 4 ≤ f.elapsed := by
  rw [InFlight.windowOpen, Bool.and_eq_true, Bool.not_eq_true', decide_eq_true_iff]
  rfl

/-- A frame outside every reply window is ignored (R88). -/
theorem execBusReply_outside (frame : List Byte) (s : State) (outside : ∀ f, s.ebc.inFlight = some f → f.windowOpen = false) :
    execBusReply frame s = .next s := by
  unfold execBusReply
  cases flying : s.ebc.inFlight with
  | none => rfl
  | some f => simp [outside f flying]

/-- An entry has waited its element's poll period (R95). -/
theorem State.waitedItsPeriod_iff (s : State) (e : Entry) (i : Index) (r : ElementRecord) (here : e.element = some i)
    (stands : s.elem i = some r) : s.waitedItsPeriod e = true ↔ e.enteredAt + 20 * r.pollPeriod ≤ s.now := by
  simp only [State.waitedItsPeriod, here, Option.bind_some, stands, Config.slicesPerMs, Nat.mul_comm 20]
  exact decide_eq_true_iff

/-- A refresh is due: its time has come, it is not owed already and no poll-due mark stands (R94). -/
theorem State.refreshDue_iff (s : State) (i : Index) : s.refreshDue i = true ↔
    ∃ due, (s.sched i).due = some due ∧ due ≤ s.now ∧ (s.sched i).owed = false ∧ (s.sched i).pollDue = false := by
  unfold State.refreshDue
  cases (s.sched i).due <;> simp [and_assoc]

/-- A refresh that is not due is not asked for (R94). -/
theorem execRefreshDue_early (s : State) (i : Index) (early : s.refreshDue i = false) : execRefreshDue i s = .next s := by
  simp [execRefreshDue, early]

/-! ## Asks one after another -/

/-- An ask for a lamp drive lets at most one INTERNAL entry in when no LAMP of the element waits (R96). -/
theorem State.askLamp_grows (s : State) (i : Index) (on : Bool) (absent : s.queued (fun e => e.isLamp && e.isFor i) = false) :
    s.ebc.Grows (s.askLamp i on).ebc := by
  unfold State.askLamp
  split
  · rename_i waits
    rw [absent] at waits
    cases waits
  · split
    · exact State.grows_modSched s i _ (fun _ => rfl) (fun _ => rfl)
    · exact Ebc.grows_enter _ _ _ _ _

/-- Asks of handlers change the bus alone (R96 to R98). -/
theorem State.asksAll_blocks (asks : List BusAsk) : ∀ s : State, s.onlyChanges (s.asksAll asks) [.ebc] := by
  have one (s : State) (q : BusAsk) : s.onlyChanges (s.asksAll [q]) [.ebc] := by
    intro b other
    cases b
    case ebc => exact absurd (List.mem_singleton.mpr rfl) other
    all_goals
      simp only [State.sameBlock, State.asksAll, List.foldl_cons, List.foldl_nil]
      split <;> simp
  induction asks with
  | nil => intro s b _; cases b <;> rfl
  | cons q rest ih =>
    intro s b other
    have now := one s q b other
    have later := ih (s.asksAll [q]) b other
    cases b <;> exact later.trans now

/-- Lamp drives asked for one after another are asks of handlers (R96). -/
theorem State.asksLamps_eq (s : State) (asks : List (Index × Bool)) :
    s.asksLamps asks = s.asksAll (asks.map fun q => .lamp q.1 q.2) := by
  rw [State.asksAll, List.foldl_map]
  rfl

/-- Asks for lamp drives change the bus alone (R96). -/
theorem State.asksLamps_blocks (asks : List (Index × Bool)) (s : State) : s.onlyChanges (s.asksLamps asks) [.ebc] := by
  rw [State.asksLamps_eq]
  exact State.asksAll_blocks _ s

end Sys2Proof.Machine
end

