-- ==== Sys2Proof/Laws/Claims.lean ====
section
/-! SUPPORT. What departures and vacatings do. -/
namespace Sys2Proof.Machine

/-- The records after a station was told of a change of its holder (R136, R137). -/
theorem State.elem_holderChanged (s : State) (i j : Index) :
    (s.holderChanged i).elem j = if j = i then
      (s.elem i).map (fun r => { r with part := r.part.holderSeen r.claim.holder.isSome }) else s.elem j := by
  unfold State.holderChanged State.modStation State.relightStation
  cases h : s.elem i with
  | none => simp [State.stationAt, h]; intro e; subst e; exact h
  | some r =>
    cases hp : r.part with
    | station p =>
      simp only [State.stationAt, h, hp, State.setStation, State.elem_setPart, State.holder, if_true, Option.map_some, ElementRecord.setPart, Option.bind_some]
      split
      · rename_i e1
        rw [State.elem_setPart]
        by_cases e2 : j = i
        · subst e2
          simp only [h, Option.map_some, Option.some.injEq, ElementRecord.setPart, KindPart.holderSeen, if_true]
          congr 2
          cases p; simp only [StationPart.mk.injEq, true_and]; simp only at e1
          rename_i m a b; subst e1; cases m <;> simp [LampMode.lit]
        · simp [e2]
      · rw [State.elem_askLamp, State.elem_setPart, State.elem_setPart, State.elem_setPart]
        by_cases e2 : j = i
        · subst e2
          simp only [h, Option.map_some, Option.some.injEq, ElementRecord.setPart, KindPart.holderSeen, if_true]
          congr 2
        · simp [e2]
    | goal p =>
      simp only [State.stationAt, h, hp, Option.map_some, KindPart.holderSeen]
      by_cases e : j = i
      · subst e; rw [h, if_pos rfl, ← hp]
      · simp [e]
    | gate p =>
      simp only [State.stationAt, h, hp, Option.map_some, KindPart.holderSeen]
      by_cases e : j = i
      · subst e; rw [h, if_pos rfl, ← hp]
      · simp [e]
    | carriage p =>
      simp only [State.stationAt, h, hp, Option.map_some, KindPart.holderSeen]
      by_cases e : j = i
      · subst e; rw [h, if_pos rfl, ← hp]
      · simp [e]

/-- The claim part that a departed holder leaves (R31). -/
theorem ClaimPart.passOn_eq (c : ClaimPart) : c.passOn = { c with holder := c.waiting.head?, heldFor := 0, waiting := c.waiting.tail } := by
  unfold ClaimPart.passOn; split <;> simp [*]

/-- The records after a holder has departed: the element passes to the head waiter or is free (R31). -/
theorem State.elem_depart (s : State) (i j : Index) (n : ClaimNotice) :
    (s.depart i n).elem j = if j = i then
      (s.elem i).map (fun r => { r with claim := r.claim.passOn, part := r.part.holderSeen r.claim.passOn.holder.isSome }) else s.elem j := by
  unfold State.depart
  cases h : s.elem i with
  | none => simp; intro e; subst e; exact h
  | some r => 
    simp only [State.elem_holderChanged, State.elem_promotionNotice, State.elem_raiseClaim, State.elem_modClaim, if_true, h, Option.map_some]
    by_cases e : j = i <;> simp [e]

/-- The notices of a departure. -/
theorem State.depart_hlp (s : State) (i : Index) (n : ClaimNotice) :
    (s.depart i n).hlp = s.hlp.raiseAll (match s.elem i with | some r => departureNotices i r.claim n | none => []) := by
  unfold State.depart
  split
  · rename_i r h
    simp only [State.holderChanged_frame, State.promotionNotice, departureNotices, h]
    cases r.claim.waiting <;> simp [Hlp.raiseAll]
  · simp [*]

/-- The records and notices after departures from several elements, in order. -/
theorem State.depart_fold (cause : VacateCause) (k : Slot) (l : List Index) : ∀ (s : State), l.Nodup →
    (∀ j, (l.foldl (fun u i => u.depart i (.vacated i k cause)) s).elem j = if j ∈ l then
      (s.elem j).map (fun r => { r with claim := r.claim.passOn, part := r.part.holderSeen r.claim.passOn.holder.isSome }) else s.elem j)
    ∧ (l.foldl (fun u i => u.depart i (.vacated i k cause)) s).hlp = s.hlp.raiseAll (l.flatMap fun i => match s.elem i with
        | some r => departureNotices i r.claim (.vacated i k cause)
        | none => []) := by
  induction l with
  | nil => intro s _; simp
  | cons a l ih =>
    intro s hn
    have hn' := List.nodup_cons.mp hn
    obtain ⟨h1, h2⟩ := ih (s.depart a (.vacated a k cause)) hn'.2
    constructor
    · intro j
      rw [List.foldl_cons, h1 j, State.elem_depart]
      by_cases e : j = a
      · subst e; simp [hn'.1]
      · simp [e]
    · rw [List.foldl_cons, h2, State.depart_hlp, List.flatMap_cons, Hlp.raiseAll_append]
      congr 1
      apply List.flatMap_congr
      intro x hx
      have : x ≠ a := fun e => hn'.1 (e ▸ hx)
      rw [State.elem_depart, if_neg this]

/-- What a robot holds. -/
theorem State.mem_heldBy (s : State) (k : Slot) (i : Index) : i ∈ s.heldBy k ↔ s.holder i = some k := by
  simp [State.heldBy, indices]

/-- No element stands twice among those a robot holds. -/
theorem State.heldBy_nodup (s : State) (k : Slot) : (s.heldBy k).Nodup := by
  unfold State.heldBy indices; exact List.Nodup.filter _ (List.nodup_finRange 48)

/-- A robot waits on nothing. -/
theorem State.waitsOn_none (s : State) (k : Slot) : s.waitsOn k = none ↔ ∀ i, k ∉ s.waiters i := by
  simp [State.waitsOn, indices]

/-- A robot waits on the element that its lookup names. -/
theorem State.waitsOn_some (s : State) (k : Slot) (i : Index) (h : s.waitsOn k = some i) : k ∈ s.waiters i := by
  have := List.find?_some h; simpa using this

/-- Everything a vacating does to records and notices: the robot leaves every list and every element it holds, in ascending order (R37). -/
theorem State.vacate_spec (s : State) (k : Slot) (cause : VacateCause) (hs : s.claimsSound) :
    (∀ j, (s.vacate k cause).elem j = (s.elem j).map (·.withoutRobot k))
    ∧ (s.vacate k cause).hlp = s.hlp.raiseAll (s.vacateNotices k cause) := by
  obtain ⟨hc, hr⟩ := hs
  obtain ⟨-, hw, -⟩ := hr k
  -- the state off the list
  obtain ⟨t, ht⟩ : ∃ t, t = (match s.waitsOn k with
    | some i => s.leaveList i k
    | none => s) := ⟨_, rfl⟩
  have hte : ∀ j, t.elem j = (s.elem j).map (fun r => { r with claim := { r.claim with waiting := r.claim.waiting.erase k } }) := by
    intro j
    rw [ht]
    split
    · rename_i i hi
      have hki := State.waitsOn_some s k i hi
      rw [State.leaveList, State.elem_modClaim]
      split
      · rename_i e; subst e; rfl
      · rename_i e
        cases hj : s.elem j with
        | none => rfl
        | some r =>
          have : k ∉ r.claim.waiting := by
            intro hk
            exact e (hw j i (by simp [State.waiters, hj, hk]) hki)
          simp [List.erase_of_not_mem this]
    · rename_i hi
      rw [State.waitsOn_none] at hi
      cases hj : s.elem j with
      | none => rfl
      | some r =>
        have : k ∉ r.claim.waiting := by
            intro hk
            exact hi j (by simp [State.waiters, hj, hk])
        simp [List.erase_of_not_mem this]
  have hth : t.heldBy k = s.heldBy k := by
    unfold State.heldBy
    congr 1; funext i
    simp [State.holder, hte, Option.bind_map]
  have htl : t.hlp = s.hlp := by rw [ht]; split <;> simp [State.leaveList, State.modClaim]
  have hv : s.vacate k cause = (t.heldBy k).foldl (fun u i => u.depart i (.vacated i k cause)) t := by
    rw [ht]; rfl
  obtain ⟨h1, h2⟩ := State.depart_fold cause k (t.heldBy k) t (State.heldBy_nodup t k)
  rw [hv]
  have hne : ∀ i r, s.elem i = some r → r.claim.holder = some k → k ∉ r.claim.waiting := by
    intro i r h hh hk
    have := hc i
    simp [h, ClaimPart.sound, hh, hk] at this
  constructor
  · intro j
    rw [h1 j, hth]
    by_cases hj : j ∈ s.heldBy k
    · rw [if_pos hj, hte]
      rw [State.mem_heldBy, State.holder] at hj
      cases he : s.elem j with
      | none => rfl
      | some r =>
        rw [he] at hj; simp only [Option.bind_some] at hj
        have := hne j r he hj
        simp [ElementRecord.withoutRobot, ClaimPart.without, hj, ClaimPart.passOn_eq, List.erase_of_not_mem this]
    · rw [if_neg hj, hte]
      rw [State.mem_heldBy, State.holder] at hj
      cases he : s.elem j with
      | none => rfl
      | some r =>
        rw [he] at hj; simp only [Option.bind_some] at hj
        simp [ElementRecord.withoutRobot, ClaimPart.without, hj]
  · rw [h2, hth, htl]
    congr 1
    apply List.flatMap_congr
    intro i hi
    rw [State.mem_heldBy, State.holder] at hi
    rw [hte]
    cases he : s.elem i with
    | none => rfl
    | some r =>
        rw [he] at hi; simp only [Option.bind_some] at hi
        have := hne i r he hi
        simp [List.erase_of_not_mem this]

end Sys2Proof.Machine
end

