-- ==== Sys2Proof/Laws/Places.lean ====
section
/-! SUPPORT. What places that become free on the element bus, and the ask for a STOP_ALL, make of the transaction queue and the pending marks. -/
namespace Sys2Proof.Machine

/-! ## The marks in the order of their places (R102) -/

/-- The CONTROL marks of an index, in the order in which they enter. -/
def State.controlMarks (s : State) (i : Index) : List (Index × BusOp × TxClass) :=
  (if (s.sched i).closingWanted then [(i, .poll .closing, .control)] else [])
    ++ if (s.sched i).carriageSync then [(i, .motion (.carriage (s.speedAt i)), .control)] else []

/-- A poll-due mark that may enter: no closing-poll-wanted mark stands beside it (R101). -/
def Sched.refreshWaits (c : Sched) : Bool := c.pollDue && !c.closingWanted

/-- The pending marks by class: CONTROL, then REFRESH, then COSMETIC. -/
theorem State.marksInOrder_eq (s : State) : s.marksInOrder = indices.flatMap s.controlMarks
    ++ (indices.filter fun i => (s.sched i).refreshWaits).map (fun i => (i, BusOp.poll .refresh, TxClass.refresh))
    ++ (indices.filter fun i => (s.sched i).lampSync).map fun i => (i, BusOp.lamp (s.litAt i), TxClass.cosmetic) := rfl

/-- The indices around the first one with a property: those before it lack the property, and it occurs nowhere else. -/
theorem firstIndex_split {p : Index → Bool} {i : Index} (found : indices.find? p = some i) :
    ∃ before behind, indices = before ++ i :: behind ∧ (∀ j ∈ before, p j = false ∧ j ≠ i) ∧ (∀ j ∈ behind, j ≠ i) ∧ p i = true := by
  obtain ⟨here, before, behind, split, none_⟩ := List.find?_eq_some_iff_append.mp found
  have once : indices.Nodup := List.nodup_finRange 48
  rw [split, List.nodup_append] at once
  obtain ⟨_, tail, apart⟩ := once
  refine ⟨before, behind, split, fun j early => ⟨by simpa using none_ j early, apart j early i (List.mem_cons_self ..)⟩, ?_, here⟩
  rintro j late rfl
  exact (List.nodup_cons.mp tail).1 late

/-- The bookkeeping after a mark became an entry. -/
theorem State.sched_served (s : State) (i j : Index) (f : Sched → Sched) (op : BusOp) (cls : TxClass) :
    ((s.modSched i f).enter (some i) op cls .internal).sched j = if j = i then f (s.sched i) else s.sched j := by
  rw [State.sched_enter, State.sched_modSched]

/-- What an index's marks would enter with, after another index was served. -/
theorem State.controlMarks_other (s : State) {i j : Index} (other : j ≠ i) (f : Sched → Sched) (op : BusOp) (cls : TxClass) :
    ((s.modSched i f).enter (some i) op cls .internal).controlMarks j = s.controlMarks j := by
  unfold State.controlMarks
  rw [State.sched_served, if_neg other]
  rfl

/-- What an index's marks would enter with, after it was served itself. -/
theorem State.controlMarks_self (s : State) (i : Index) (f : Sched → Sched) (op : BusOp) (cls : TxClass) :
    ((s.modSched i f).enter (some i) op cls .internal).controlMarks i =
      (if (f (s.sched i)).closingWanted then [(i, .poll .closing, .control)] else [])
        ++ if (f (s.sched i)).carriageSync then [(i, .motion (.carriage (s.speedAt i)), .control)] else [] := by
  unfold State.controlMarks
  rw [State.sched_served, if_pos rfl]
  rfl

/-- A filter over the indices after one index was served. -/
theorem State.filter_served (s : State) (i : Index) (f : Sched → Sched) (op : BusOp) (cls : TxClass) (p : Sched → Bool)
    (same : p (f (s.sched i)) = p (s.sched i)) :
    (indices.filter fun j => p (((s.modSched i f).enter (some i) op cls .internal).sched j)) = indices.filter fun j => p (s.sched j) := by
  apply List.filter_congr
  intro j _
  rw [State.sched_served]
  split
  · rename_i here
    rw [here, same]
  · rfl

/-- The first index with a property leaves the list when it is served. -/
theorem State.filter_first {s : State} {i : Index} {p : Sched → Bool} (found : indices.find? (fun j => p (s.sched j)) = some i)
    (f : Sched → Sched) (op : BusOp) (cls : TxClass) (gone : p (f (s.sched i)) = false) :
    (indices.filter fun j => p (s.sched j))
      = i :: indices.filter fun j => p (((s.modSched i f).enter (some i) op cls .internal).sched j) := by
  obtain ⟨before, behind, split, early, late, here⟩ := firstIndex_split found
  have none_ (g : Index → Bool) (lacks : ∀ j ∈ before, g j = false) : before.filter g = [] :=
    List.filter_eq_nil_iff.mpr fun j m => by simp [lacks j m]
  rw [split, List.filter_append, List.filter_append, none_ _ fun j m => (early j m).1, none_ _ fun j m => by
      rw [State.sched_served, if_neg (early j m).2, (early j m).1],
    List.filter_cons_of_pos (p := fun j => p (s.sched j)) here,
    List.filter_cons_of_neg (p := fun j => p (State.sched _ j)) (by rw [State.sched_served, if_pos rfl, gone]; simp), List.nil_append,
    List.nil_append]
  refine congrArg (i :: ·) (List.filter_congr fun j m => ?_)
  rw [State.sched_served, if_neg (late j m)]

/-- The CONTROL marks after the first index that has one was served. -/
theorem State.control_first {s : State} {i : Index}
    (found : indices.find? (fun j => (s.sched j).closingWanted || (s.sched j).carriageSync) = some i)
    (f : Sched → Sched) (op : BusOp) (cls : TxClass) (w : Index × BusOp × TxClass)
    (gone : s.controlMarks i = w :: ((s.modSched i f).enter (some i) op cls .internal).controlMarks i) :
    indices.flatMap s.controlMarks = w :: indices.flatMap ((s.modSched i f).enter (some i) op cls .internal).controlMarks := by
  obtain ⟨before, behind, split, early, late, _⟩ := firstIndex_split found
  have none_ : before.flatMap s.controlMarks = [] := by
    rw [List.flatMap_eq_nil_iff]
    intro j m
    have lacks := Bool.or_eq_false_iff.mp (early j m).1
    simp [State.controlMarks, lacks.1, lacks.2]
  have same (l : List Index) (others : ∀ j ∈ l, j ≠ i) :
      l.flatMap ((s.modSched i f).enter (some i) op cls .internal).controlMarks = l.flatMap s.controlMarks :=
    List.flatMap_congr fun j m => State.controlMarks_other s (others j m) f op cls
  rw [split, List.flatMap_append, List.flatMap_append, List.flatMap_cons, List.flatMap_cons,
    same before fun j m => (early j m).2, same behind late, none_, gone]
  rfl

/-! ## A freed place (R102) -/

/-- Without a mark, or with the queue full, a freed place goes to nobody. -/
theorem State.handOver_nobody {s : State} (nobody : s.ebc.full = true ∨ s.marksInOrder = []) : s.handOver = s := by
  rw [State.handOver]
  split
  · rfl
  · rename_i room
    rcases nobody with full | none_
    · exact absurd full room
    · rw [State.marksInOrder_eq, List.append_eq_nil_iff, List.append_eq_nil_iff] at none_
      obtain ⟨⟨control, refresh⟩, lamp⟩ := none_
      rw [List.flatMap_eq_nil_iff] at control
      rw [List.map_eq_nil_iff, List.filter_eq_nil_iff] at refresh lamp
      have closing (i : Index) : (s.sched i).closingWanted = false ∧ (s.sched i).carriageSync = false := by
        have none_ := control i (List.mem_finRange i)
        rw [State.controlMarks, List.append_eq_nil_iff] at none_
        constructor
        · by_contra on; simp [on] at none_
        · by_contra on; simp [on] at none_
      have polls (i : Index) : (s.sched i).pollDue = false := by
        have none_ := refresh i (List.mem_finRange i)
        simpa [Sched.refreshWaits, (closing i).1] using none_
      have lamps (i : Index) : (s.sched i).lampSync = false := by simpa using lamp i (List.mem_finRange i)
      simp [closing, polls, lamps, List.find?_eq_none.mpr]

/-- The first mark gets the place: it becomes an entry, and the marks behind it stay in their order. -/
theorem State.handOver_first {s : State} {w : Index × BusOp × TxClass} {rest : List (Index × BusOp × TxClass)}
    (room : s.ebc.full = false) (marks : s.marksInOrder = w :: rest) :
    s.handOver = (s.modSched w.1 fun c => c.served w.1 [w]).enter (some w.1) w.2.1 w.2.2 .internal ∧ s.handOver.marksInOrder = rest
      ∧ w.2.1 ≠ .stopAll := by
  have done {i : Index} {f : Sched → Sched} {op : BusOp} {cls : TxClass}
      (given : s.handOver = (s.modSched i f).enter (some i) op cls .internal)
      (order : s.marksInOrder = (i, op, cls) :: ((s.modSched i f).enter (some i) op cls .internal).marksInOrder)
      (serves : f (s.sched i) = (s.sched i).served i [(i, op, cls)]) (ordinary : op ≠ .stopAll) :
      s.handOver = (s.modSched w.1 fun c => c.served w.1 [w]).enter (some w.1) w.2.1 w.2.2 .internal ∧ s.handOver.marksInOrder = rest
        ∧ w.2.1 ≠ .stopAll := by
    obtain ⟨rfl, rfl⟩ := List.cons.inj (marks.symm.trans order)
    refine ⟨given.trans ?_, by rw [given], ordinary⟩
    simp only [State.modSched, serves]
  have start : s.handOver = _ := State.handOver.eq_def s
  rw [if_neg (by simp [room])] at start
  cases control : indices.find? fun j => (s.sched j).closingWanted || (s.sched j).carriageSync with
  | some i =>
    obtain ⟨_, _, _, _, _, here⟩ := firstIndex_split control
    rw [control] at start
    dsimp only at start
    by_cases closing : (s.sched i).closingWanted = true
    · rw [if_pos closing] at start
      refine done start ?_ ?_ (by simp)
      · rw [State.marksInOrder_eq, State.marksInOrder_eq, State.control_first control _ _ _ (i, .poll .closing, .control),
          State.filter_served (p := Sched.refreshWaits), State.filter_served (p := Sched.lampSync)]
        · rfl
        · rfl
        · simp [Sched.refreshWaits, closing]
        · rw [State.controlMarks_self]
          simp [State.controlMarks, closing]
      · simp [Sched.served]
    · have carriage : (s.sched i).carriageSync = true := by simpa [closing] using here
      rw [if_neg closing] at start
      refine done start ?_ ?_ (by simp)
      · rw [State.marksInOrder_eq, State.marksInOrder_eq,
          State.control_first control _ _ _ (i, .motion (.carriage (s.speedAt i)), .control),
          State.filter_served (p := Sched.refreshWaits), State.filter_served (p := Sched.lampSync)]
        · rfl
        · rfl
        · rfl
        · rw [State.controlMarks_self]
          simp [State.controlMarks, closing, carriage]
      · simp [Sched.served]
  | none =>
    have calm (j : Index) : (s.sched j).closingWanted = false ∧ (s.sched j).carriageSync = false := by
      simpa using List.find?_eq_none.mp control j (List.mem_finRange j)
    have silent {t : State} (same : ∀ j, (t.sched j).closingWanted = false ∧ (t.sched j).carriageSync = false) :
        indices.flatMap t.controlMarks = [] := by
      rw [List.flatMap_eq_nil_iff]
      intro j _
      simp [State.controlMarks, same j]
    have stays {i : Index} {f : Sched → Sched} {op : BusOp} {cls : TxClass}
        (keeps : (f (s.sched i)).closingWanted = (s.sched i).closingWanted ∧ (f (s.sched i)).carriageSync = (s.sched i).carriageSync)
        (j : Index) : (((s.modSched i f).enter (some i) op cls .internal).sched j).closingWanted = false
          ∧ (((s.modSched i f).enter (some i) op cls .internal).sched j).carriageSync = false := by
      rw [State.sched_served]
      split
      · rw [keeps.1, keeps.2]
        exact calm i
      · exact calm j
    have polls : (fun j => (s.sched j).pollDue) = fun j => (s.sched j).refreshWaits := by
      funext j
      simp [Sched.refreshWaits, (calm j).1]
    rw [control] at start
    dsimp only at start
    rw [polls] at start
    cases refresh : indices.find? fun j => (s.sched j).refreshWaits with
    | some i =>
      rw [refresh] at start
      refine done start ?_ ?_ (by simp)
      · rw [State.marksInOrder_eq, State.marksInOrder_eq, silent calm, silent (stays ⟨rfl, rfl⟩),
          State.filter_first (p := Sched.refreshWaits) refresh, State.filter_served (p := Sched.lampSync)]
        · rfl
        · rfl
        · rfl
      · simp [Sched.served]
    | none =>
      have quiet : (indices.filter fun j => (s.sched j).refreshWaits) = [] :=
        List.filter_eq_nil_iff.mpr fun j m => List.find?_eq_none.mp refresh j m
      rw [refresh] at start
      dsimp only at start
      cases lamp : indices.find? fun j => (s.sched j).lampSync with
      | some i =>
        rw [lamp] at start
        refine done start ?_ ?_ (by simp)
        · rw [State.marksInOrder_eq, State.marksInOrder_eq, silent calm, silent (stays ⟨rfl, rfl⟩),
            State.filter_served (p := Sched.refreshWaits), quiet, State.filter_first (p := Sched.lampSync) lamp]
          · rfl
          · rfl
          · rfl
        · simp [Sched.served]
      | none =>
        have dark : (indices.filter fun j => (s.sched j).lampSync) = [] :=
          List.filter_eq_nil_iff.mpr fun j m => List.find?_eq_none.mp lamp j m
        rw [State.marksInOrder_eq, silent calm, quiet, dark] at marks
        cases marks

/-! ## Several freed places (R90, R102) -/

/-- Serving nobody leaves a mark's bookkeeping as it is. -/
theorem Sched.served_nobody (c : Sched) (i : Index) : c.served i [] = c := by simp [Sched.served]

/-- Serving one mark and then others is serving them all. -/
theorem Sched.served_cons (c : Sched) (i : Index) (w : Index × BusOp × TxClass) (gone : List (Index × BusOp × TxClass)) :
    (if i = w.1 then c.served w.1 [w] else c).served i gone = c.served i (w :: gone) := by
  split
  · rename_i here
    subst here
    simp [Sched.served, Bool.and_assoc]
  · rename_i other
    have apart : (w.1 == i) = false := by simpa using fun same => other same.symm
    simp [Sched.served, apart]

/-- Places that become free go to the pending marks in their order, while fewer than 31 entries wait (R90, R102). -/
theorem State.handOverUpTo_ebc (n : Nat) : ∀ s : State, (State.handOverUpTo n s).ebc = s.handsOn n := by
  have nobody {s : State} {n : Nat} (gone : s.marksInOrder.take (min n (31 - s.ebc.ordinary)) = []) : s.handsOn n = s.ebc := by
    have same : (Vector.ofFn fun i : Fin 48 => (s.sched i).served i []) = s.ebc.sched := by
      ext i hi
      simp [Sched.served_nobody, State.sched]
    simp only [State.handsOn, gone, List.zipIdx_nil, List.map_nil, List.append_nil, List.length_nil, Nat.add_zero, same]
  induction n with
  | zero => intro s; exact (nobody (by simp)).symm
  | succ n ih =>
    intro s
    rw [State.handOverUpTo, ih]
    cases full : s.ebc.full with
    | true =>
      have none_ : 31 - s.ebc.ordinary = 0 := Nat.sub_eq_zero_of_le (of_decide_eq_true (p := 31 ≤ s.ebc.ordinary) full)
      rw [State.handOver_nobody (.inl full), nobody (by simp [none_]), nobody (by simp [none_])]
    | false =>
      cases marks : s.marksInOrder with
      | nil => rw [State.handOver_nobody (.inr marks), nobody (by simp [marks]), nobody (by simp [marks])]
      | cons w rest =>
        have room : s.ebc.ordinary < 31 := by
          have := of_decide_eq_false (p := 31 ≤ s.ebc.ordinary) full
          omega
        obtain ⟨first, behind, ordinary⟩ := State.handOver_first full marks
        have filled : s.handOver.ebc.ordinary = s.ebc.ordinary + 1 := by
          have waits (age at_ : Nat) : Entry.isStop { age := age, enteredAt := at_, element := some w.1, op := w.2.1, cls := w.2.2,
                                                      origin := .internal } = false := by
            unfold Entry.isStop
            split <;> simp_all
          rw [first, Ebc.ordinary, State.queue_enter, List.countP_append]
          simp [Ebc.ordinary, waits]
        have taken : min (n + 1) (31 - s.ebc.ordinary) = min n (31 - (s.ebc.ordinary + 1)) + 1 := by omega
        simp only [State.handsOn, behind, marks, filled, taken, List.take_succ_cons]
        generalize rest.take _ = gone
        have served : (Vector.ofFn fun i : Fin 48 => (s.handOver.sched i).served i gone)
            = Vector.ofFn fun i : Fin 48 => (s.sched i).served i (w :: gone) := by
          congr 1
          funext i
          rw [first, State.sched_served, ← Sched.served_cons (s.sched i)]
          split
          · rename_i here
            subst here
            rfl
          · rfl
        rw [served, first]
        have queue : (s.ebc.queue ++ [{ age := s.ebc.nextAge, enteredAt := s.now, element := some w.1, op := w.2.1, cls := w.2.2,
                                        origin := .internal }]) ++ gone.zipIdx.map (fun x => ({
              age := s.ebc.nextAge + 1 + x.2, enteredAt := s.now, element := some x.1.1, op := x.1.2.1, cls := x.1.2.2,
              origin := .internal } : Entry))
            = s.ebc.queue ++ (w :: gone).zipIdx.map fun x => {
              age := s.ebc.nextAge + x.2, enteredAt := s.now, element := some x.1.1, op := x.1.2.1, cls := x.1.2.2
              origin := .internal } := by
          rw [List.append_assoc, List.zipIdx_cons, List.zipIdx_succ, List.map_cons, List.map_map]
          refine congrArg (s.ebc.queue ++ ·) (congrArg₂ List.cons rfl (List.map_congr_left fun x _ => ?_))
          simp only [Function.comp]
          congr 1
          omega
        have ages : s.ebc.nextAge + 1 + gone.length = s.ebc.nextAge + (w :: gone).length := by
          rw [List.length_cons]
          omega
        rw [← queue, ← ages]
        rfl

/-- What the freed places are given depends on the bus, the wall time and the records alone. -/
theorem State.handsOn_congr {s t : State} (ebc : s.ebc = t.ebc) (now : s.now = t.now) (elems : s.elems = t.elems) (n : Nat) :
    s.handsOn n = t.handsOn n := by
  cases s
  cases t
  subst ebc now elems
  rfl

/-! ## Discards (R5, R104, R107) -/

/-- The bus after a discard: the entries are gone, and their places go to the pending marks, with the lit states and speeds of the
records after the discard. -/
theorem State.discard_ebc (s : State) (p : Entry → Bool) (byStopAll : Bool) : (s.discard p byStopAll).ebc =
    ({ s with elems := (s.discard p byStopAll).elems
              ebc := { s.ebc with queue := s.ebc.queue.filter fun e => !p e } } : State).handsOn (s.ebc.queue.countP p) := by
  have kept := State.motionDiscarded_fold_frame byStopAll (s.ebc.queue.filter p)
    (s.setEbc { s.ebc with queue := s.ebc.queue.filter fun e => !p e })
  have elems : (s.discard p byStopAll).elems = _ := (State.handOverUpTo_blocks _ _).2.2.2.1
  rw [elems, List.countP_eq_length_filter]
  refine (State.handOverUpTo_ebc _ _).trans ?_
  apply State.handsOn_congr
  · exact kept.2.1
  · exact kept.2.2.2.2.1
  · rfl

/-- The bus after the transactions of an old definition were put away (R5, R102, R111). -/
theorem State.putAway_ebc (s : State) (i : Index) : (s.putAway i).ebc = s.busPutAway i := by
  obtain ⟨_, _, grows, _, _, _, _, _, elems⟩ := State.discard_spec (s.modSched i fun c =>
    { c with pollDue := false, closingWanted := false, lampSync := false, carriageSync := false }) (fun e => e.isFor i) false
  rw [State.putAway, State.orphan_ebc, State.busPutAway, grows.inFlight, State.discard_ebc, elems rfl]
  rfl

/-! ## The ask for a STOP_ALL (R104 to R106) -/

/-- The first step of the ask: a STOP_ALL enters and a POLL in flight is abandoned, when none stands. -/
theorem State.stopEntered_eq (s : State) :
    (if s.stopAllStands then s else (s.enter none .stopAll .safety .internal).abandonPoll) = s.stopEntered := by
  by_cases stands : s.stopAllStands = true
  · rw [State.stopEntered, if_pos stands, if_pos stands]
  · rw [State.stopEntered, if_neg stands, if_neg stands, State.abandons, if_neg stands]
    obtain ⟨hlp, rcc, roster, elems, ⟨queue, inFlight, turnaround, quiet, sched, nextAge, busTx⟩, mch, tu, now, pending⟩ := s
    cases inFlight with
    | none => rfl
    | some f =>
      obtain ⟨⟨age, at_, element, op, cls, origin⟩, address, elapsed, orphaned⟩ := f
      cases op with
      | poll role =>
        cases element with
        | none => rfl
        | some i =>
          cases orphaned with
          | true => rfl
          | false =>
            dsimp only [State.abandonPoll, State.enter, State.setEbc, Ebc.enter]
            cases here : elems[i.val] with
            | none =>
              have due (t : State) (same : t.elems = elems) : t.setDue i = t := by
                rw [State.setDue, State.elem, same, here]
              rw [due _ rfl]
              simp only [Bool.false_eq_true, if_false, State.elem]
              rw [here]
              cases role <;> rfl
            | some r =>
              have due (t : State) (same : t.elems = elems) :
                  t.setDue i = t.modSched i fun c => { c with due := some (t.now + 20 * r.pollPeriod), owed := false } := by
                rw [State.setDue, State.elem, same, here]
                simp only [Config.slicesPerMs, Nat.mul_comm 20]
              rw [due _ rfl]
              simp only [Bool.false_eq_true, if_false, State.elem]
              rw [here]
              cases role <;> rfl
      | _ => rfl

/-- The bus after the ask: its STOP_ALL stands, the MOTION entries are gone, and their places are handed on. -/
theorem State.askStopAll_ebc (s : State) : s.askStopAll.ebc = s.busStopped s.askStopAll := by
  rw [State.busStopped, State.askStopAll, State.stopEntered_eq, State.discard_ebc]
  apply State.handsOn_congr
  · rfl
  · rw [← State.stopEntered_eq]
    split <;> simp
  · rfl

end Sys2Proof.Machine
end

