-- ==== Sys2Proof/Laws/Tally.lean ====
section
/-! SUPPORT. What credits, snapshots and the check for the final snapshot do. -/
namespace Sys2Proof.Machine

/-- Two cells stand at one place only when they are the same cell. -/
theorem cellIndex_inj {row row' : Fin 28} {column column' : Index} (h : cellIndex row column = cellIndex row' column') :
    row = row' ∧ column = column' := by
  have hv : row.val * 48 + column.val = row'.val * 48 + column'.val := congrArg Fin.val h
  constructor <;> apply Fin.ext <;> omega

/-- The cells after points were added to one (R171). -/
theorem State.cell_addPoints (s : State) (row row' : Fin 28) (column column' : Index) (points : Int) :
    (s.addPoints row column points).tu.cell row' column' =
      if row' = row ∧ column' = column then (s.tu.cell row column).add points else s.tu.cell row' column' := by
  simp only [State.addPoints, Tu.cell, State.setTu_tu]
  rw [Vector.getElem_set]
  by_cases e : row' = row ∧ column' = column
  · obtain ⟨rfl, rfl⟩ := e
    simp
  · rw [if_neg e, if_neg]
    · intro h
      obtain ⟨h1, h2⟩ := cellIndex_inj (Fin.ext h)
      exact e ⟨h1.symm, h2.symm⟩

/-- The cells after a credit; a credit of 0 points changes none (R121, R136). -/
theorem State.cell_credit (s : State) (row row' : Fin 28) (column column' : Index) (points : Nat) :
    (s.credit row column points).tu.cell row' column' =
      if row' = row ∧ column' = column ∧ points ≠ 0 then (s.tu.cell row column).add points else s.tu.cell row' column' := by
  unfold State.credit
  by_cases h : points = 0
  · simp [h]
  · rw [if_neg h, State.cell_addPoints]
    simp [h]

/-- Of the tally unit a credit changes the cells and the totals only. -/
theorem State.credit_tu (s : State) (row : Fin 28) (column : Index) (points : Nat) :
    (s.credit row column points).tu =
      { s.tu with cells := (s.credit row column points).tu.cells, totals := (s.credit row column points).tu.totals } := by
  unfold State.credit
  split <;> rfl

/-- Everything the setting of the final wait does (R178). -/
theorem State.awaitFinal_spec (s : State) (wait : List Index) :
    (s.awaitFinal wait).tu = s.finalTaken wait ∧ (s.awaitFinal wait).hlp = s.hlp.raiseAll (s.finalNotices wait) := by
  unfold State.awaitFinal State.finalCheck State.finalTaken State.finalNotices
  by_cases h : wait = [] ∧ s.tu.sending = none
  · obtain ⟨rfl, h⟩ := h
    simp [h, State.snapshot, State.imageNow, State.raise, Hlp.raiseAll]
  · by_cases hw : wait = []
    · have hs : s.tu.sending ≠ none := fun e => h ⟨hw, e⟩
      subst hw
      simp [hs, Hlp.raiseAll]
    · simp [hw, Hlp.raiseAll]

end Sys2Proof.Machine
end

