-- ==== Sys2Proof/Laws/Windows.lean ====
section
/-! SUPPORT. What an evaluation of the windows does. -/
namespace Sys2Proof.Machine

/-- A goal part with its lit state worked out (R126). -/
def GoalPart.relit (p : GoalPart) : GoalPart := { p with lit := p.lampMode.lit p.filled }

/-- The records after a goal's lamp was worked out. -/
theorem State.elem_relightGoal (s : State) (i j : Index) : (s.relightGoal i).elem j = if j = i then (s.elem i).map (ElementRecord.onGoal GoalPart.relit) else s.elem j := by
  unfold State.relightGoal
  split
  · rename_i p h
    obtain ⟨r, hr, hp⟩ := State.goal_some h
    simp only []
    split
    · rename_i e
      apply ite_self_map
      rw [hr]; simp only [Option.map_some, ElementRecord.onGoal, hp, GoalPart.relit]
      cases p; simp only at e; subst e; rw [← hp]
    · rw [State.elem_askLamp, State.elem_setGoal]; simp [hr, ElementRecord.onGoal, hp, ElementRecord.setPart, GoalPart.relit]
  · rename_i h; exact ite_self_map (State.goal_none h _)

/-- The records after a goal window opened (R116). -/
theorem State.elem_openWindow (s : State) (i j : Index) : (s.openWindow i).elem j = if j = i then (s.elem i).map (ElementRecord.onGoal fun p => p.opening.relit) else s.elem j := by
  unfold State.openWindow
  split
  · rename_i p h
    obtain ⟨r, hr, hp⟩ := State.goal_some h
    rw [State.elem_raise, State.elem_relightGoal]
    by_cases e : j = i
    · subst e; simp only [if_true, State.elem_setGoal, hr, Option.map_some, ElementRecord.onGoal, hp, ElementRecord.setPart]
    · simp [e, State.elem_setGoal]
  · rename_i h; exact ite_self_map (State.goal_none h _)

/-- The records after a goal window began to close (R117). -/
theorem State.elem_beginClose (s : State) (i j : Index) : (s.beginClose i).elem j = if j = i then (s.elem i).map (ElementRecord.onGoal fun p =>
   { p with window := .closing, reopenWanted := false, closingInMatch := s.mch.phase.inMatch || s.mch.phase == .ended }) else s.elem j := by
  unfold State.beginClose
  rw [State.elem_askClosing, State.elem_modGoal]

/-- An opened goal part with its lit state. -/
theorem GoalPart.opening_relit (p : GoalPart) : p.opening.relit =
      { p with window := .opened, quota := p.pendingQuota.getD p.quota, pendingQuota := none,
               count := (p.pendingQuota.getD p.quota : Nat), filled := false, overrangeNoted := false, windowPieces := 0,
               windowNumber := p.windowNumber + 1, lit := p.lampMode == .on } := by
  unfold GoalPart.opening GoalPart.relit
  cases p.lampMode <;> simp [LampMode.lit]

/-- The records after one goal window was evaluated (R114). -/
theorem State.elem_evaluateGoal (s : State) (i j : Index) : (s.evaluateGoal i).elem j = if j = i then
    (s.elem i).map (ElementRecord.onGoal fun p => p.evaluated s.mch.phase) else s.elem j := by
  unfold State.evaluateGoal
  split
  · rename_i p h
    obtain ⟨r, hr, hp⟩ := State.goal_some h
    have hself : p.evaluated s.mch.phase = p →
        (s.elem i).map (ElementRecord.onGoal fun q => q.evaluated s.mch.phase) = s.elem i := by
      intro h
      simp only [hr, Option.map_some, ElementRecord.onGoal, hp, h]
      rw [← hp]
    simp only []
    split
    · rename_i hw hd; rw [State.elem_openWindow]; simp [hr, ElementRecord.onGoal, hp, GoalPart.evaluated, hw, hd, GoalPart.opening_relit]
    · rename_i hw hd
      exact ite_self_map (hself (by simp [GoalPart.evaluated, hw, hd]))
    · rename_i hw hd
      exact ite_self_map (hself (by simp [GoalPart.evaluated, hw, hd]))
    · rename_i hw hd; rw [State.elem_beginClose]; simp [hr, ElementRecord.onGoal, hp, GoalPart.evaluated, hw, hd]
    · rename_i hw; rw [State.elem_setGoal]; simp [hr, ElementRecord.onGoal, hp, GoalPart.evaluated, hw, ElementRecord.setPart]
  · rename_i h; exact ite_self_map (State.goal_none h _)

/-- The notice of one goal's evaluation. -/
def openNotice (phase : Phase) (i : Index) (r : Option ElementRecord) : List Notice := match r with
  | some r => match r.part with
    | .goal p => if p.window = .closed ∧ windowDesired p.control p.phaseSet phase = true then [.goal i (p.windowNumber + 1) (.opened (p.pendingQuota.getD p.quota))] else []
    | _ => []
  | none => []

/-- The notices of one goal's evaluation (R116). -/
theorem State.hlp_evaluateGoal (s : State) (i : Index) : (s.evaluateGoal i).hlp = s.hlp.raiseAll (openNotice s.mch.phase i (s.elem i)) := by
  unfold State.evaluateGoal openNotice
  split
  · rename_i p h
    obtain ⟨r, hr, hp⟩ := State.goal_some h
    simp only [hr, hp]
    split
    · rename_i hw hd; simp only [State.openWindow, h, State.raise_hlp]; simp [hw, hd, Hlp.raiseAll, GoalPart.opening]
    · rename_i hw hd; simp [hw, hd]
    · rename_i hw hd; simp [hw]
    · rename_i hw hd; simp [hw, State.beginClose]
    · rename_i hw; simp [hw]
  · rename_i h
    rw [State.goalAt_eq] at h
    cases he : s.elem i with
    | none => simp
    | some r => simp only [he, Option.bind_some] at h; simp only []; split at h <;> simp_all

/-- The notices of an evaluation, goal by goal. -/
theorem State.openNotices_eq (s : State) (phase) : s.openNotices phase = indices.flatMap fun i => openNotice phase i (s.elem i) := by
  unfold State.openNotices
  generalize indices = l
  induction l with
  | nil => rfl
  | cons i l ih =>
    rw [List.filterMap_cons, List.flatMap_cons, ← ih]
    unfold openNotice
    rw [State.goalAt_eq]
    cases s.elem i with
    | none => simp
    | some r => 
      simp only [Option.bind_some]
      cases r.part with
      | goal p =>
        by_cases hc : p.window = .closed ∧ windowDesired p.control p.phaseSet phase = true
        · simp only [if_pos hc, List.cons_append, List.nil_append]
        · simp only [if_neg hc, List.nil_append]
      | gate p => rfl
      | station p => rfl
      | carriage p => rfl

/-- The records after one station window was evaluated (R134). -/
theorem State.elem_evaluateStation (s : State) (i j : Index) : (s.evaluateStation i).elem j = if j = i then
    (s.elem i).map (ElementRecord.onStation fun p => p.evaluated s.mch.phase) else s.elem j := by
  unfold State.evaluateStation
  split
  · rename_i p h
    obtain ⟨r, hr, hp⟩ := State.station_some h
    simp only []
    split
    · rename_i hw
      apply ite_self_map
      simp only [hr, Option.map_some, ElementRecord.onStation, hp, StationPart.evaluated, hw, if_true]
      rw [← hp]
    · rename_i hw; rw [State.setStation, State.elem_setPart]; simp [hr, ElementRecord.onStation, hp, StationPart.evaluated, hw, ElementRecord.setPart]
  · rename_i h; exact ite_self_map (State.station_none h _)

/-- Everything an evaluation of the windows does to records and notices (R114, R134). -/
theorem State.evaluateWindows_spec (s : State) :
    (∀ j, s.evaluateWindows.elem j = (s.elem j).map fun r => { r with part := r.part.evaluated s.mch.phase })
    ∧ s.evaluateWindows.hlp = s.hlp.raiseAll (s.openNotices s.mch.phase) := by
  obtain ⟨a1, a2, a3⟩ := State.eachIndex_walk (fun t => t.mch = s.mch) (fun i t => t.evaluateGoal i)
    (fun i r => r.map (ElementRecord.onGoal fun p => p.evaluated s.mch.phase)) (openNotice s.mch.phase)
    (by intro i t h; simp [h]) (by intro i t j h; rw [State.elem_evaluateGoal, h]) (by intro i t h; rw [State.hlp_evaluateGoal, h]) s rfl
  obtain ⟨b1, b2, b3⟩ := State.eachIndex_walk (fun t => t.mch = s.mch) (fun i t => t.evaluateStation i)
    (fun i r => r.map (ElementRecord.onStation fun p => p.evaluated s.mch.phase)) (fun _ _ => [])
    (by intro i t h; simp [h]) (by intro i t j h; rw [State.elem_evaluateStation, h]) (by intro i t h; simp) _ a1
  unfold State.evaluateWindows
  constructor
  · intro j; rw [b2, a2]
    cases s.elem j with
    | none => rfl
    | some r =>
      cases hp : r.part <;> simp only [Option.map_some, Option.some.injEq, ElementRecord.onGoal, ElementRecord.onStation,
        KindPart.evaluated, hp] <;> rw [← hp]
  · have hnil : (indices.flatMap fun _ => ([] : List Notice)) = [] := List.flatMap_eq_nil_iff.mpr (by simp)
    rw [b3, a3, State.openNotices_eq, hnil, Hlp.raiseAll_nil]

end Sys2Proof.Machine
end

