-- ==== Sys2Proof/Tests/Slice0.lean ====
section
/-! SUPPORT. Tests: the ill-formed terms the checks refuse, the check values of the three CRCs, small one-step tests, and for every statement with hypotheses a state and operands that meet them, clause by clause at the boundary values. -/
set_option Elab.async false
namespace Sys2Proof.Tests
open Sys2Proof.Machine

/-! ## Well-formedness -/

theorem test_wf_hostFrame : (Instr.hostFrame []).wf = false := by decide
theorem test_wf_frameInAssemblyDiscarded :
    (Instr.frameInAssemblyDiscarded 2 true).wf = false ∧ (Instr.frameInAssemblyDiscarded 250 true).wf = false
      ∧ (Instr.frameInAssemblyDiscarded 1 true).wf = true ∧ (Instr.frameInAssemblyDiscarded 251 true).wf = true := by decide
theorem test_wf_slotFrame : (Instr.slotFrame .join []).wf = false := by decide
theorem test_wf_join : (Instr.join .join []).wf = false := by decide
theorem test_wf_busReply : (Instr.busReply []).wf = false := by decide
theorem test_wf_claim : (Instr.claim 0 0 0).wf = false := by decide
theorem test_wf_release : (Instr.release 0 0 0).wf = false := by decide
theorem test_wf_cancel : (Instr.cancel 0 0).wf = false := by decide
theorem test_wf_act : (Instr.act 0 0 0 .opening).wf = false := by decide
theorem test_wf_ackSignal : (Instr.ackSignal 0 0 0).wf = false := by decide

/-! ## The CRCs over the digits 1 to 9 (R183, R194, R195) -/

/-- The bytes of the digits 1 to 9. -/
def digits : List Byte := [0x31, 0x32, 0x33, 0x34, 0x35, 0x36, 0x37, 0x38, 0x39]

theorem test_hostCrc : hostCrc digits = 0x29B1 := by decide +kernel
theorem test_busCrc : busCrc digits = 0x31C3 := by decide +kernel
theorem test_radioCrc : radioCrc digits = 0xFEE8 := by decide +kernel

/-! ## Small states -/

/-- The state a command leads to; the state itself where it leads to none. -/
def after (i : Instr) (s : State) : State :=
  match exec i s with
  | .next t => t
  | .fault _ => s
  | .refused _ => s

/-- The state a step leads to; the state itself where it leads to none. -/
def stepped (s : State) : State :=
  match step s with
  | .next t => t
  | .fault _ => s
  | .refused _ => s

/-- A command leads to a state that is the same in every block; of the tally the cells are left aside. -/
def leads (i : Instr) (s t : State) : Bool :=
  let u := after i s
  u.hlp == t.hlp && u.rcc == t.rcc && u.roster == t.roster && u.elems == t.elems && u.ebc == t.ebc && u.mch == t.mch
    && u.tu.totals == t.tu.totals && u.tu.sending == t.tu.sending && u.now == t.now && u.pending == t.pending

/-- The status of the reply that stands last in the outbound queue. -/
def status (t : State) : Option Status :=
  match t.hlp.out.getLast? with
  | some (.reply _ _ code _) => some code
  | _ => none

/-- The answer and the detail of a robot's open request. -/
def answered (t : State) (k : Slot) : Option (Answer × Option Nat) :=
  (t.robot k).openRequest.map fun o => (o.code, o.detail)

/-- A record of a kind, ONLINE, with nothing read from it yet. -/
def recordWith (address : Byte) (part : KindPart) : ElementRecord :=
  { address := address, alliance := none, state := .online, failures := 0, epoch := some 7, reading := none, pollPeriod := 100,
    faultHolds := false, holdLimit := 0, guardTime := 0, sticky := Sticky.clear, claim := ClaimPart.empty, part := part }

/-- A goal part of quota 3, with 2 points a piece and a bonus of 5. -/
def goalPart : GoalPart := goalStart 15 3 2 5 .auto

/-- A goal record. -/
def goalRecord : ElementRecord := { recordWith 1 (.goal goalPart) with reading := some (.goal 10 false) }
/-- A gate record at CLOSED. -/
def gateRecord : ElementRecord := recordWith 2 (.gate { position := some .closed, travelLimit := 20, motion := .idle })
/-- A station record. -/
def stationRecord : ElementRecord := recordWith 3 (.station (stationStart 15 4 .auto))
/-- A carriage part with a speed for each zone. -/
def carriagePart : CarriagePart := carriageStart (Vector.ofFn fun z => 10 * z.val) .stop
/-- A carriage record in zone 2. -/
def carriageRecord : ElementRecord :=
  { recordWith 4 (.carriage carriagePart) with reading := some (.carriage 2 false false false 0) }

/-- A robot in a state, with its robot id bound. -/
def robotIn (state : RobotState) (team : Half) : RobotRecord :=
  { RobotRecord.vacant with state := state, team := some team, alliance := some .a, robotId := some team }

/-- A field of four elements at 0 to 3 and a goal at 47, and robots at 0 to 5 and 23. -/
def field : State :=
  let s := State.reset
  let s := s.setElem 0 (some goalRecord)
  let s := s.setElem 1 (some gateRecord)
  let s := s.setElem 2 (some stationRecord)
  let s := s.setElem 3 (some carriageRecord)
  let s := s.setElem 47 (some { goalRecord with address := 63 })
  let s := s.setRobot 0 (robotIn .active 100)
  let s := s.setRobot 1 (robotIn .linked 101)
  let s := s.setRobot 2 (robotIn .ready 102)
  let s := s.setRobot 3 { robotIn .assigned 103 with robotId := none }
  let s := s.setRobot 4 { robotIn .benched 104 with bench := some 1 }
  let s := s.setRobot 5 (robotIn .ejected 105)
  s.setRobot 23 (robotIn .active 123)

/-- A state in another phase. -/
def inPhase (p : Phase) (s : State) : State := s.setMch { s.mch with phase := p, remaining := 5 }

/-- The field in PLAY. -/
def play : State := inPhase .play field

/-- A state with a hold on the stack. -/
def withHold (s : State) (number : Byte) (cause : HoldCause) : State :=
  let h : Hold := { number := number, cause := cause, detail := none, matchTime := 0, phase := .play }
  s.setMch { s.mch with stack := h :: s.mch.stack }

/-- A state whose stack is full. -/
def fullStack (s : State) : State :=
  [1, 2, 3, 4, 5, 6].foldl (fun t n => withHold t n .hostHold) s

/-- A state with another record at an index. -/
def withRecord (s : State) (i : Index) (r : ElementRecord) : State := s.setElem i (some r)

/-- A state with a claim part at an index. -/
def withClaim (s : State) (i : Index) (holder : Option Slot) (waiting : List Slot) : State :=
  s.modClaim i fun c => { c with holder := holder, waiting := waiting }

/-- A state with a transaction in flight, at the moment its reply window opens. -/
def inFlight (s : State) (i : Index) (address : Byte) (op : BusOp) : State :=
  s.setEbc { s.ebc with
    quiet := none
    inFlight := some { entry := { age := 0, enteredAt := 0, element := some i, op := op, cls := .refresh, origin := .internal },
                       address := address, elapsed := 4, orphaned := false } }

/-- The in-flight transaction of `inFlight`. -/
def flight (i : Index) (address : Byte) (op : BusOp) : InFlight :=
  { entry := { age := 0, enteredAt := 0, element := some i, op := op, cls := .refresh, origin := .internal }, address := address,
    elapsed := 4, orphaned := false }

/-- A state whose bus is free, with entries queued. -/
def queuedUp (s : State) (q : List Entry) : State := s.setEbc { s.ebc with quiet := none, queue := q, nextAge := 100 }

/-- A queued entry. -/
def entry (age : Nat) (i : Index) (op : BusOp) (cls : TxClass) : Entry :=
  { age := age, enteredAt := 0, element := some i, op := op, cls := cls, origin := .internal }

/-- Fields of a SET-TIMING that leaves everything as it is. -/
def noTiming : TimingFields :=
  { interval := none, silenceLimit := none, dropLimit := none, openingTenths := none, transitionTenths := none,
    playTenths := none, finaleTenths := none, hostSilence := none }

/-- Fields of a DEFINE-ELEMENT of a gate. -/
def gateFields (index address limit : Byte) : ElementFields :=
  { index := index, kind := 1, address := address, alliance := 0, pollPeriod := 0, faultHolds := 0, holdLimit := 0,
    guardTime := 0, kindPart := 0 :: limit :: List.replicate 7 0 }

theorem test_wf_defineElement :
    (Instr.defineElement 0 { gateFields 0 1 5 with kindPart := 0 :: 5 :: List.replicate 6 0 }).wf = false := by decide

theorem test_field_accepts : field.accepts = true ∧ play.accepts = true ∧ State.reset.accepts = true := by decide +kernel

/-! ## The block -/

theorem test_step_front : let s : State := { State.reset with pending := [.turnaroundExpiry, .cycleStart] }
    s.pending = .turnaroundExpiry :: [.cycleStart]
      ∧ step s = exec .turnaroundExpiry { s with pending := [.cycleStart] } := ⟨rfl, rfl⟩

theorem test_step_idle_first : State.reset.pending = [] ∧ State.reset.rcc.firstCycle = true
    ∧ step State.reset = .next { State.reset with pending := [.cycleStart] } := ⟨rfl, rfl, rfl⟩

/-- The four ways an empty queue is met: a selection due, and a slice of time with match time stopped, short of a tenth, and at
one; the host silence timer runs and stands. -/
theorem test_step_idle :
    let quiet : State := { State.reset with rcc := { State.reset.rcc with firstCycle := false } }
    let running (n : Nat) : State := (inPhase .play quiet).setMch { (inPhase .play quiet).mch with tenthTimer := n }
    let timed : State := quiet.setMch { quiet.mch with phase := .staged, hostLimit := 1 }
    (queuedUp quiet [entry 0 0 (.lamp true) .cosmetic]).ebc.free = true
      ∧ quiet.ebc.free = false ∧ quiet.matchRuns = false ∧ quiet.silenceRunning = false ∧ timed.silenceRunning = true
      ∧ (running 1998).matchRuns = true
      ∧ (stepped (running 1998)).mch.tenthTimer = 1999 ∧ Instr.matchTenth ∉ (stepped (running 1998)).pending
      ∧ Instr.matchTenth ∈ (stepped (running 1999)).pending := by decide +kernel

theorem test_resetPartEffect : State.reset.hlp.resetRequested = false ∧ leads .resetPartEffect State.reset State.reset
    ∧ (after (.resetPart 9) field).hlp.resetRequested = true
    ∧ (after .resetPartEffect (after (.resetPart 9) field)).hlp.cause = .resetRequest := by decide +kernel

/-! ## The host link -/

theorem test_requests_wf : (Instr.identify 9).wf = true ∧ encodeRequest (.identify 9) = some (0x01, 9, [])
    ∧ (Instr.defineElement 1 (gateFields 0 1 5)).wf = true
    ∧ decodeRequest 0x05 1 ([0, 1, 1, 0, 0, 0, 0, 0, 0, 5] ++ List.replicate 7 0) = .request (.defineElement 1 (gateFields 0 1 5))
    ∧ decodeRequest 0x03 1 [0x81, 40, 30] = .request (.setTiming 1 { noTiming with interval := some 40, hostSilence := some 30 })
    ∧ decodeRequest 0x1D 0 [] = .request (.sheetStop 0) ∧ decodeRequest 0x1E 0 [] = .unknownRequest
    ∧ decodeRequest 0x00 0 [] = .unknownRequest ∧ decodeRequest 0x1D 0 [0] = .badLength := by decide

theorem test_hostFrame_whole : State.reset.listening = true ∧ State.reset.hlp.rx = []
    ∧ leads (.hostFrame (hostFrameBytes 0x04 3 [0x7F])) State.reset (after (.setNotices 3 0x7F) State.reset) := by decide +kernel

/-- Bytes that end a frame as discarded: LEN 1 and 251 are bad, 2 and 250 are not, and a wrong CRC discards a whole frame. -/
theorem test_hostFrame_unsound :
    let begun : State := State.reset.setRx [0x5E]
    begun.hlp.rx.length = 1 ∧ begun.listening = true
      ∧ (after (.frameInAssemblyDiscarded 1 true) begun).hlp.rx = []
      ∧ (after (.frameInAssemblyDiscarded 251 true) begun).hlp.rx = []
      ∧ (after (.hostFrame [0]) begun).hlp.rx = [] ∧ (after (.hostFrame [251]) begun).hlp.rx = []
      ∧ (after (.hostFrame [2]) begun).hlp.rx = [0x5E, 2] ∧ (after (.hostFrame [250]) begun).hlp.rx = [0x5E, 250]
      ∧ (after (.hostFrame [0x5D]) State.reset).hlp.rx = []
      ∧ [(0 : Byte), 0] ≠ halfBytes (hostCrc [2, 1, 9])
      ∧ leads (.hostFrame [0x5E, 2, 1, 9, 0, 0]) State.reset State.reset := by decide +kernel

/-- The KINDs around the 29 requests, a body one byte too long, both reply places taken, and a taken RESET-PART. -/
theorem test_frames_turned_away :
    let busy := after (.setNotices 1 0x7F) (after (.setNotices 0 0x7F) State.reset)
    status (after (.hostFrame (hostFrameBytes 0x00 7 [])) State.reset) = some .unknownRequest
      ∧ status (after (.hostFrame (hostFrameBytes 0x1E 7 [])) State.reset) = some .unknownRequest
      ∧ ¬ bodyLengths[0x1D - 1]? = some [(0 : Byte)].length
      ∧ status (after (.hostFrame (hostFrameBytes 0x1D 7 [0])) State.reset) = some .badLength
      ∧ status (after (.hostFrame (hostFrameBytes 0x03 7 [0x01])) State.reset) = some .badLength
      ∧ busy.hlp.resetRequested = false ∧ 2 ≤ busy.hlp.replies ∧ leads (.identify 2) busy busy.restartSilence
      ∧ (encodeRequest (.identify 2)).isSome = true
      ∧ leads (.identify 2) (after (.resetPart 0) State.reset) (after (.resetPart 0) State.reset) := by decide +kernel

/-- A small image. -/
def image : Image :=
  { number := 1, isFinal := false, phase := .play, matchTime := 3, cells := Vector.replicate 1344 Cell.zero, totals := Totals.zero }

/-- A state with a send in flight and frames in the outbound queue. -/
def sending (frames parts : Nat) : State :=
  let s := State.reset.setTu { Tu.reset with image := some image, sending := some { order := .rows, parts := parts } }
  s.setHlp { s.hlp with out := List.replicate frames (.notice false (.robot 0 .ready)) }

theorem test_sending_image : (sending 19 83).tu.image = some image := rfl

/-- The head frame leaves an empty queue, a queue of 19 and 20 frames, and one whose send has its last parts to go. -/
theorem test_outboundFrameSent :
    leads .outboundFrameSent State.reset State.reset
      ∧ (after .outboundFrameSent (sending 20 83)).hlp.out.length = 19
      ∧ (after .outboundFrameSent (sending 19 83)).hlp.out.length = 19
      ∧ (sending 19 83).tu.sending = some { order := .rows, parts := 83 }
      ∧ (after .outboundFrameSent (sending 19 83)).tu.sending = some { order := .rows, parts := 84 }
      ∧ (sending 19 84).tu.finalWait ≠ some [] ∧ (after .outboundFrameSent (sending 19 84)).tu.sending = none
      ∧ (after .outboundFrameSent (after (.identify 0) State.reset)).hlp.out = []
      ∧ (after .outboundFrameSent (after (.resetPart 0) field)).elem 0 = none := by decide +kernel

/-- The last part, SHEET_DONE and the final snapshot that waited for the end of the send, in one event; and with the parts sent. -/
theorem test_send_ends :
    let s (parts : Nat) (wait : Option (List Index)) : State :=
      let s := sending 10 parts
      s.setTu { s.tu with finalWait := wait }
    let ends (parts : Nat) (wait : Option (List Index)) : Nat × Option Bool × Bool :=
      let t := after .outboundFrameSent (s parts wait)
      (t.hlp.out.length, t.tu.image.map (·.isFinal), t.tu.sending.isNone)
    ends 83 (some []) = (12, some true, true) ∧ ends 83 (some [47]) = (11, some false, true)
      ∧ ends 84 none = (10, some false, true) ∧ ends 74 none = (19, some false, false)
      ∧ (s 83 (some [])).hlp.lost = false ∧ (s 83 (some [])).tu.lastSnapshot = 0 := by decide +kernel

theorem test_identify : status (after (.identify 9) play) = some .ok ∧ State.reset.mch.phase = .setup := by decide +kernel

theorem test_setNotices :
    status (after (.setNotices 0 127) field) = some .ok ∧ (after (.setNotices 0 127) field).hlp.mask = BitVec.allOnes 7
      ∧ status (after (.setNotices 0 128) field) = some .badValue
      ∧ (Notice.robot 0 .ready).classBit.isSome = true ∧ (Notice.sheetPart 1 .rows 0 []).classBit = none
      ∧ (Notice.robot 0 .ready).classBit.map (fun c => ((Hlp.reset .powerOn).mask.getLsbD c.val, (0 : BitVec 7).getLsbD c.val))
        = some (true, false)
      ∧ (after (.clearMatch 0) field).hlp.mask = field.hlp.mask := by decide +kernel

/-- SET-TIMING at its bounds, one beyond them, with the drop limit at the silence limit, and outside SETUP. -/
theorem test_setTiming :
    let low : TimingFields :=
      { interval := some 35, silenceLimit := some 3, dropLimit := some 10, openingTenths := some 0, transitionTenths := some 0,
        playTenths := some 100, finaleTenths := some 0, hostSilence := some 0 }
    let high : TimingFields :=
      { interval := some 100, silenceLimit := some 20, dropLimit := some 250, openingTenths := some 600,
        transitionTenths := some 150, playTenths := some 3000, finaleTenths := some 600, hostSilence := some 30 }
    status (after (.setTiming 0 low) field) = some .ok ∧ status (after (.setTiming 0 high) field) = some .ok
      ∧ status (after (.setTiming 0 { high with interval := some 101 }) field) = some .badValue
      ∧ status (after (.setTiming 0 { low with interval := some 34 }) field) = some .badValue
      ∧ status (after (.setTiming 0 { low with silenceLimit := some 10 }) field) = some .badValue
      ∧ status (after (.setTiming 0 { noTiming with silenceLimit := some 20, dropLimit := some 20 }) field) = some .badValue
      ∧ status (after (.setTiming 0 noTiming) play) = some .wrongPhase := by decide +kernel

/-! ## The field table -/

/-- DEFINE-ELEMENT refused for its coding, its phase, its ranges and its address; taken on a free index and on a defined one. -/
theorem test_defineElement :
    fieldsCoded (gateFields 5 5 5) = true ∧ fieldsCoded { gateFields 5 5 5 with alliance := 5 } = false
      ∧ status (after (.defineElement 0 { gateFields 5 5 5 with alliance := 5 }) field) = some .badValue
      ∧ status (after (.defineElement 0 (gateFields 5 5 5)) play) = some .wrongPhase
      ∧ recordOf (gateFields 48 5 5) = none ∧ recordOf (gateFields 47 5 4) = none ∧ recordOf (gateFields 47 64 50) = none
      ∧ status (after (.defineElement 0 (gateFields 5 5 4)) field) = some .badValue
      ∧ (recordOf (gateFields 47 63 50)).isSome = true
      ∧ status (after (.defineElement 0 (gateFields 5 1 5)) field) = some .addressInUse
      ∧ status (after (.defineElement 0 (gateFields 5 5 5)) field) = some .ok
      ∧ status (after (.defineElement 0 (gateFields 47 63 50)) field) = some .ok := by decide +kernel

/-- Every kind at the upper bounds of its settings, and one beyond. -/
theorem test_definedRecord :
    let f (kind alliance : Byte) (part : List Byte) : ElementFields :=
      { index := 47, kind := kind, address := 63, alliance := alliance, pollPeriod := 100, faultHolds := 1, holdLimit := 0,
        guardTime := 0, kindPart := part }
    let speeds : Vector Byte 8 := Vector.replicate 8 100
    let limit (high low : Byte) : List Byte := high :: low :: List.replicate 7 0
    (recordOf (f 0 4 [15, 255, 100, 255, LampMode.on.code, 0, 0, 0, 0])).isSome = true
      ∧ recordOf (f 0 4 [15, 255, 101, 255, LampMode.on.code, 0, 0, 0, 0]) = none
      ∧ (recordOf { f 0 0 [0, 0, 0, 0, LampMode.auto.code, 0, 0, 0, 0] with holdLimit := 120, guardTime := 30 }).isSome = true
      ∧ recordOf { f 0 1 [0, 0, 0, 0, LampMode.auto.code, 0, 0, 0, 0] with holdLimit := 1 } = none
      ∧ (recordOf (f 2 1 [15, 50, LampMode.off.code, 9, 9, 9, 9, 9, 9])).isSome = true
      ∧ recordOf (f 2 1 [15, 51, LampMode.off.code, 9, 9, 9, 9, 9, 9]) = none
      ∧ (recordOf (f 3 0 (speeds.toList ++ [EndMode.shuttle.code]))).isSome = true
      ∧ recordOf (f 3 0 ((speeds.set 7 101).toList ++ [EndMode.shuttle.code])) = none
      ∧ recordOf (f 3 1 (speeds.toList ++ [EndMode.shuttle.code])) = none
      ∧ recordOf (f 4 0 (limit 0 5)) = none
      ∧ recordOf (f 1 0 (limit 5 0)) = none ∧ recordOf (f 1 0 (limit 0 51)) = none ∧ (recordOf (f 1 4 (limit 0 50))).isSome = true
      ∧ fieldsCoded (f 0 0 (16 :: List.replicate 8 0)) = false ∧ fieldsCoded (f 0 0 [15, 0, 0, 0, 3, 0, 0, 0, 0]) = false
      ∧ fieldsCoded (f 2 0 (16 :: List.replicate 8 0)) = false ∧ fieldsCoded (f 3 0 (List.replicate 8 0 ++ [2])) = false
      ∧ recordOf { f 1 0 (limit 0 5) with pollPeriod := 1 } = none
      ∧ recordOf { f 1 0 (limit 0 5) with pollPeriod := 101 } = none
      ∧ (recordOf { f 1 0 (limit 0 5) with pollPeriod := 2 }).isSome = true := by decide +kernel

theorem test_removeElement :
    status (after (.removeElement 0 0) play) = some .wrongPhase ∧ status (after (.removeElement 0 48) field) = some .badValue
      ∧ status (after (.removeElement 0 46) field) = some .noSuchElement
      ∧ status (after (.removeElement 0 47) field) = some .ok ∧ (after (.removeElement 0 47) field).elem 47 = none := by
  decide +kernel

/-- A robot's MOTION in flight at the redefinition or the removal of its gate answers the open ACT, one orphaned before does not,
and a gate that travels leaves it PENDING; a queued MOTION answers it too, with a detail of 6. -/
theorem test_put_away_answers :
    let open_ : OpenRequest := { number := 1, kind := .act, element := some 1, answered := false, code := .wait, detail := none }
    let asked := field.setRobot 23 { field.robot 23 with openRequest := some open_ }
    let moves : Entry := { entry 0 1 (.motion (.gate .opening)) .control with origin := .robot 23 1 }
    let flying (orphaned : Bool) : State :=
      asked.setEbc { asked.ebc with inFlight := some { entry := moves, address := 2, elapsed := 4, orphaned := orphaned } }
    let travelling := withRecord asked 1 { gateRecord with
      part := .gate { position := some .moving, travelLimit := 20, motion := .travelling .opening (.robot 23 1) 5 } }
    let ends (s : State) : List (Option (Answer × Option Nat)) :=
      [.defineElement 0 (gateFields 1 2 5), .removeElement 0 1].map fun c => answered (after c s) 23
    ends (flying false) = List.replicate 2 (some (.failed, some 6)) ∧ ends (flying true) = List.replicate 2 (some (.wait, none))
      ∧ ends (queuedUp asked [moves]) = List.replicate 2 (some (.failed, some 6))
      ∧ ends travelling = List.replicate 2 (some (.wait, none))
      ∧ (after (.removeElement 0 1) (flying false)).ebc.inFlight.map (·.orphaned) = some true := by decide +kernel

/-- The places a put-away frees go to the marks of other elements, and the redefined element asks for its refresh behind them. -/
theorem test_put_away_frees :
    let s := (queuedUp field [entry 0 1 (.poll .refresh) .refresh]).modSched 47 fun c => { c with closingWanted := true }
    let left (c : Instr) : List (Option Index × BusOp) := (after c s).ebc.queue.map fun e => (e.element, e.op)
    left (.removeElement 0 1) = [(some 47, .poll .closing)]
      ∧ left (.defineElement 0 (gateFields 1 2 5)) = [(some 47, .poll .closing), (some 1, .poll .refresh)] := by decide +kernel

theorem test_reads :
    status (after (.readElement 0 48) field) = some .badValue ∧ status (after (.readElement 0 46) field) = some .noSuchElement
      ∧ status (after (.readElement 0 47) field) = some .ok ∧ status (after (.readRobot 0 24) field) = some .badValue
      ∧ status (after (.readRobot 0 23) field) = some .ok ∧ status (after (.readMatch 0) field) = some .ok := by decide +kernel

/-! ## The roster -/

theorem test_assignRobot :
    status (after (.assignRobot 0 23 9 5) field) = some .badValue ∧ status (after (.assignRobot 0 6 9 4) play) = some .wrongPhase
      ∧ status (after (.assignRobot 0 24 9 4) field) = some .badValue ∧ status (after (.assignRobot 0 6 9 0) field) = some .badValue
      ∧ status (after (.assignRobot 0 6 0 4) field) = some .badValue ∧ status (after (.assignRobot 0 6 123 4) field) = some .teamInUse
      ∧ status (after (.assignRobot 0 23 9 4) field) = some .busy ∧ status (after (.assignRobot 0 22 9 4) field) = some .ok := by
  decide +kernel

theorem test_unassignRobot :
    status (after (.unassignRobot 0 23) play) = some .wrongPhase ∧ status (after (.unassignRobot 0 24) field) = some .badValue
      ∧ status (after (.unassignRobot 0 22) field) = some .noSuchRobot
      ∧ status (after (.unassignRobot 0 23) (inPhase .staged field)) = some .ok := by decide +kernel

theorem test_claimsSound : play.claimsSound := by
  unfold State.claimsSound State.robotClaimsSound
  decide +kernel

theorem test_bench :
    status (after (.bench 0 23 1) field) = some .wrongPhase ∧ status (after (.bench 0 24 1) play) = some .badValue
      ∧ status (after (.bench 0 23 0) play) = some .badValue ∧ status (after (.bench 0 23 121) play) = some .badValue
      ∧ status (after (.bench 0 22 120) play) = some .noSuchRobot ∧ status (after (.bench 0 23 120) play) = some .ok
      ∧ status (after (.bench 0 4 1) play) = some .ok ∧ status (after (.bench 0 2 1) play) = some .notReady := by decide +kernel

theorem test_eject :
    status (after (.eject 0 23) field) = some .wrongPhase ∧ status (after (.eject 0 24) play) = some .badValue
      ∧ status (after (.eject 0 22) play) = some .noSuchRobot ∧ status (after (.eject 0 23) play) = some .ok
      ∧ status (after (.eject 0 4) play) = some .ok ∧ status (after (.eject 0 5) play) = some .notReady := by decide +kernel

theorem test_reinstate :
    status (after (.reinstate 0 4) field) = some .wrongPhase ∧ status (after (.reinstate 0 24) play) = some .badValue
      ∧ status (after (.reinstate 0 22) play) = some .noSuchRobot ∧ status (after (.reinstate 0 4) play) = some .ok
      ∧ status (after (.reinstate 0 23) play) = some .notReady := by decide +kernel

theorem test_benchEnded : play.matchRuns = true ∧ (play.robot 4).state = .benched ∧ (play.robot 4).bench = some 1
    ∧ ((after (.benchEnded 4) play).robot 4).state = .active := by decide +kernel

theorem test_signals :
    status (after (.signal 0 24 1 0) field) = some .badValue ∧ status (after (.signal 0 22 1 0) field) = some .noSuchRobot
      ∧ ((after (.signal 0 23 0xFF 0x0F) field).robot 23).signals = 0xF0 ∧ field.executes 23 1 = true
      ∧ ((after (.ackSignal 23 1 0x30) (after (.signal 0 23 0xFF 0x0F) field)).robot 23).signals = 0xC0
      ∧ slotByte 23 = 23 ∧ (after (.ackSignal 23 1 0x30) field).accepts = true := by decide +kernel

/-! ## The radio cycle -/

theorem test_cycleStart :
    (after .cycleStart State.reset).rcc.cycle = 0 ∧ (after .cycleStart (after .cycleStart State.reset)).rcc.cycle = 1
      ∧ (∀ k, (play.robot k).state = .active → min 255 ((play.robot k).unheard + 1) < play.roster.dropLimit) := by decide +kernel

/-- Two ACTIVE robots dropped at one cycle start: the first one's element goes to the robot that waits, the second's stays with it,
and a station that becomes free has its lamp driven. -/
theorem test_cycleStart_drops :
    let late (k : Slot) (s : State) : State := s.setRobot k { s.robot k with unheard := 254 }
    let lit := withRecord play 2 { stationRecord with part := .station { stationStart 15 4 .auto with lit := true } }
    let s := late 0 (late 23 (withClaim (withClaim (queuedUp lit []) 2 (some 23) []) 0 (some 0) [23]))
    let t := after .cycleStart s
    s.roster.dropLimit ≤ min 255 ((s.robot 0).unheard + 1) ∧ (t.robot 0).state = .assigned ∧ (t.robot 23).state = .assigned
      ∧ (t.robot 2).state = .ready ∧ t.holder 0 = none ∧ t.holder 2 = none ∧ t.litAt 2 = false
      ∧ s.lampChanges t = [(2, false)] ∧ t.ebc.queue.map (·.op) = [.lamp false] := by decide +kernel

/-- A robot one cycle before its silence limit and one before its drop limit. -/
theorem test_silence_and_drop :
    let s (unheard : Nat) : State := play.setRobot 0 { robotIn .active 100 with unheard := unheard }
    ((s 5).robot 0).silent = false ∧ (s 5).roster.silenceLimit ≤ ((s 5).robot 0).unheard + 1
      ∧ ((s 5).robot 0).state.isLinked = true ∧ ((after (.robotSilent 0) (s 5)).robot 0).silent = true
      ∧ (s 49).roster.dropLimit ≤ ((s 49).robot 0).unheard + 1 ∧ ((after (.drop 0) (s 49)).robot 0).state = .assigned := by
  decide +kernel

/-- Frames of a robot: a wrong CRC, a wrong length, a keep-alive, requests of every kind at both ends of their codes, a slot
that is taken already. -/
theorem test_slotFrame :
    let head (flags numberKind element operand : Byte) : List Byte := [0x01, 0, 101, flags, numberKind, element, operand]
    let frame (l : List Byte) : List Byte := l ++ halfBytes (radioCrc l)
    [(0 : Byte), 0] ≠ halfBytes (radioCrc (head 1 0 0 0))
      ∧ ¬ ((head 1 0 0 0).tail.length = 7 ∧ (head 1 0 0 0).tail.head? = some 1)
      ∧ ¬ ((head 1 0 0 0).tail.length = 6 ∧ (head 1 0 0 0).tail.head? = some 2)
      ∧ field.slotTaken 1 = false ∧ (field.robot 1).state.isLinked = true ∧ (field.robot 1).robotId = some (0#8 ++ 101#8)
      ∧ (∀ j, Window.join ≠ .reply j)
      ∧ ((after (.slotFrame (.reply 1) (frame (head 1 0 0 0))) field).robot 1).state = .ready
      ∧ answered (after (.slotFrame (.reply 1) (frame (head 0 0x11 9 0))) field) 1 = some (.notNow, none)
      ∧ answered (after (.slotFrame (.reply 1) (frame (head 0 0xF5 9 1))) field) 1 = some (.acked, some 0)
      ∧ leads (.slotFrame (.reply 1) (frame (head 0 0x16 9 0))) field field
      ∧ leads (.slotFrame (.reply 1) (frame (head 0 0x10 9 0))) field field
      ∧ leads (.slotFrame (.reply 1) (frame (head 0 0x14 9 3))) field field
      ∧ leads (.slotFrame .join (frame (head 1 0 0 0))) field field
      ∧ leads (.slotFrame (.reply 2) (frame (head 1 0 0 0))) field field := by decide +kernel

/-- A JOIN of an unknown team, of a team with another robot bound, of a robot already bound and linked, of a robot not bound
yet, and of one bound but dropped. -/
theorem test_join :
    let frame (team robotId : Half) : List Byte :=
      let l := 0x02#8 :: (halfBytes team ++ halfBytes robotId ++ [3])
      l ++ halfBytes (radioCrc l)
    let result (t : State) : Option JoinResult := t.rcc.joinAnswer.map (·.result)
    let dropped := field.setRobot 1 { robotIn .assigned 101 with unheard := 0 }
    field.rcc.takenJoin = false
      ∧ (∀ k, (field.robot k).state ≠ .vacant → (field.robot k).team ≠ some 99)
      ∧ result (after (.join .join (frame 99 1)) field) = some .unknownTeam
      ∧ (field.robot 1).state ≠ .vacant ∧ (field.robot 1).team = some 101
      ∧ (∀ j, j ≠ 1 → (field.robot j).state ≠ .vacant → (field.robot j).team ≠ some 101)
      ∧ (field.robot 1).robotId = some 101 ∧ result (after (.join .join (frame 101 7)) field) = some .teamTaken
      ∧ result (after (.join .join (frame 101 101)) field) = some (.joined 1)
      ∧ (field.robot 3).robotId = none ∧ (field.robot 3).team = some 103
      ∧ (∀ j, j ≠ 3 → (field.robot j).state ≠ .vacant → (field.robot j).team ≠ some 103)
      ∧ ((after (.join .join (frame 103 7)) field).robot 3).state = .linked
      ∧ (dropped.robot 1).state.isLinked = false ∧ ((after (.join .join (frame 101 101)) dropped).robot 1).state = .linked
      ∧ (after (.join .join (frame 99 1)) field).rcc.takenJoin = true ∧ Window.quiet ≠ .join := by decide +kernel

/-! ## Claims -/

theorem test_requests_not_new :
    leads (.claim 0 0 0) play play ∧ (play.robot 3).state.isLinked = false ∧ leads (.claim 3 1 0) play play
      ∧ (let t := after (.claim 0 1 60) play
         (t.robot 0).openRequest = some (answeredRequest 1 .claim (some 60) .noElement none) ∧ leads (.claim 0 1 0) t t) := by
  decide +kernel

/-- One CLAIM for each check of the phase, the robot and the element, the indices 47 and 48 among them. -/
theorem test_claim_first_checks :
    field.executes 0 1 = true ∧ play.executes 4 1 = true ∧ play.executes 2 1 = true
      ∧ answered (after (.claim 0 1 0) field) 0 = some (.notNow, none) ∧ answered (after (.claim 4 1 0) play) 4 = some (.benched, none)
      ∧ answered (after (.claim 2 1 0) play) 2 = some (.notNow, none) ∧ answered (after (.claim 0 1 48) play) 0 = some (.noElement, none)
      ∧ answered (after (.claim 0 1 46) play) 0 = some (.noElement, none)
      ∧ answered (after (.claim 0 1 3) play) 0 = some (.notClaimable, none) := by decide +kernel

/-- One CLAIM for each check of the robot's relation to the element. -/
theorem test_claim_checks :
    let s (r : ElementRecord) : State := withRecord play 0 r
    let claimOf (holder : Option Slot) (waiting : List Slot) : ClaimPart :=
      { holder := holder, heldFor := 0, waiting := waiting, guardRecord := none }
    answered (after (.claim 0 1 0) (s { goalRecord with alliance := some .a })) 0 = some (.notClaimable, none)
      ∧ answered (after (.claim 0 1 0) (s { goalRecord with claim := claimOf (some 0) [] })) 0 = some (.alreadyHolder, none)
      ∧ answered (after (.claim 0 1 0) (s { goalRecord with claim := claimOf (some 2) [0] })) 0 = some (.alreadyWaiting, some 1)
      ∧ answered (after (.claim 0 1 0) (s { goalRecord with state := .fault .missing })) 0 = some (.elementFault, none)
      ∧ answered (after (.claim 0 1 1) (withRecord play 1 { gateRecord with alliance := some .b })) 0 = some (.notYours, none)
      ∧ answered (after (.claim 0 1 0) (s { goalRecord with
          claim := { claimOf none [] with guardRecord := some { slot := 0, remaining := 4 } } })) 0 = some (.guarded, some 4) := by
  decide +kernel

/-- The witness of a CLAIM that passes its checks, on a free element and on a held one. -/
theorem test_claimChecked : play.claimChecked 0 47 { goalRecord with address := 63 }
    ∧ (withClaim play 0 (some 23) [2]).claimChecked 0 0
        { goalRecord with claim := { ClaimPart.empty with holder := some 23, waiting := [2] } } := by
  unfold State.claimChecked
  decide +kernel

/-- GRANTED with the robot at 0 and at 1 element, TOO_MANY at 2; QUEUED, LIST_FULL at 4 waiters, TOO_MANY for a robot that
waits. -/
theorem test_claim_grants :
    let one := withClaim play 0 (some 0) []
    let two := withClaim one 1 (some 0) []
    let list (l : List Slot) := withClaim play 47 (some 23) l
    answered (after (.claim 0 1 47) play) 0 = some (.granted, none)
      ∧ answered (after (.claim 0 1 47) one) 0 = some (.granted, none) ∧ answered (after (.claim 0 1 47) two) 0 = some (.tooMany, none)
      ∧ answered (after (.claim 0 1 47) (withClaim one 2 (some 23) [0])) 0 = some (.granted, some 2)
      ∧ answered (after (.claim 0 1 47) (list [1, 2, 3])) 0 = some (.queued, some 4)
      ∧ answered (after (.claim 0 1 47) (list [1, 2, 3, 4])) 0 = some (.listFull, none)
      ∧ answered (after (.claim 0 1 47) (withClaim (list []) 2 (some 23) [0])) 0 = some (.tooMany, none)
      ∧ (∀ j, 0 ∉ (list [1, 2, 3]).waiters j) := by decide +kernel

theorem test_release :
    let s := withClaim play 2 (some 0) [2, 23]
    answered (after (.release 0 1 2) field) 0 = some (.notNow, none) ∧ answered (after (.release 0 1 48) play) 0 = some (.noElement, none)
      ∧ answered (after (.release 0 1 46) play) 0 = some (.noElement, none) ∧ answered (after (.release 0 1 47) play) 0 = some (.notHolder, none)
      ∧ answered (after (.release 0 1 2) s) 0 = some (.released, none) ∧ (after (.release 0 1 2) s).holder 2 = some 2 := by
  decide +kernel

theorem test_cancel :
    let s := withClaim play 2 (some 0) [2, 23]
    answered (after (.cancel 0 1) field) 0 = some (.notNow, none) ∧ answered (after (.cancel 23 1) play) 23 = some (.notWaiting, none)
      ∧ answered (after (.cancel 23 1) s) 23 = some (.cancelled, some 2) ∧ 23 ∈ s.waiters 2 ∧ (∀ i, 23 ∉ play.waiters i) := by
  decide +kernel

theorem test_cancel_sound : (withClaim play 2 (some 0) [2, 23]).robotClaimsSound 23 ∧ play.robotClaimsSound 23 := by
  constructor <;> (unfold State.robotClaimsSound; decide +kernel)

/-- A holder one tenth before its hold limit, and a guard with one tenth to go. -/
theorem test_claimExpiry :
    let r := { stationRecord with holdLimit := 10, guardTime := 20,
                                  claim := { ClaimPart.empty with holder := some 0, heldFor := 9, waiting := [2] } }
    let g := { gateRecord with claim := { ClaimPart.empty with guardRecord := some { slot := 0, remaining := 1 } } }
    let s := withRecord (withRecord play 2 r) 1 g
    s.matchRuns = true ∧ s.elem 2 = some r ∧ r.holdLimit ≠ 0 ∧ r.holdLimit ≤ r.claim.heldFor + 1
      ∧ (after (.claimExpiry 2) s).holder 2 = some 2 ∧ s.elem 1 = some g
      ∧ ((after (.guardRunOut 1) s).elem 1).map (·.claim.guardRecord) = some none := by decide +kernel

/-! ## The element bus -/

/-- Selections: a busy bus, an empty queue, a STOP_ALL, and a CONTROL entry before an older COSMETIC one. -/
theorem test_transactionSelect :
    let lamp := entry 0 0 (.lamp true) .cosmetic
    let poll := entry 1 47 (.poll .closing) .control
    let stop : Entry := { age := 2, enteredAt := 0, element := none, op := .stopAll, cls := .safety, origin := .internal }
    field.ebc.free = false ∧ (queuedUp field []).ebc.free = true ∧ (queuedUp field []).ebc.queue = []
      ∧ (after .transactionSelect (queuedUp field [lamp, poll])).ebc.inFlight.map (·.entry) = some poll
      ∧ (after .transactionSelect (queuedUp field [lamp, poll])).ebc.inFlight.map (·.address) = some 63
      ∧ (after .transactionSelect (queuedUp field [lamp, stop])).ebc.inFlight.map (·.entry) = some stop := by decide +kernel

theorem test_ordered : (queuedUp field [entry 0 0 (.lamp true) .cosmetic, entry 1 47 (.poll .closing) .control]).ebc.ordered := by
  unfold Ebc.ordered
  decide +kernel

/-- Each pending mark, at the lowest and the highest index, gets the place that a selection frees; without a mark nobody does. -/
theorem test_freed_place :
    let one := queuedUp field [entry 0 1 (.poll .refresh) .refresh]
    let marked (i : Index) (f : Sched → Sched) : Option BusOp := ((after .transactionSelect (one.modSched i f)).ebc.queue.getLast?).map (·.op)
    selection one.ebc.queue = some (entry 0 1 (.poll .refresh) .refresh) ∧ (entry 0 1 (.poll .refresh) .refresh).isStop = false
      ∧ one.ebc.ordinary ≤ 31 ∧ (∀ i, (one.sched i).marked = false)
      ∧ marked 47 (fun c => { c with closingWanted := true, lampSync := true }) = some (.poll .closing)
      ∧ marked 3 (fun c => { c with carriageSync := true }) = some (.motion (.carriage 0))
      ∧ marked 0 (fun c => { c with pollDue := true, lampSync := true }) = some (.poll .refresh)
      ∧ marked 47 (fun c => { c with lampSync := true }) = some (.lamp false)
      ∧ (after .transactionSelect one).ebc.queue = [] := by decide +kernel

/-- A refresh that is due in this slice and one that is due in the next, with no poll on its way; a refresh poll at its poll period
and one slice short of it. -/
theorem test_refreshDue :
    let at_ (now : Nat) : State := { field.modSched 0 fun c => { c with due := some 5 } with now := now }
    let late (now : Nat) (s : State) : List TxClass := (after (.refreshPollOverdue 0) { s with now := now }).ebc.queue.map (·.cls)
    ((at_ 5).elem 0).isSome = true ∧ ((at_ 5).sched 0).owed = false ∧ ((at_ 5).sched 0).pollDue = false
      ∧ (at_ 5).queued (fun e => e.isPoll && e.isFor 0) = false ∧ (at_ 5).pollInFlight 0 = false
      ∧ ((after (.refreshDue 0) (at_ 5)).ebc.queue.map (·.op)) = [.poll .refresh] ∧ field.elem 46 = none
      ∧ leads (.refreshDue 0) (at_ 4) (at_ 4) ∧ leads (.refreshDue 0) field field
      ∧ (after (.refreshDue 0) (after (.refreshDue 0) (at_ 5))).ebc.queue.length = 1
      ∧ late 2005 (after (.refreshDue 0) (at_ 5)) = [.control] ∧ late 2004 (after (.refreshDue 0) (at_ 5)) = [.refresh] := by
  decide +kernel

/-! ## Ends of transactions -/

theorem test_awaitsReply : (inFlight play 0 1 (.poll .refresh)).awaitsReply (flight 0 1 (.poll .refresh)) 0 goalRecord
    ∧ (inFlight play 1 2 (.poll .refresh)).awaitsReply (flight 1 2 (.poll .refresh)) 1 gateRecord
    ∧ (inFlight play 2 3 (.lamp true)).awaitsReply (flight 2 3 (.lamp true)) 2 stationRecord
    ∧ (inFlight play 3 4 (.poll .refresh)).awaitsReply (flight 3 4 (.poll .refresh)) 3 carriageRecord := by
  unfold State.awaitsReply State.awaitsEnd
  decide +kernel

/-- Replies that end a transaction as a timeout does: a wrong CRC, a short frame, another address, another type, a field value
of no meaning, bytes too many; and an orphaned transaction. -/
theorem test_busReply_unsound :
    let s := inFlight play 0 1 (.poll .refresh)
    let l := inFlight play 2 3 (.lamp true)
    let orphan := s.setEbc { s.ebc with inFlight := s.ebc.inFlight.map fun f => { f with orphaned := true } }
    [(0 : Byte), 0] ≠ halfBytes (busCrc [1, 0x81, 7, 10, 0])
      ∧ leads (.busReply [1, 0x81, 7, 10, 0, 0, 0]) s (after .replyTimeout s)
      ∧ leads (.busReply (busFrame [1, 0x81])) s (after .replyTimeout s)
      ∧ leads (.busReply (busFrame [2, 0x81, 7, 10, 0])) s (after .replyTimeout s)
      ∧ leads (.busReply (busFrame [1, 0x82, 7])) s (after .replyTimeout s)
      ∧ readingOf .goal [10, 2] = none ∧ leads (.busReply (busFrame [1, 0x81, 7, 10, 2])) s (after .replyTimeout s)
      ∧ leads (.busReply (busFrame [3, 0x82, 7, 0])) l (after .replyTimeout l)
      ∧ orphan.ebc.inFlight.map (·.orphaned) = some true
      ∧ leads .replyTimeout orphan orphan.endTransaction
      ∧ leads (.busReply (busFrame [1, 0x81, 7, 10, 0])) play play := by decide +kernel

/-- A frame one slice before the reply window opens changes nothing, though it is the reply, and neither does it end an orphan. -/
theorem test_reply_before_window :
    let sent (orphaned : Bool) : State :=
      let s := inFlight play 0 1 (.poll .refresh)
      s.setEbc { s.ebc with inFlight := s.ebc.inFlight.map fun f => { f with elapsed := 3, orphaned := orphaned } }
    (sent false).ebc.inFlight.map (·.elapsed) = some 3
      ∧ leads (.busReply (busFrame [1, 0x81, 7, 10, 0])) (sent false) (sent false)
      ∧ leads (.busReply (busFrame [1, 0x81, 7, 10, 0])) (sent true) (sent true)
      ∧ (after (.busReply (busFrame [1, 0x81, 7, 10, 0])) (inFlight play 0 1 (.poll .refresh))).ebc.inFlight = none := by
  decide +kernel

/-- A sensor break on a goal that asks for a hold, and one on a goal that does not. -/
theorem test_poll_completed :
    let s := inFlight play 0 1 (.poll .refresh)
    let asking := withRecord s 0 { goalRecord with faultHolds := true }
    readingOf .goal [10, 1] = some (.goal 10 true) ∧ readingOf .gate [4] = some (.gate .jammed) ∧ readingOf .gate [5] = none
      ∧ readingOf .carriage [7, 7, 100] = some (.carriage 7 true true true 100) ∧ readingOf .carriage [7, 7, 101] = none
      ∧ (after (.busReply (busFrame [1, 0x81, 7, 10, 1])) s).mch.stack = []
      ∧ ((after (.busReply (busFrame [1, 0x81, 7, 10, 1])) asking).mch.stack.map (·.cause)) = [.elementFault]
      ∧ ((after (.busReply (busFrame [1, 0x81, 8, 10, 0])) s).elem 0).map (·.sticky.restarted) = some true := by decide +kernel

/-- Pieces at a closed window, under a hold, counted, at the piece that fills, and below the range. -/
theorem test_goal_pieces :
    let open_ (count : Int) : State := inFlight (withRecord play 0 { goalRecord with
      part := .goal { goalPart with window := .opened, count := count } }) 0 1 (.poll .refresh)
    let poll (counter : Byte) (s : State) : Option GoalPart := (after (.busReply (busFrame [1, 0x81, 7, counter, 0])) s).goalAt 0
    ((poll 12 (inFlight play 0 1 (.poll .refresh))).map (·.idle)) = some 2
      ∧ ((poll 12 (withHold (open_ 3) 1 .hostHold)).map (·.held)) = some 2 ∧ (open_ 3).held = false
      ∧ ((poll 12 (open_ 3)).map fun p => (p.count, p.counted, p.unattributed)) = some (1, 2, 2)
      ∧ ((poll 11 (open_ 1)).map fun p => (p.count, p.filled)) = some (0, true)
      ∧ ((poll 11 (open_ (-255))).map fun p => (p.count, p.overrangeNoted)) = some (-255, true) := by decide +kernel

/-- Several pieces at once, past 0 and past -255, credited to the goal's alliance; and no pieces at the first poll, at another
epoch, and when the sensor is broken now or was before. -/
theorem test_goal_delta :
    let s (count : Int) (reading : Option Reading) : State := inFlight (withRecord play 0 { goalRecord with
      alliance := some .b, reading := reading, part := .goal { goalPart with window := .opened, count := count } }) 0 1 (.poll .refresh)
    let poll (epoch counter status : Byte) (s : State) : State := after (.busReply (busFrame [1, 0x81, epoch, counter, status])) s
    let counted (t : State) : Option (BitVec 16) := (t.goalAt 0).map (·.counted)
    let known := some (Reading.goal 10 false)
    ((poll 7 13 0 (s 2 known)).goalAt 0).map (fun p => (p.count, p.filled, p.lit)) = some (-1, true, true)
      ∧ (poll 7 13 0 (s 2 known)).tu.totals.b = 11 ∧ ((poll 7 13 0 (s 2 known)).tu.cell 25 0).value = 11
      ∧ ((poll 7 13 0 (s (-254) known)).goalAt 0).map (fun p => (p.count, p.overrangeNoted)) = some (-255, true)
      ∧ counted (poll 7 5 0 (s 2 known)) = some 251
      ∧ counted (poll 7 13 0 (s 2 none)) = some 0 ∧ counted (poll 8 13 0 (s 2 known)) = some 0
      ∧ counted (poll 7 13 1 (s 2 known)) = some 0 ∧ counted (poll 7 13 0 (s 2 (some (.goal 10 true)))) = some 0 := by
  decide +kernel

theorem test_tuSound : State.reset.tu.sound := by
  refine ⟨fun c => ?_, fun h => ?_, rfl⟩
  · simp [State.reset, State.afterReset, Tu.reset, Cell.zero]
  · cases h

/-- The end of a closing poll, completed and failed. -/
theorem test_closing :
    let r := { goalRecord with part := .goal { goalPart with window := .closing, closingInMatch := true } }
    let s := inFlight (withRecord play 0 r) 0 1 (.poll .closing)
    s.ebc.inFlight = some (flight 0 1 (.poll .closing)) ∧ s.elem 0 = some r ∧ r.failures < 2
      ∧ ((after (.busReply (busFrame [1, 0x81, 7, 10, 0])) s).elem 0).map (·.sticky.incomplete) = some false
      ∧ ((after .replyTimeout s).elem 0).map (·.sticky.incomplete) = some true
      ∧ (after .replyTimeout s).tu.finalWait = none
      ∧ (after .replyTimeout (s.setTu { s.tu with finalWait := some [0] })).tu.finalWait = none := by decide +kernel

/-- A closing poll that counts pieces, one with a sensor break, one of a goal in FAULT that reopens, and the third failure. -/
theorem test_closing_cases :
    let p := { goalPart with window := .closing, closingInMatch := true }
    let s (f : ElementRecord → ElementRecord) : State :=
      inFlight (withRecord play 0 (f { goalRecord with alliance := some .a, part := .goal p })) 0 1 (.poll .closing)
    let poll (counter status : Byte) (s : State) : State := after (.busReply (busFrame [1, 0x81, 7, counter, status])) s
    let record (t : State) : Option (Int × Nat × Bool) :=
      (t.goalAt 0).bind fun p => p.record.map fun r => (r.finalCount, r.windowPieces, r.incomplete)
    let third := after .replyTimeout (s fun r => { r with failures := 2 })
    let back := poll 10 0 (s fun r => { r with state := .fault .missing, part := .goal { p with reopenWanted := true } })
    record (poll 12 0 (s id)) = some (1, 2, false) ∧ (poll 12 0 (s id)).tu.totals.a = 4
      ∧ record (poll 12 1 (s id)) = some (3, 0, true) ∧ ((poll 12 1 (s id)).elem 0).map (·.state) = some (.fault .sensor)
      ∧ (back.elem 0).map (·.state) = some .online ∧ (back.goalAt 0).map (fun p => (p.window, p.windowNumber)) = some (.opened, 1)
      ∧ record third = some (3, 0, true) ∧ (third.elem 0).map (·.state) = some (.fault .missing) := by decide +kernel

/-- A travelling gate polled at its target, jammed, stopped and under way; its travel limit; a gate that stands. -/
theorem test_gate_motion :
    let r := { gateRecord with part := .gate { position := some .moving, travelLimit := 20, motion := .travelling .opening (.host 9) 5 } }
    let s := inFlight (withRecord play 1 r) 1 2 (.poll .refresh)
    let poll (code : Byte) : Option GateMotion := ((after (.busReply (busFrame [2, 0x81, 7, code])) s).gateAt 1).map (·.motion)
    poll GatePosition.opened.code = some .idle ∧ poll GatePosition.jammed.code = some .idle ∧ poll GatePosition.stopped.code = some .idle
      ∧ poll GatePosition.moving.code = some (.travelling .opening (.host 9) 5)
      ∧ s.gateAt 1 = some { position := some .moving, travelLimit := 20, motion := .travelling .opening (.host 9) 5 }
      ∧ ((after (.gateTravelLimit 1) s).gateAt 1).map (·.motion) = some .idle := by decide +kernel

/-- A robot's gate motion that ends at its target and one that ends at its travel limit answer the robot's open ACT. -/
theorem test_gate_motion_of_robot :
    let open_ : OpenRequest := { number := 1, kind := .act, element := some 1, answered := false, code := .wait, detail := none }
    let r := { gateRecord with part := .gate { position := some .moving, travelLimit := 20, motion := .travelling .opening (.robot 0 1) 5 } }
    let s := inFlight (withRecord (play.setRobot 0 { play.robot 0 with openRequest := some open_ }) 1 r) 1 2 (.poll .refresh)
    answered (after (.busReply (busFrame [2, 0x81, 7, GatePosition.opened.code])) s) 0 = some (.done, none)
      ∧ answered (after (.gateTravelLimit 1) s) 0 = some (.failed, some 3)
      ∧ (after (.gateTravelLimit 1) s).hlp.out = s.hlp.out := by decide +kernel

theorem test_station_poll :
    let r := { stationRecord with part := .station { stationStart 15 4 .auto with windowOpen := true, lampResync := true } }
    let s := inFlight (withRecord play 2 r) 2 3 (.poll .refresh)
    (after (.busReply (busFrame [3, 0x81, 7, 1])) s).stationAt 2 = some { stationStart 15 4 .auto with
        windowOpen := true, presence := some true, trespassEpisode := true }
      ∧ ((after (.busReply (busFrame [3, 0x81, 7, 1])) s).elem 2).map (·.sticky.trespass) = some true := by decide +kernel

/-- A RUNNING carriage at an end stop, in a new zone, with an encoder fault, and going on; the speed at both ends of its range. -/
theorem test_carriage_poll :
    let r := { carriageRecord with part := .carriage { carriagePart with runState := .running, speedZone := some 2, commanded := 20 } }
    let s := inFlight (withRecord play 3 r) 3 4 (.poll .refresh)
    let poll (zone flags speed : Byte) : Option (RunState × Int) :=
      ((after (.busReply (busFrame [4, 0x81, 7, zone, flags, speed])) s).carriageAt 3).map fun p => (p.runState, p.commanded)
    poll 2 1 100 = some (.parked, 0) ∧ poll 3 0 100 = some (.running, 30) ∧ poll 2 4 0x9C = some (.stopped, 0)
      ∧ poll 2 0 0x9C = some (.running, 20) ∧ (0x9C#8).toInt = -100 ∧ r.faultHolds = false := by decide +kernel

/-- An encoder fault that enters FAULT in a match phase stops the carriage before the hold it asks for is pushed. -/
theorem test_carriage_fault_holds :
    let r := { carriageRecord with faultHolds := true, part := .carriage { carriagePart with runState := .running, commanded := 20 } }
    let t := after (.busReply (busFrame [4, 0x81, 7, 2, 4, 0])) (inFlight (withRecord play 3 r) 3 4 (.poll .refresh))
    ((t.carriageAt 3).map (·.runState), t.mch.stack.map (·.cause), t.ebc.queue.map (·.op))
      = (some .stopped, [.elementFault], [.stopAll]) := by decide +kernel

theorem test_drive_acknowledged :
    let r := { gateRecord with part := .gate { position := some .closed, travelLimit := 20, motion := .sent .opening (.host 9) } }
    let s := inFlight (withRecord play 1 r) 1 2 (.motion (.gate .opening))
    s.ebc.inFlight.map (·.entry.isPoll) = some false
      ∧ ((after (.busReply (busFrame [2, 0x82, 7])) s).gateAt 1).map (·.motion) = some (.travelling .opening (.host 9) 0) := by
  decide +kernel

/-- The third failure in a row, with and without a hold asked for; a failed lamp, a failed gate drive, a missing carriage. -/
theorem test_failed_transaction :
    let s := inFlight (withRecord play 0 { goalRecord with failures := 2, faultHolds := true }) 0 1 (.lamp true)
    let g := inFlight (withRecord play 1 { gateRecord with
      part := .gate { position := some .closed, travelLimit := 20, motion := .sent .opening (.host 9) } }) 1 2 (.motion (.gate .opening))
    let c := inFlight (withRecord play 3 { carriageRecord with
      failures := 2, part := .carriage { carriagePart with runState := .running } }) 3 4 (.motion (.carriage 5))
    ((after .replyTimeout s).elem 0).map (·.state) = some (.fault .missing)
      ∧ (after .replyTimeout s).mch.stack.map (·.cause) = [.elementFault]
      ∧ ((after .replyTimeout (inFlight play 0 1 (.lamp true))).goalAt 0).map (·.lampResync) = some true
      ∧ ((after .replyTimeout (inFlight play 2 3 (.lamp true))).stationAt 2).map (·.lampResync) = some true
      ∧ ((after .replyTimeout g).gateAt 1).map (·.motion) = some .idle
      ∧ ((after .replyTimeout c).carriageAt 3).map (·.runState) = some .stopped := by decide +kernel

/-! ## Windows, quotas, lamps, gates and carriages -/

theorem test_setWindow :
    status (after (.setWindow 0 48 0) play) = some .badValue ∧ status (after (.setWindow 0 47 3) play) = some .badValue
      ∧ status (after (.setWindow 0 46 2) play) = some .noSuchElement ∧ status (after (.setWindow 0 1 0) play) = some .wrongKind
      ∧ status (after (.setWindow 0 3 0) play) = some .wrongKind
      ∧ ((after (.setWindow 0 47 WindowControl.forcedOpen.code) play).goalAt 47).map (·.window) = some .opened
      ∧ ((after (.setWindow 0 2 WindowControl.auto.code) play).stationAt 2).map (·.windowOpen) = some true
      ∧ ((after (.setWindow 0 47 WindowControl.forcedClosed.code) (after (.setWindow 0 47 WindowControl.forcedOpen.code) play)).goalAt 47).map
          (·.window) = some .closing := by decide +kernel

theorem test_setQuota :
    let opened := after (.setWindow 0 47 WindowControl.forcedOpen.code) play
    status (after (.setQuota 0 48 1) play) = some .badValue ∧ status (after (.setQuota 0 46 1) play) = some .noSuchElement
      ∧ status (after (.setQuota 0 2 1) play) = some .wrongKind
      ∧ ((after (.setQuota 0 47 255) play).goalAt 47).map (·.quota) = some 255
      ∧ ((after (.setQuota 0 47 0) opened).goalAt 47).map (·.pendingQuota) = some (some 0) := by decide +kernel

theorem test_setLamp :
    let lit := after (.setLamp 0 47 LampMode.on.code) play
    status (after (.setLamp 0 48 0) play) = some .badValue ∧ status (after (.setLamp 0 47 3) play) = some .badValue
      ∧ status (after (.setLamp 0 46 0) play) = some .noSuchElement ∧ status (after (.setLamp 0 1 0) play) = some .wrongKind
      ∧ (lit.goalAt 47).map (·.lit) = some true ∧ status (after (.setLamp 0 47 LampMode.auto.code) lit) = some .lampSequence
      ∧ ((after (.setLamp 0 2 LampMode.on.code) play).stationAt 2).map (·.lit) = some true := by decide +kernel

theorem test_setGate :
    let at_ (p : Option GatePosition) := withRecord play 1 { gateRecord with
      part := .gate { position := p, travelLimit := 20, motion := .idle } }
    let waits := after (.setGate 0 1 (gateCode .opening)) play
    status (after (.setGate 0 48 1) play) = some .badValue ∧ status (after (.setGate 0 1 0) play) = some .badValue
      ∧ status (after (.setGate 0 1 3) play) = some .badValue ∧ status (after (.setGate 0 46 1) play) = some .noSuchElement
      ∧ status (after (.setGate 0 47 1) play) = some .wrongKind
      ∧ status (after (.setGate 0 1 1) (withRecord play 1 { gateRecord with state := .fault .missing })) = some .elementFault
      ∧ status (after (.setGate 0 1 1) (at_ none)) = some .notReady ∧ status (after (.setGate 0 1 1) (at_ (some .moving))) = some .busy
      ∧ (after (.setGate 0 1 (gateCode .closing)) play).ebc.queue = [] ∧ waits.ebc.queue.map (·.op) = [.motion (.gate .opening)]
      ∧ status (after (.setGate 0 1 (gateCode .opening))
          (play.modSched 0 fun c => { c with lampSync := true })) = some .queueFull
      ∧ status (after (.setGate 0 1 (gateCode .opening)) (queuedUp play [entry 0 1 (.motion (.gate .closing)) .control])) = some .busy := by
  decide +kernel

theorem test_act :
    let mine := withClaim play 1 (some 0) []
    answered (after (.act 0 1 1 .opening) field) 0 = some (.notNow, none)
      ∧ answered (after (.act 0 1 1 .opening) (withHold mine 1 .hostHold)) 0 = some (.notNow, none)
      ∧ answered (after (.act 0 1 48 .opening) play) 0 = some (.noElement, none)
      ∧ answered (after (.act 0 1 46 .opening) play) 0 = some (.noElement, none)
      ∧ answered (after (.act 0 1 47 .opening) play) 0 = some (.notAGate, none)
      ∧ answered (after (.act 0 1 1 .opening) play) 0 = some (.notHolder, none)
      ∧ answered (after (.act 0 1 1 .opening) mine) 0 = some (.wait, none) ∧ answered (after (.act 0 1 1 .closing) mine) 0 = some (.done, none) := by
  decide +kernel

theorem test_driveCarriage :
    let drive (command direction : Byte) (s : State) : Option (RunState × Int) :=
      ((after (.driveCarriage 0 3 command direction) s).carriageAt 3).map fun p => (p.runState, p.commanded)
    status (after (.driveCarriage 0 48 0 0) play) = some .badValue ∧ status (after (.driveCarriage 0 3 3 0) play) = some .badValue
      ∧ status (after (.driveCarriage 0 3 0 2) play) = some .badValue ∧ status (after (.driveCarriage 0 46 1 9) play) = some .noSuchElement
      ∧ status (after (.driveCarriage 0 47 1 9) play) = some .wrongKind
      ∧ status (after (.driveCarriage 0 3 0 0) (withRecord play 3 { carriageRecord with state := .fault .sensor })) = some .elementFault
      ∧ status (after (.driveCarriage 0 3 0 0) (withRecord play 3 { carriageRecord with reading := none })) = some .notReady
      ∧ drive 0 0 play = some (.running, 20) ∧ drive 0 1 play = some (.running, -20) ∧ drive 1 9 play = some (.stopped, 0)
      ∧ drive 2 9 play = some (.running, -20) ∧ drive 0 0 (withHold play 1 .hostHold) = some (.halted, 0)
      ∧ drive 2 9 (withRecord play 3 { carriageRecord with reading := some (.carriage 0 false true false 0) }) = some (.parked, 0) := by
  decide +kernel

/-! ## Phases -/

theorem test_arm :
    status (after (.arm 0) play) = some .wrongPhase ∧ status (after (.arm 0) State.reset) = some .notReady
      ∧ (∀ k, (State.reset.robot k).state = .vacant) ∧ status (after (.arm 0) (field.setElem 0 none)) = some .ok
      ∧ (after (.arm 0) field).mch.phase = .staged ∧ (after (.arm 0) field).mch.remaining = 150 := by decide +kernel

/-- START with robots that are not ready, forced past them, and with every robot ready. -/
theorem test_start :
    let staged := inPhase .staged field
    let ready := inPhase .staged (((State.reset.setElem 0 (some goalRecord)).setRobot 0 (robotIn .ready 100)))
    status (after (.start 0 2) staged) = some .badValue ∧ status (after (.start 0 1) play) = some .wrongPhase
      ∧ status (after (.start 0 0) (inPhase .staged State.reset)) = some .notReady ∧ status (after (.start 0 0) staged) = some .notReady
      ∧ (after (.start 0 1) staged).mch.phase = .opening ∧ (after (.start 0 0) ready).mch.phase = .opening
      ∧ ((after (.start 0 0) ready).robot 0).state = .active
      ∧ ¬ (∃ k, (ready.robot k).state = .assigned ∨ (ready.robot k).state = .linked) := by decide +kernel

/-- END-MATCH and RAN_OUT from each phase that runs out, with one tenth to go. -/
theorem test_phases_end :
    let last (p : Phase) : State := field.setMch { field.mch with phase := p, remaining := 1 }
    let none_ (s : State) : State := s.setMch { s.mch with durations := { opening := 0, transition := 0, play := 100, finale := 0 } }
    status (after (.endMatch 0) field) = some .wrongPhase ∧ (after (.endMatch 0) play).mch.phase = .ended
      ∧ (last .opening).matchRuns = true ∧ (after .ranOut (last .opening)).mch.phase = .transition
      ∧ (after .ranOut (none_ (last .opening))).mch.phase = .play ∧ (after .ranOut (last .transition)).mch.phase = .play
      ∧ (after .ranOut (last .play)).mch.phase = .finale ∧ (after .ranOut (none_ (last .play))).mch.phase = .ended
      ∧ (after .ranOut (last .finale)).mch.phase = .ended := by decide +kernel

/-- At ENDED an open goal begins to close with its closing poll, and a station whose holder goes has its lamp driven; a filled goal
whose window opens anew has its lamp driven. -/
theorem test_phase_bus :
    let goal (window : WindowState) (filled : Bool) : ElementRecord :=
      { goalRecord with part := .goal { goalPart with window := window, filled := filled, lit := filled } }
    let held : ElementRecord :=
      { stationRecord with part := .station { stationStart 15 4 .auto with lit := true }, claim := { ClaimPart.empty with holder := some 0 } }
    let asks (c : Instr) (s : State) : List (Option Index × BusOp) := (after c s).ebc.queue.map fun e => (e.element, e.op)
    asks (.endMatch 0) (withRecord (withRecord play 2 held) 0 (goal .opened false)) = [(some 2, .lamp false), (some 0, .poll .closing)]
      ∧ asks (.start 0 1) (withRecord (inPhase .staged field) 0 (goal .closed true)) = [(some 0, .lamp false)] := by
  decide +kernel

theorem test_clearMatch :
    let stopped := field.setMch { field.mch with filtered := true }
    status (after (.clearMatch 0) play) = some .wrongPhase ∧ status (after (.clearMatch 0) stopped) = some .stopActive
      ∧ status (after (.clearMatch 0) field) = some .ok ∧ ((after (.clearMatch 0) field).robot 5).state = .linked := by decide +kernel

/-- CLEAR-MATCH in ENDED turns every closing role into a refresh role: of an entry that has waited its poll period and of one
that has not, in flight, and of a mark; a filled goal goes out. -/
theorem test_clearMatch_bus :
    let p := { goalPart with window := .closing, filled := true, lit := true, lampMode := .auto }
    let s := withRecord (inPhase .ended field) 0 { goalRecord with part := .goal p }
    let s (now : Nat) : State := { queuedUp s [entry 0 47 (.poll .closing) .control] with now := now }
    let roles (t : State) : List (BusOp × TxClass) := t.ebc.queue.map fun e => (e.op, e.cls)
    let flying := after (.clearMatch 0) (inFlight (s 0) 0 1 (.poll .closing))
    roles (after (.clearMatch 0) (s 2000)) = [(.poll .refresh, .control), (.lamp false, .cosmetic)]
      ∧ roles (after (.clearMatch 0) (s 1999)) = [(.poll .refresh, .refresh), (.lamp false, .cosmetic)]
      ∧ (after (.clearMatch 0) (s 0)).litAt 0 = false ∧ flying.ebc.inFlight.map (·.entry.op) = some (.poll .refresh)
      ∧ ((after (.clearMatch 0) ((s 0).modSched 1 fun c => { c with closingWanted := true })).sched 1) =
          { (s 0).sched 1 with pollDue := true } := by decide +kernel

/-- A tenth with two tenths to go, with match time stopped, and the second of a held station. -/
theorem test_matchTenth :
    let two := play.setMch { play.mch with remaining := 2 }
    let p := { stationStart 15 4 .auto with windowOpen := true, accrual := 9, presence := some true }
    let r := { stationRecord with part := .station p, claim := { ClaimPart.empty with holder := some 23 } }
    let s := withRecord play 2 r
    two.matchRuns = true ∧ 2 ≤ two.mch.remaining ∧ (after .matchTenth two).mch.remaining = 1 ∧ field.matchRuns = false
      ∧ ((after .matchTenth two).robot 4).state = .active ∧ s.elem 2 = some r ∧ r.accruing p = true
      ∧ ((after (.stationAccrualSecond 2) s).tu.cell 23 2).value = 4 ∧ ((after .matchTenth s).tu.cell 23 2).value = 4 := by
  decide +kernel

/-- The last tenth of a phase leads into the next one in the same event, after an expiry and its promotion. -/
theorem test_last_tenth :
    let r := { stationRecord with holdLimit := 10, claim := { ClaimPart.empty with holder := some 0, heldFor := 9, waiting := [23] } }
    let s := (withRecord play 2 r).setMch { play.mch with remaining := 1 }
    s.matchRuns = true ∧ ¬ 2 ≤ s.mch.remaining ∧ (after .matchTenth s).mch.phase = .finale
      ∧ (after .matchTenth s).mch.matchTime = s.mch.matchTime + 1 ∧ (after .matchTenth s).holder 2 = some 23
      ∧ ((after .matchTenth s).stationAt 2).map (·.windowOpen) = some true := by decide +kernel

/-! ## Holds -/

theorem test_hold :
    (fullStack play).mch.stack.length = 6 ∧ status (after (.hold 0 9) (fullStack play)) = some .holdFull
      ∧ (after (.hold 0 9) play).mch.stack.map (·.number) = [1] ∧ (fullStack play).mch.nextHold = 7 := by decide +kernel

/-- A hold while the closing poll of a goal is in flight: the poll is abandoned, its role goes back into the queue behind the
STOP_ALL or to the refresh poll that waits, and the next refresh is due a poll period later. A frozen motion leaves the queue. -/
theorem test_hold_abandons :
    let s (q : List Entry) : State := inFlight (queuedUp play q) 47 63 (.poll .closing)
    let ops (t : State) : List BusOp := t.ebc.queue.map (·.op)
    let lamp := entry 1 0 (.lamp true) .cosmetic
    (s []).abandons = some (47, .closing) ∧ ops (after (.hold 0 9) (s [lamp])) = [.lamp true, .stopAll, .poll .closing]
      ∧ ops (after (.hold 0 9) (s [entry 1 47 (.poll .refresh) .refresh])) = [.poll .closing, .stopAll]
      ∧ ops (after (.hold 0 9) (s [entry 1 1 (.motion (.gate .opening)) .control])) = [.stopAll, .poll .closing]
      ∧ ((after (.hold 0 9) (s [])).sched 47).due = some 2000 ∧ (after (.hold 0 9) (s [])).ebc.inFlight = none := by decide +kernel

/-- The places of discarded motions go to the marks in their order, the rest waiting on, and with a full queue a second mark
stays. -/
theorem test_hold_frees :
    let drive := entry 40 1 (.motion (.gate .opening)) .control
    let marked (q : List Entry) : State := ((queuedUp play (drive :: q)).modSched 47 fun c => { c with lampSync := true }).modSched 0
      fun c => { c with pollDue := true, lampSync := true }
    let left (s : State) : List BusOp := ((after (.hold 0 9) s).ebc.queue.drop (s.ebc.queue.length - 1)).map (·.op)
    let full := marked ((List.range 30).map fun n => entry n 2 (.lamp true) .cosmetic)
    left (marked []) = [.stopAll, .poll .refresh] ∧ left full = [.stopAll, .poll .refresh] ∧ full.ebc.ordinary = 31
      ∧ ((after (.hold 0 9) full).sched 0).lampSync = true ∧ ((after (.hold 0 9) full).sched 0).pollDue = false := by decide +kernel

theorem test_resume :
    let one := withHold play 1 .hostHold
    let stop := (withHold play 1 .fieldStop).setMch { (withHold play 1 .fieldStop).mch with filtered := true }
    let pending (p : PendingSet) := (fullStack play).setMch { (fullStack play).mch with pendingSet := p }
    let top (t : State) : Option HoldCause := t.mch.stack.head?.map (·.cause)
    status (after (.resume 0 0) one) = some .badValue ∧ status (after (.resume 0 1) play) = some .wrongHold
      ∧ status (after (.resume 0 2) one) = some .wrongHold ∧ status (after (.resume 0 1) stop) = some .stopActive
      ∧ (after (.resume 0 1) one).mch.stack = [] ∧ (after (.resume 0 6) (fullStack play)).mch.stack.length = 5
      ∧ top (after (.resume 0 6) (pending { fieldStop := true, hostLost := true, elementFault := some 0 })) = some .fieldStop
      ∧ top (after (.resume 0 6) (pending { fieldStop := false, hostLost := true, elementFault := some 0 })) = some .hostLost
      ∧ top (after (.resume 0 6) (pending { fieldStop := false, hostLost := false, elementFault := some 47 })) = some .elementFault := by
  decide +kernel

/-- Two HALTED carriages that an emptied stack sets running, by ascending index, each with the speed of its zone. -/
theorem test_resume_restarts :
    let halted (direction : Direction) : ElementRecord :=
      { carriageRecord with part := .carriage { carriagePart with runState := .halted, direction := direction } }
    let s := withHold (withRecord (withRecord (queuedUp play []) 3 (halted .reverse)) 46 (halted .forward)) 1 .hostHold
    s.restartAsks = [.speed 3 (-20), .speed 46 20]
      ∧ (after (.resume 0 1) s).ebc.queue.map (·.op) = [.motion (.carriage (-20)), .motion (.carriage 20)] := by decide +kernel

theorem test_fieldStop :
    let raw (level filtered : Bool) : State := play.setMch { play.mch with raw := level, filtered := filtered }
    (after (.fieldStopLineChange true) play).mch.raw = true ∧ leads (.fieldStopLineChange false) play play
      ∧ (after .fieldStopAsserted (raw true false)).mch.filtered = true
      ∧ (after .fieldStopAsserted (raw true false)).mch.stack.map (·.cause) = [.fieldStop]
      ∧ (after .fieldStopAsserted (fullStack (raw true false))).mch.pendingSet.fieldStop = true
      ∧ leads .fieldStopAsserted (raw true true) (raw true true) ∧ leads .fieldStopAsserted (raw false false) (raw false false)
      ∧ (after .fieldStopReleased (raw false true)).mch.filtered = false := by decide +kernel

theorem test_hostSilence :
    let s := play.setMch { play.mch with hostLimit := 30 }
    s.silenceRunning = true ∧ (after .hostSilenceExpiry s).mch.silenceExpired = true ∧ play.silenceRunning = false
      ∧ leads .hostSilenceExpiry play play
      ∧ (after .hostSilenceExpiry (withHold s 1 .hostLost)).mch.stack.length = 1 := by decide +kernel

theorem test_lines : (withHold play 1 .hostHold).haltOut = true ∧ play.haltOut = false ∧ play.runs 23 = true
    ∧ (withHold play 1 .hostHold).runs 23 = false := by decide +kernel

/-! ## The tally -/

/-- ADJUST at both ends of rows, columns and points, and at the bounds of a cell. -/
theorem test_adjust :
    let twice (points : Half) : State := after (.adjust 0 27 47 points) (after (.adjust 0 27 47 points) play)
    status (after (.adjust 0 0 0 0x8000) play) = some .badValue ∧ status (after (.adjust 0 0 0 1) field) = some .wrongPhase
      ∧ status (after (.adjust 0 28 0 1) play) = some .badValue ∧ status (after (.adjust 0 0 48 1) play) = some .badValue
      ∧ status (after (.adjust 0 0 0 0) play) = some .badValue ∧ status (after (.adjust 0 27 47 0x7FFF) play) = some .ok
      ∧ (twice 0x7FFF).tu.cell 27 47 = { value := 32767, saturated := true }
      ∧ (twice 0x8001).tu.cell 27 47 = { value := -32767, saturated := true } ∧ (twice 0x8001).tu.totals.d = -32767 := by decide +kernel

/-- SHEET in its three modes and beyond them, without an image, and with a send in flight; SHEET-STOP with and without a send. -/
theorem test_sheet :
    status (after (.sheet 0 3 0) play) = some .badValue ∧ status (after (.sheet 0 2 2) play) = some .badValue
      ∧ status (after (.sheet 0 1 1) play) = some .noImage ∧ status (after (.sheet 0 0 0) (sending 19 10)) = some .busy
      ∧ (after (.sheet 0 0 0) play).tu.lastSnapshot = 1 ∧ (after (.sheet 0 2 1) play).tu.sending = some { order := .columns, parts := 17 }
      ∧ play.tu.sending = none ∧ SheetOrder.columns.code = 1
      ∧ leads (.sheetStop 0) play (play.queueReply 0x1D 0 .ok .sheetIdle)
      ∧ (after (.sheetStop 0) (sending 19 10)).tu.sending = none := by decide +kernel

/-! ## What every step keeps -/

theorem test_linkTallyHolds_sound : State.reset.hlp.sound ∧ State.reset.mch.holdsSound := by
  unfold Hlp.sound Mch.holdsSound
  decide +kernel
theorem test_ebcSound : State.reset.ebc.sound := by
  unfold Ebc.sound Ebc.ordered Ebc.single Ebc.marksApart
  decide +kernel
theorem test_rosterSound : State.reset.roster.sound := by
  unfold Roster.sound RobotRecord.sound
  decide +kernel
theorem test_fieldSound : play.fieldSound := by
  unfold State.fieldSound
  decide +kernel

/-- With every cell at 0 each alliance's sum is 0, whoever stands in the slots. -/
theorem test_sumOf_zero (s : State) (zero : ∀ row i, s.tu.cell row i = Cell.zero) (side : Alliance) : s.sumOf side = 0 := by
  have row_zero (l : List Index) (row : Fin 28) : (l.map fun i => (s.tu.cell row i).value).sum = 0 := by
    induction l with
    | nil => rfl
    | cons i l ih => simp [zero, Cell.zero]
  have all_zero (l : List (Fin 28)) :
      (l.map fun row => if s.owns side row then (indices.map fun i => (s.tu.cell row i).value).sum else 0).sum = 0 := by
    induction l with
    | nil => rfl
    | cons row l ih => rw [List.map_cons, List.sum_cons, ih, row_zero]; split <;> rfl
  exact all_zero _

/-- Right after a reset, in SETUP with an empty field, and in PLAY. -/
theorem test_totalsSound : State.reset.totalsSound ∧ play.totalsSound := by
  have zero (s : State) (cells : s.tu = Tu.reset) : ∀ row i, s.tu.cell row i = Cell.zero := by
    intro row i
    simp [Tu.cell, cells, Tu.reset]
  have sums (s : State) (cells : s.tu = Tu.reset) :
      s.tu.totals = { a := s.sumOf .a, b := s.sumOf .b, c := s.sumOf .c, d := s.sumOf .d } := by
    simp [test_sumOf_zero s (zero s cells), cells, Tu.reset, Totals.zero]
  refine ⟨⟨sums _ rfl, fun _ => ⟨fun row i => by rw [zero _ rfl]; rfl, fun i p goal => ?_⟩⟩, sums _ rfl, fun early => ?_⟩
  · have nothing : State.reset.goalAt i = none := by simp [State.reset, State.afterReset, State.goalAt, State.elem]
    rw [nothing] at goal
    cases goal
  · rcases early with early | early <;> cases early

/-- A gate's MOTION of the host's and a carriage's own MOTION, queued at the elements of their kinds. -/
theorem test_motionsFit :
    (queuedUp play [{ entry 0 1 (.motion (.gate .opening)) .control with origin := .host 9 },
      entry 1 3 (.motion (.carriage 30)) .control]).motionsFit := by
  refine ⟨?_, by decide +kernel⟩
  intro e queued m motion
  simp only [queuedUp, State.setEbc, List.mem_cons, List.not_mem_nil, or_false] at queued
  rcases queued with rfl | rfl <;> cases motion
  · exact ⟨1, rfl, by decide +kernel⟩
  · exact ⟨3, rfl, by decide +kernel⟩

/-- In PLAY, with a holder and a robot that waits, in a sound roster. -/
theorem test_claimantsActive : (withClaim play 2 (some 0) [23]).claimsSound ∧ (withClaim play 2 (some 0) [23]).claimantsActive
    ∧ (withClaim play 2 (some 0) [23]).roster.sound := by
  refine ⟨?_, ?_, ?_⟩
  · unfold State.claimsSound State.robotClaimsSound
    decide +kernel
  · unfold State.claimantsActive
    decide +kernel
  · unfold Roster.sound RobotRecord.sound
    decide +kernel

end Sys2Proof.Tests
end

/-! The three reads: what READ-ELEMENT, READ-ROBOT and READ-MATCH answer, and what they change. -/
namespace Sys2Proof.Machine

/-! ## Bytes that name an index or a slot -/

theorem indexOf_above {b : Byte} (above : 48 ≤ b.toNat) : indexOf b = none := dif_neg (Nat.not_lt.mpr above)

theorem indexOf_val {b : Byte} {i : Index} (names : b.toNat = i.val) : indexOf b = some i := by
  simp [indexOf, names]

theorem slotOf_above {b : Byte} (above : 24 ≤ b.toNat) : slotOf b = none := dif_neg (Nat.not_lt.mpr above)

theorem slotOf_val {b : Byte} {k : Slot} (names : b.toNat = k.val) : slotOf b = some k := by
  simp [slotOf, names]

/-! ## Answers that change little -/

/-- A longer list of blocks that may differ says less. -/
theorem State.onlyChanges_cons {s t : State} {changed : List Block} (b : Block) (h : s.onlyChanges t changed) :
    s.onlyChanges t (b :: changed) :=
  fun c other => h c fun listed => other (List.mem_cons_of_mem b listed)

theorem State.onlyChanges_modSticky (s : State) (i : Index) (f : Sticky → Sticky) :
    s.onlyChanges (s.modSticky i f) [.elems] := by
  intro b other
  cases b <;> simp_all [State.sameBlock]

/-- A request that is taken and changes nothing is answered with its body (R184). -/
theorem State.answers_taken (s : State) (kind tag : Byte) (body : ReplyBody) :
    s.answers ((taken s.restartSilence body).send kind tag) [] kind tag [] .ok body :=
  State.answers_send (a := taken s.restartSilence body) kind tag
    (fun b _ => by cases b <;> rfl) s.restartSilence_frame.1

@[simp] theorem Answered.send_elem (a : Answered) (kind tag : Byte) (i : Index) :
    (a.send kind tag).elem i = a.state.elem i := rfl

/-! ## READ-ELEMENT (R17) -/

theorem readElementOwner_above {index : Byte} (above : 48 ≤ index.toNat) (s : State) :
    readElementOwner index s = refuse s .badValue := by
  simp [readElementOwner, indexOf_above above]

theorem readElementOwner_undefined {index : Byte} {i : Index} {s : State} (names : index.toNat = i.val)
    (undefined : s.elem i = none) : readElementOwner index s = refuse s .noSuchElement := by
  simp [readElementOwner, indexOf_val names, undefined]

theorem readElementOwner_defined {index : Byte} {i : Index} {s : State} {r : ElementRecord}
    (names : index.toNat = i.val) (defined : s.elem i = some r) :
    readElementOwner index s = taken (s.modSticky i Sticky.afterRead) (.element i r) := by
  simp [readElementOwner, indexOf_val names, defined]

/-- The reply to READ-ELEMENT of a defined record: the record as it stood, with nothing but the field table changed. -/
theorem State.answers_readElement {s : State} {index : Byte} {i : Index} {r : ElementRecord} (tag : Byte)
    (names : index.toNat = i.val) (defined : s.elem i = some r) :
    s.answers ((readElementOwner index s.restartSilence).send 0x18 tag) [.elems] 0x18 tag [] .ok (.element i r) := by
  rw [readElementOwner_defined names (s.restartSilence_elem i ▸ defined)]
  exact State.answers_send (a := taken (s.restartSilence.modSticky i Sticky.afterRead) (.element i r)) 0x18 tag
    (State.onlyChanges_cons .hlp (State.onlyChanges_modSticky _ i _)) (by simp [taken])

/-- The records after READ-ELEMENT of a defined record: its own read flags are cleared, the other records stand. -/
theorem elem_readElement {s : State} {index : Byte} {i : Index} {r : ElementRecord} (tag : Byte)
    (names : index.toNat = i.val) (defined : s.elem i = some r) (j : Index) :
    ((readElementOwner index s.restartSilence).send 0x18 tag).elem j =
      if j = i then some { r with sticky := r.sticky.afterRead } else s.elem j := by
  rw [readElementOwner_defined names (s.restartSilence_elem i ▸ defined), Answered.send_elem]
  simp [taken, State.elem_modSticky, defined]

/-! ## READ-ROBOT (R20, R65) -/

theorem State.picture_congr {s t : State} (same : t.elems = s.elems) (k : Slot) : t.picture k = s.picture k := by
  have waiters : t.waiters = s.waiters := by
    funext i
    rw [State.waiters, State.elem_congr same]
    rfl
  simp [State.picture, State.heldBy, State.waitsOn, State.holder, State.elem_congr same, waiters]

/-- The grant does not read the host silence timer. -/
theorem State.runs_restartSilence (s : State) (k : Slot) : s.restartSilence.runs k = s.runs k := by
  unfold State.restartSilence
  split <;> rfl

theorem readRobotOwner_above {slot : Byte} (above : 24 ≤ slot.toNat) (s : State) :
    readRobotOwner slot s = refuse s .badValue := by
  simp [readRobotOwner, slotOf_above above]

theorem readRobotOwner_restartSilence {slot : Byte} {k : Slot} (names : slot.toNat = k.val) (s : State) :
    readRobotOwner slot s.restartSilence
      = taken s.restartSilence (.robot k (s.robot k) (s.picture k) (s.runs k)) := by
  simp [readRobotOwner, slotOf_val names, State.runs_restartSilence, State.picture_congr (t := s.restartSilence) (s := s)]

/-- The claim picture lists what the robot holds by ascending index (R20). -/
theorem State.heldBy_ascending (s : State) (k : Slot) : (s.heldBy k).Pairwise (· < ·) :=
  List.Pairwise.filter _ (List.pairwise_lt_finRange 48)

/-- A waiter's position, counted from 1, leads back to it. -/
theorem getElem?_positionIn {l : List Slot} {k : Slot} (waits : k ∈ l) : l[positionIn l k - 1]? = some k :=
  List.getElem?_idxOf waits

/-- The element and position that the claim picture shows are where the robot waits (R20). -/
theorem State.picture_waited_some {s : State} {k : Slot} {i : Index} {n : Nat}
    (shown : (s.picture k).waited = some (i, n)) : 1 ≤ n ∧ (s.waiters i)[n - 1]? = some k := by
  obtain ⟨j, found, at_j⟩ := Option.map_eq_some_iff.mp shown
  obtain ⟨rfl, rfl⟩ := Prod.mk.inj at_j
  exact ⟨Nat.le_add_left 1 _, getElem?_positionIn (s.waitsOn_some k j found)⟩

/-- The claim picture shows no waited element exactly when the robot waits nowhere (R20). -/
theorem State.picture_waited_none (s : State) (k : Slot) : (s.picture k).waited = none ↔ ∀ i, k ∉ s.waiters i :=
  Option.map_eq_none_iff.trans (s.waitsOn_none k)

/-! ## READ-MATCH (R192) -/

/-- Of the whole-match view, a good frame moves the host silence timer's fields alone. -/
theorem State.view_restartSilence (s : State) :
    s.restartSilence.view = { s.view with silenceRunning := s.restartSilence.silenceRunning
                                          silenceElapsed := s.restartSilence.mch.silenceElapsed } := by
  unfold State.restartSilence
  split <;> rfl

/-! ## The statement -/

/-- Settles O16: each read's reply is its owner's answer on the state whose host silence timer was just restarted, and what
the owner shows of it but that timer is what stood before. -/
theorem readsShowTheState : Obligations.ReadsShowTheState := by
  refine ⟨fun s tag index accepted => ?element, fun s tag slot accepted => ?robot, fun s tag accepted => ?view⟩
  case element =>
    refine ⟨_, congrArg Host.Outcome.next (State.goodFrame_eq accepted 0x18 tag (readElementOwner index)), ?_, ?_⟩
    · intro above
      rw [readElementOwner_above above]
      exact s.refuses_send 0x18 tag .badValue
    · intro i names
      split
      next undefined =>
        rw [readElementOwner_undefined names (s.restartSilence_elem i ▸ undefined)]
        exact s.refuses_send 0x18 tag .noSuchElement
      next r defined =>
        have records := elem_readElement tag names defined
        exact ⟨fun j other => (records j).trans (if_neg other), (records i).trans (if_pos rfl),
          State.answers_readElement tag names defined⟩
  case robot =>
    refine ⟨_, congrArg Host.Outcome.next (State.goodFrame_eq accepted 0x19 tag (readRobotOwner slot)), ?_, ?_⟩
    · intro above
      rw [readRobotOwner_above above]
      exact s.refuses_send 0x19 tag .badValue
    · intro k names
      rw [readRobotOwner_restartSilence names]
      exact ⟨s.answers_taken 0x19 tag _, s.heldBy_ascending k, s.mem_heldBy k,
        fun i n shown => State.picture_waited_some shown, s.picture_waited_none k⟩
  case view =>
    refine ⟨_, _, congrArg Host.Outcome.next (State.goodFrame_eq accepted 0x1A tag readMatchOwner),
      s.answers_taken 0x1A tag (.matchView s.restartSilence.view), ?_⟩
    rw [State.view_restartSilence]
    simp [State.view, Ebc.countClass, Ebc.countMarks]

end Sys2Proof.Machine

/-! The signal flags: what SIGNAL and ACK-SIGNAL make of them, alone and one after the other. -/
namespace Sys2Proof.Machine

/-! ## One robot record changed -/

theorem State.robot_modRobot (s : State) (k j : Slot) (f : RobotRecord → RobotRecord) :
    (s.modRobot k f).robot j = if j = k then f (s.robot k) else s.robot j :=
  State.robot_setRobot s k j (f (s.robot k))

/-- Raising a ROBOT notice keeps every robot record. -/
@[simp] theorem State.robot_raiseRobot (s : State) (k j : Slot) (w : RobotNotice) :
    (s.raiseRobot k w).robot j = s.robot j := rfl

/-- Changing one robot record keeps the two limits. -/
@[simp] theorem State.modRobot_limits (s : State) (k : Slot) (f : RobotRecord → RobotRecord) :
    (s.modRobot k f).roster.silenceLimit = s.roster.silenceLimit
      ∧ (s.modRobot k f).roster.dropLimit = s.roster.dropLimit := ⟨rfl, rfl⟩

theorem State.onlyChanges_modRobot (s : State) (k : Slot) (f : RobotRecord → RobotRecord) :
    s.onlyChanges (s.modRobot k f) [.roster] := by
  intro b other
  cases b <;> simp_all [State.sameBlock]

/-- A byte made of a slot names that slot. -/
theorem toNat_slotByte (k : Slot) : (slotByte k).toNat = k.val := by
  have := k.isLt
  simp [slotByte, byteOf]
  omega

/-! ## The flags (R62, R63) -/

/-- A flag after SIGNAL: set by the set mask, then cleared by the clear mask (R62). -/
theorem getLsbD_signalFlags (flags setMask clearMask : Byte) {j : Nat} (bit : j < 8) :
    (signalFlags flags setMask clearMask).getLsbD j
      = ((flags.getLsbD j || setMask.getLsbD j) && !clearMask.getLsbD j) := by
  simp [signalFlags, bit]

/-- A flag after ACK-SIGNAL: cleared by the mask (R63). -/
theorem getLsbD_ackFlags (flags mask : Byte) {j : Nat} (bit : j < 8) :
    (ackFlags flags mask).getLsbD j = (flags.getLsbD j && !mask.getLsbD j) := by
  simp [ackFlags, bit]

/-- No acknowledged flag stands after ACK-SIGNAL. -/
theorem ackFlags_and_mask (flags mask : Byte) : ackFlags flags mask &&& mask = 0 := by
  refine BitVec.eq_of_getLsbD_eq fun j bit => ?_
  rw [BitVec.getLsbD_and, getLsbD_ackFlags flags mask bit]
  cases mask.getLsbD j <;> simp

/-- Every flag that SIGNAL sets and does not clear stands after it. -/
theorem signalFlags_and_set (flags setMask : Byte) : signalFlags flags setMask 0 &&& setMask = setMask := by
  refine BitVec.eq_of_getLsbD_eq fun j bit => ?_
  rw [BitVec.getLsbD_and, getLsbD_signalFlags flags setMask 0 bit]
  cases setMask.getLsbD j <;> simp

/-! ## SIGNAL (R62) -/

section
variable {s : State} {tag slot setMask clearMask : Byte} {k : Slot}

theorem exec_signal (tag slot setMask clearMask : Byte) (accepted : s.accepts = true) :
    exec (.signal tag slot setMask clearMask) s
      = .next ((signalOwner slot setMask clearMask s.restartSilence).send 0x12 tag) :=
  congrArg Host.Outcome.next (State.goodFrame_eq accepted 0x12 tag _)

theorem signalOwner_above (above : 24 ≤ slot.toNat) : signalOwner slot setMask clearMask s = refuse s .badValue := by
  simp [signalOwner, slotOf_above above]

theorem signalOwner_vacant (names : slot.toNat = k.val) (vacant : (s.robot k).state = .vacant) :
    signalOwner slot setMask clearMask s = refuse s .noSuchRobot := by
  simp [signalOwner, slotOf_val names, vacant]

theorem signalOwner_taken (names : slot.toNat = k.val) (present : (s.robot k).state ≠ .vacant) :
    signalOwner slot setMask clearMask s
      = taken (s.modRobot k fun r => { r with signals := signalFlags (s.robot k).signals setMask clearMask })
          (.signals (signalFlags (s.robot k).signals setMask clearMask)) := by
  simp [signalOwner, slotOf_val names, present]

@[simp] theorem Answered.send_robot (a : Answered) (kind tag : Byte) (j : Slot) :
    (a.send kind tag).robot j = a.state.robot j := rfl

/-- The robot records after a SIGNAL that was taken: the flags of its own robot follow R62, all else stands. -/
theorem State.robot_signal (tag : Byte) (names : slot.toNat = k.val) (present : (s.robot k).state ≠ .vacant) (j : Slot) :
    ((signalOwner slot setMask clearMask s.restartSilence).send 0x12 tag).robot j
      = if j = k then { s.robot k with signals := signalFlags (s.robot k).signals setMask clearMask } else s.robot j := by
  rw [signalOwner_taken names (by rwa [s.restartSilence_robot])]
  simp [taken, State.robot_modRobot]

/-- The reply to a SIGNAL that was taken carries the flags, and only the roster changes (R62). -/
theorem State.answers_signal (tag : Byte) (names : slot.toNat = k.val) (present : (s.robot k).state ≠ .vacant) :
    s.answers ((signalOwner slot setMask clearMask s.restartSilence).send 0x12 tag) [.roster] 0x12 tag [] .ok
      (.signals (signalFlags (s.robot k).signals setMask clearMask)) := by
  rw [signalOwner_taken names (by rwa [s.restartSilence_robot]), s.restartSilence_robot]
  exact State.answers_send (a := taken (s.restartSilence.modRobot k _) _) 0x12 tag
    (State.onlyChanges_cons .hlp (State.onlyChanges_modRobot _ k _)) (by simp [taken])

/-- A SIGNAL that was taken changes no other robot and no limit. -/
theorem State.robotsBut_signal (tag : Byte) (names : slot.toNat = k.val) (present : (s.robot k).state ≠ .vacant) :
    s.robotsBut ((signalOwner slot setMask clearMask s.restartSilence).send 0x12 tag) k := by
  refine ⟨fun j other => by rw [State.robot_signal tag names present, if_neg other], ?_⟩
  rw [signalOwner_taken names (by rwa [s.restartSilence_robot])]
  simp [taken, Answered.send]

end

/-- A linked robot's beacon entry carries its signal flags (R82). -/
theorem State.slotEntry_signals {s : State} {k : Slot} (linked : (s.robot k).state.isLinked = true) :
    (s.slotEntry k).signals = (s.robot k).signals := by
  simp [State.slotEntry, linked]

/-! ## ACK-SIGNAL (R63) -/

/-- A robot request that is executed is handed to its owner as the new open request (R61, R77). -/
theorem State.handOn_eq {s : State} {k : Slot} {number : BitVec 4} (executed : s.executes k number = true)
    (q : RobotRequest) (owner : State → State) : s.handOn k number q owner = owner (s.openNew k number q) :=
  if_pos executed

/-- Only a linked robot's requests are executed. -/
theorem State.isLinked_of_executes {s : State} {k : Slot} {number : BitVec 4} (executed : s.executes k number = true) :
    (s.robot k).state.isLinked = true := by
  simp only [State.executes, Bool.and_eq_true] at executed
  obtain ⟨⟨linked, -⟩, -⟩ := executed
  exact linked

theorem RobotState.ne_vacant_of_isLinked {st : RobotState} (linked : st.isLinked = true) : st ≠ .vacant := by
  rintro rfl
  cases linked

/-- Whether a robot request is executed does not depend on the robot's signal flags. -/
theorem State.executes_of_signals {s t : State} {k : Slot} {flags : Byte}
    (same : t.robot k = { s.robot k with signals := flags }) (number : BitVec 4) :
    t.executes k number = s.executes k number := by
  simp [State.executes, RobotRecord.isNew, same]

theorem exec_ackSignal {s : State} {k : Slot} {number : BitVec 4} (executed : s.executes k number = true) (mask : Byte) :
    exec (.ackSignal k number mask) s = .next ((s.openNew k number (.ackSignal mask)).ackOn k mask) :=
  congrArg Host.Outcome.next (State.handOn_eq executed _ _)

/-- The robot records after an ACK-SIGNAL that was executed: the flags of its mask are clear, and the open request is
answered ACKED with the flags that stand (R63). -/
theorem State.robot_ackSignal (s : State) (k : Slot) (number : BitVec 4) (mask : Byte) (j : Slot) :
    ((s.openNew k number (.ackSignal mask)).ackOn k mask).robot j
      = if j = k then
          { s.robot k with
            signals := ackFlags (s.robot k).signals mask
            openRequest := some (answeredRequest number .ackSignal none .acked
              (some (ackFlags (s.robot k).signals mask).toNat)) }
        else s.robot j := by
  by_cases own : j = k
  · subst own
    simp [State.ackOn, State.openNew, State.robot_answerNow, State.robot_modRobot, RobotRequest.record,
      RobotRequest.kind, RobotRequest.element, answeredRequest]
  · simp [State.ackOn, State.openNew, State.robot_answerNow, State.robot_modRobot, own]

theorem State.onlyChanges_ackSignal (s : State) (k : Slot) (number : BitVec 4) (mask : Byte) :
    s.onlyChanges ((s.openNew k number (.ackSignal mask)).ackOn k mask) [.hlp, .roster] := by
  intro b other
  cases b <;> simp_all [State.sameBlock]

/-- An ACK-SIGNAL that was executed changes no other robot and no limit. -/
theorem State.robotsBut_ackSignal (s : State) (k : Slot) (number : BitVec 4) (mask : Byte) :
    s.robotsBut ((s.openNew k number (.ackSignal mask)).ackOn k mask) k := by
  refine ⟨fun j other => by rw [State.robot_ackSignal, if_neg other], ?_⟩
  simp [State.ackOn, State.answerNow, State.openNew]

/-- The notice of an ACK-SIGNAL carries the flags it cleared (R63). -/
theorem State.hlp_ackSignal (s : State) (k : Slot) (number : BitVec 4) (mask : Byte) :
    ((s.openNew k number (.ackSignal mask)).ackOn k mask).hlp
      = s.hlp.raise (.robot k (.signalAcknowledged ((s.robot k).signals &&& mask))) := by
  simp [State.ackOn, State.openNew, State.robot_modRobot]

/-! ## One after the other -/

section
variable {s t u : State} {k : Slot} {number : BitVec 4} {tag flag : Byte}

/-- A linked robot's record after a SIGNAL of its slot. -/
theorem robot_of_exec_signal {setMask clearMask : Byte} (accepted : s.accepts = true)
    (linked : (s.robot k).state.isLinked = true)
    (led : exec (.signal tag (slotByte k) setMask clearMask) s = .next t) :
    t.robot k = { s.robot k with signals := signalFlags (s.robot k).signals setMask clearMask } := by
  rw [exec_signal tag _ _ _ accepted] at led
  obtain rfl := Host.Outcome.next.inj led
  rw [State.robot_signal tag (toNat_slotByte k) (RobotState.ne_vacant_of_isLinked linked), if_pos rfl]

/-- A robot's record after an ACK-SIGNAL of its own that was executed. -/
theorem robot_of_exec_ackSignal {mask : Byte} (executed : s.executes k number = true)
    (led : exec (.ackSignal k number mask) s = .next t) :
    t.robot k = { s.robot k with
      signals := ackFlags (s.robot k).signals mask
      openRequest := some (answeredRequest number .ackSignal none .acked
        (some (ackFlags (s.robot k).signals mask).toNat)) } := by
  rw [exec_ackSignal executed] at led
  obtain rfl := Host.Outcome.next.inj led
  rw [State.robot_ackSignal, if_pos rfl]

/-- A SIGNAL that came before the acknowledgement leaves the flag clear (R63). -/
theorem signal_then_ack_clears (accepted : s.accepts = true) (executed : s.executes k number = true)
    (signalled : exec (.signal tag (slotByte k) flag 0) s = .next t)
    (acknowledged : exec (.ackSignal k number flag) t = .next u) : (u.robot k).signals &&& flag = 0 := by
  have record := robot_of_exec_signal accepted (State.isLinked_of_executes executed) signalled
  have still : t.executes k number = true := by rw [State.executes_of_signals record, executed]
  rw [robot_of_exec_ackSignal still acknowledged]
  exact ackFlags_and_mask _ flag

/-- A SIGNAL after the acknowledgement sets the flag again (R63). -/
theorem ack_then_signal_sets (executed : s.executes k number = true)
    (acknowledged : exec (.ackSignal k number flag) s = .next t) (accepted : t.accepts = true)
    (signalled : exec (.signal tag (slotByte k) flag 0) t = .next u) : (u.robot k).signals &&& flag = flag := by
  have linked : (t.robot k).state.isLinked = true := by
    rw [robot_of_exec_ackSignal executed acknowledged]
    exact State.isLinked_of_executes executed
  rw [robot_of_exec_signal accepted linked signalled]
  exact signalFlags_and_set _ flag

end

/-! ## The statement -/

/-- Settles O20: the record after each of the two requests is computed once, and the two orders follow by putting one
record into the other. -/
theorem signalsAreSetAndAcknowledged : Obligations.SignalsAreSetAndAcknowledged := by
  refine ⟨fun s tag slot setMask clearMask accepted => ?signal, fun s k number mask executed => ?ack,
    fun s t u k number tag flag accepted executed => ⟨?clears, ?sets⟩⟩
  case signal =>
    refine ⟨_, exec_signal tag slot setMask clearMask accepted, fun above => ?_, fun k names => ?_⟩
    · rw [signalOwner_above above]
      exact s.refuses_send 0x12 tag .badValue
    · split
      next vacant =>
        rw [signalOwner_vacant names (by rwa [s.restartSilence_robot])]
        exact s.refuses_send 0x12 tag .noSuchRobot
      next present =>
        have record := (State.robot_signal (setMask := setMask) (clearMask := clearMask) tag names present k).trans
          (if_pos rfl)
        refine ⟨State.robotsBut_signal tag names present, by rw [record], fun j bit => ?_, ?_, fun linked => ?_⟩
        · rw [record]
          exact getLsbD_signalFlags _ setMask clearMask bit
        · rw [record]
          exact State.answers_signal tag names present
        · exact State.slotEntry_signals (by rwa [record])
  case ack =>
    have record := (s.robot_ackSignal k number mask k).trans (if_pos rfl)
    refine ⟨_, exec_ackSignal executed mask, s.onlyChanges_ackSignal k number mask, s.robotsBut_ackSignal k number mask,
      fun j bit => ?_, by rw [record], s.hlp_ackSignal k number mask⟩
    rw [record]
    exact getLsbD_ackFlags _ mask bit
  case clears => exact signal_then_ack_clears accepted executed
  case sets => exact ack_then_signal_sets executed

end Sys2Proof.Machine

/-! HALT_OUT and the motion grant: when the line is asserted, when a slot is given RUN, and what its beacon entry says. -/
namespace Sys2Proof.Machine

theorem State.held_iff (s : State) : s.held = true ↔ s.mch.stack ≠ [] := by
  simp [State.held]

theorem State.not_held_iff (s : State) : s.held = false ↔ s.mch.stack = [] := by
  simp [State.held]

/-- HALT_OUT is asserted while a hold stands or the filtered FIELD_STOP line is asserted (R167). -/
theorem State.haltOut_iff (s : State) : s.haltOut = true ↔ s.mch.stack ≠ [] ∨ s.mch.filtered = true := by
  rw [State.haltOut, Bool.or_eq_true, State.held_iff]

/-- A reset empties the stack and releases the filtered line, whatever the raw line's level (R153). -/
theorem State.haltOut_afterReset (cause : ResetCause) (raw : Bool) (pending : List Instr) :
    (State.afterReset cause raw pending).haltOut = false := rfl

/-- The conditions of RUN (R64). -/
theorem State.runs_iff (s : State) (k : Slot) : s.runs k = true ↔
    (s.robot k).state = .active ∧ (s.robot k).silent = false
      ∧ (s.mch.phase = .opening ∨ s.mch.phase = .play ∨ s.mch.phase = .finale)
      ∧ s.mch.stack = [] ∧ s.mch.filtered = false := by
  rw [← State.not_held_iff]
  simp [State.runs, and_assoc, or_assoc]

/-- Only a linked robot is given RUN: ACTIVE is a linked state. -/
theorem State.runs_of_not_linked {s : State} {k : Slot} (apart : (s.robot k).state.isLinked = false) :
    s.runs k = false := by
  refine Bool.eq_false_iff.mpr fun granted => ?_
  obtain ⟨active, -⟩ := (s.runs_iff k).mp granted
  rw [active] at apart
  cases apart

/-- A beacon entry carries the grant of that moment (R64, R82); the empty entry of a slot that is not linked carries none. -/
theorem State.slotEntry_run (s : State) (k : Slot) : (s.slotEntry k).run = s.runs k := by
  unfold State.slotEntry
  split
  next => rfl
  next apart => exact (State.runs_of_not_linked (Bool.eq_false_iff.mpr apart)).symm

/-- Settles O52, one lemma for each clause. -/
theorem haltOutAndTheGrant : Obligations.HaltOutAndTheGrant :=
  ⟨State.haltOut_iff, State.haltOut_afterReset, State.runs_iff, State.slotEntry_run⟩

end Sys2Proof.Machine

/-! SET-QUOTA and SET-LAMP: the kind part each leaves, and the lamp drive a changed lit state asks for. -/
namespace Sys2Proof.Machine

/-! ## Lamp mode codes (Table 6-1) -/

theorem lampModeOf_code (m : LampMode) : lampModeOf m.code = some m := by
  cases m <;> rfl

theorem lampModeOf_above {b : Byte} (above : 2 < b.toNat) : lampModeOf b = none := by
  unfold lampModeOf
  split
  · omega
  · omega
  · omega
  · rfl

/-! ## A kind part replaced -/

section
variable {s : State} {i : Index} {r : ElementRecord}

/-- The records after the kind part of a defined one was replaced. -/
theorem State.elem_setPart_of_defined (defined : s.elem i = some r) (part : KindPart) (j : Index) :
    (s.setPart i part).elem j = if j = i then some (r.setPart part) else s.elem j := by
  rw [State.elem_setPart, defined, Option.map_some]

theorem State.setPart_of_defined (defined : s.elem i = some r) (part : KindPart) :
    s.setPart i part = s.setElem i (some (r.setPart part)) := by
  simp [State.setPart, State.modElem, defined]

theorem State.setElem_setElem (s : State) (i : Index) (x y : Option ElementRecord) :
    (s.setElem i x).setElem i y = s.setElem i y := by
  simp [State.setElem]

/-- Of two kind parts put in one after the other the later stands. -/
theorem State.setPart_setPart (defined : s.elem i = some r) (first later : KindPart) :
    (s.setPart i first).setPart i later = s.setPart i later := by
  rw [State.setPart_of_defined defined first, State.setPart_of_defined defined later,
    State.setPart_of_defined (s.elem_setElem_self i _), State.setElem_setElem]
  rfl

theorem State.onlyChanges_setPart (s : State) (i : Index) (part : KindPart) :
    s.onlyChanges (s.setPart i part) [.elems] := by
  intro b other
  cases b <;> simp_all [State.sameBlock]

end

/-! ## A lit state worked out again (R125, R137) -/

/-- The state after a kind part was replaced whose lit state may differ from the one before: a lamp drive is asked for
when it does. -/
def State.relamped (s : State) (i : Index) (part : KindPart) (was lit : Bool) : State :=
  (s.setPart i part).asksAll (litChange i was lit)

section
variable {s : State} {i : Index} {r : ElementRecord}

theorem State.relamped_same (s : State) (i : Index) (part : KindPart) (lit : Bool) :
    s.relamped i part lit lit = s.setPart i part := by
  simp [State.relamped, litChange, State.asksAll]

theorem State.relamped_changed {was lit : Bool} (changed : lit ≠ was) (s : State) (i : Index) (part : KindPart) :
    s.relamped i part was lit = (s.setPart i part).askLamp i lit := by
  simp [State.relamped, litChange, State.asksAll, changed]

/-- The goal handler's relighting, after it has replaced the goal part (R125). -/
theorem State.relightGoal_setGoal (defined : s.elem i = some r) (q : GoalPart) :
    (s.setGoal i q).relightGoal i = s.relamped i (.goal q.relit) q.lit q.relit.lit := by
  have part : (s.setGoal i q).goalAt i = some q :=
    State.goal_of ((State.elem_setPart_of_defined defined _ i).trans (if_pos rfl)) rfl
  simp only [State.relightGoal, part]
  split
  next same =>
    have unchanged : q.relit = q := by rw [GoalPart.relit, same]
    rw [unchanged, State.relamped_same, State.setGoal]
  next changed =>
    have differs : q.relit.lit ≠ q.lit := changed
    rw [State.relamped_changed differs, State.setGoal, State.setGoal, State.setPart_setPart defined]
    rfl

/-- The station handler's relighting, after it has replaced the station part (R137). -/
theorem State.relightStation_setStation (defined : s.elem i = some r) (q : StationPart) :
    (s.setStation i q).relightStation i
      = s.relamped i (.station { q with lit := q.lampMode.lit r.claim.holder.isSome }) q.lit
          (q.lampMode.lit r.claim.holder.isSome) := by
  have record : (s.setStation i q).elem i = some (r.setPart (.station q)) :=
    (State.elem_setPart_of_defined defined _ i).trans (if_pos rfl)
  have part : (s.setStation i q).stationAt i = some q := by simp [State.stationAt, record, ElementRecord.setPart]
  have holder : (s.setStation i q).holder i = r.claim.holder := by simp [State.holder, record, ElementRecord.setPart]
  simp only [State.relightStation, part, holder]
  split
  next same => rw [same, State.relamped_same, State.setStation]
  next changed =>
    rw [State.relamped_changed changed, State.setStation, State.setStation, State.setPart_setPart defined]

/-- Asks of handlers keep every record (R96 to R98). -/
theorem State.elem_asksAll (s : State) (asks : List BusAsk) (j : Index) : (s.asksAll asks).elem j = s.elem j :=
  State.elem_congr (State.asksAll_blocks asks s .elems (by decide)) j

theorem State.elem_relamped (defined : s.elem i = some r) (part : KindPart) (was lit : Bool) (j : Index) :
    (s.relamped i part was lit).elem j = if j = i then some (r.setPart part) else s.elem j := by
  rw [State.relamped, State.elem_asksAll, State.elem_setPart_of_defined defined]

theorem State.onlyChanges_relamped (s : State) (i : Index) (part : KindPart) (was lit : Bool) :
    s.onlyChanges (s.relamped i part was lit) [.elems, .ebc] := by
  intro b other
  have asked := State.asksAll_blocks (litChange i was lit) (s.setPart i part) b (by simp_all)
  have replaced := s.onlyChanges_setPart i part b (by simp_all)
  cases b <;> exact asked.trans replaced

/-- What an ask for a lamp drive does on the bus follows from the bus and the wall clock alone (R96). -/
theorem State.ebc_askLamp_congr {s t : State} (bus : t.ebc = s.ebc) (clock : t.now = s.now) (i : Index) (on : Bool) :
    (t.askLamp i on).ebc = (s.askLamp i on).ebc := by
  have queue (p : Entry → Bool) : t.queued p = s.queued p := by rw [State.queued, State.queued, bus]
  unfold State.askLamp
  rw [queue, bus]
  split
  next => simp [State.mapQueue, bus]
  next =>
    split
    next => simp [State.modSched, State.sched_congr bus, bus]
    next => simp [State.enter, bus, clock]

/-- On the bus a replaced kind part shows by the drive of its changed lit state alone. -/
theorem State.ebc_relamped {s t : State} (bus : t.ebc = s.ebc) (clock : t.now = s.now) (i : Index) (part : KindPart)
    (was lit : Bool) : (t.relamped i part was lit).ebc = (s.asksAll (litChange i was lit)).ebc := by
  by_cases same : lit = was
  · subst same
    simpa [State.relamped_same, litChange, State.asksAll] using bus
  · rw [State.relamped_changed same]
    simpa [litChange, State.asksAll, same] using State.ebc_askLamp_congr (by simp [bus]) (by simp [clock]) i lit

/-- A lit state that differs from the one before has its drive asked for (R96). -/
theorem State.lampAsked_relamped {was lit : Bool} (changed : was ≠ lit) (s : State) (i : Index) (part : KindPart) :
    (s.relamped i part was lit).lampAsked i lit := by
  rw [State.relamped_changed changed.symm]
  exact State.askLamp_asked _ i lit

end

/-! ## SET-QUOTA (R124) -/

section
variable {s : State} {index quota : Byte} {i : Index} {r : ElementRecord}

theorem exec_setQuota (tag index quota : Byte) (accepted : s.accepts = true) :
    exec (.setQuota tag index quota) s = .next ((setQuotaOwner index quota s.restartSilence).send 0x14 tag) :=
  congrArg Host.Outcome.next (State.goodFrame_eq accepted 0x14 tag _)

theorem setQuotaOwner_above (above : 48 ≤ index.toNat) : setQuotaOwner index quota s = refuse s .badValue := by
  simp [setQuotaOwner, indexOf_above above]

theorem setQuotaOwner_undefined (names : index.toNat = i.val) (undefined : s.elem i = none) :
    setQuotaOwner index quota s = refuse s .noSuchElement := by
  simp [setQuotaOwner, indexOf_val names, undefined]

theorem setQuotaOwner_notGoal (names : index.toNat = i.val) (defined : s.elem i = some r)
    (other : ∀ p, r.part ≠ .goal p) : setQuotaOwner index quota s = refuse s .wrongKind := by
  simp only [setQuotaOwner, indexOf_val names, defined]
  cases part : r.part with
  | goal p => exact absurd part (other p)
  | gate _ | station _ | carriage _ => rfl

theorem setQuotaOwner_goal {p : GoalPart} (names : index.toNat = i.val) (defined : s.elem i = some r)
    (goal : r.part = .goal p) :
    setQuotaOwner index quota s = taken (s.setPart i (.goal (p.withQuota quota.toNat)))
      (.quota (p.withQuota quota.toNat).quota (p.withQuota quota.toNat).pendingQuota) := by
  simp [setQuotaOwner, indexOf_val names, defined, goal, State.setGoal]

theorem GoalPart.withQuota_closed {p : GoalPart} (closed : p.window = .closed) (n : Nat) :
    p.withQuota n = { p with quota := n, pendingQuota := none, count := n } := by
  simp [GoalPart.withQuota, closed]

theorem GoalPart.withQuota_notClosed {p : GoalPart} (running : p.window ≠ .closed) (n : Nat) :
    p.withQuota n = { p with pendingQuota := some n } := by
  cases window : p.window with
  | closed => exact absurd window running
  | opened | closing => simp [GoalPart.withQuota, window]

/-- The records after a SET-QUOTA that was taken. -/
theorem State.elem_setQuota {p : GoalPart} (tag : Byte) (names : index.toNat = i.val) (defined : s.elem i = some r)
    (goal : r.part = .goal p) (j : Index) :
    ((setQuotaOwner index quota s.restartSilence).send 0x14 tag).elem j
      = if j = i then some (r.setPart (.goal (p.withQuota quota.toNat))) else s.elem j := by
  have stands := (s.restartSilence_elem i).trans defined
  rw [setQuotaOwner_goal names stands goal, Answered.send_elem, taken, State.elem_setPart_of_defined stands,
    s.restartSilence_elem]

/-- The reply to a SET-QUOTA that was taken carries both quotas, and only the field table changes (R124). -/
theorem State.answers_setQuota {p : GoalPart} (tag : Byte) (names : index.toNat = i.val) (defined : s.elem i = some r)
    (goal : r.part = .goal p) :
    s.answers ((setQuotaOwner index quota s.restartSilence).send 0x14 tag) [.elems] 0x14 tag [] .ok
      (.quota (p.withQuota quota.toNat).quota (p.withQuota quota.toNat).pendingQuota) := by
  rw [setQuotaOwner_goal names ((s.restartSilence_elem i).trans defined) goal]
  exact State.answers_send (a := taken (s.restartSilence.setPart i _) _) 0x14 tag
    (State.onlyChanges_cons .hlp (State.onlyChanges_setPart _ i _)) (by simp [taken])

end

/-! ## SET-LAMP (R127, R137) -/

section
variable {s : State} {index mode : Byte} {i : Index} {m : LampMode} {r : ElementRecord}

theorem exec_setLamp (tag index mode : Byte) (accepted : s.accepts = true) :
    exec (.setLamp tag index mode) s = .next ((setLampOwner index mode s.restartSilence).send 0x15 tag) :=
  congrArg Host.Outcome.next (State.goodFrame_eq accepted 0x15 tag _)

theorem setLampOwner_badValue (above : 48 ≤ index.toNat ∨ 2 < mode.toNat) :
    setLampOwner index mode s = refuse s .badValue := by
  obtain indexAbove | modeAbove := above
  · simp [setLampOwner, indexOf_above indexAbove]
  · simp [setLampOwner, lampModeOf_above modeAbove]

theorem setLampOwner_undefined (names : index.toNat = i.val) (undefined : s.elem i = none) :
    setLampOwner index m.code s = refuse s .noSuchElement := by
  simp [setLampOwner, lampModeOf_code, indexOf_val names, undefined]

theorem setLampOwner_gate {p : GatePart} (names : index.toNat = i.val) (defined : s.elem i = some r)
    (gate : r.part = .gate p) : setLampOwner index m.code s = refuse s .wrongKind := by
  simp [setLampOwner, lampModeOf_code, indexOf_val names, defined, gate]

theorem setLampOwner_carriage {p : CarriagePart} (names : index.toNat = i.val) (defined : s.elem i = some r)
    (carriage : r.part = .carriage p) : setLampOwner index m.code s = refuse s .wrongKind := by
  simp [setLampOwner, lampModeOf_code, indexOf_val names, defined, carriage]

theorem setLampOwner_goal_sequence {p : GoalPart} (names : index.toNat = i.val) (defined : s.elem i = some r)
    (goal : r.part = .goal p) (sequence : m = .auto ∧ p.lampMode = .on) :
    setLampOwner index m.code s = refuse s .lampSequence := by
  simp [setLampOwner, lampModeOf_code, indexOf_val names, defined, goal, sequence]

theorem setLampOwner_station_sequence {p : StationPart} (names : index.toNat = i.val) (defined : s.elem i = some r)
    (station : r.part = .station p) (sequence : m = .auto ∧ p.lampMode = .on) :
    setLampOwner index m.code s = refuse s .lampSequence := by
  simp [setLampOwner, lampModeOf_code, indexOf_val names, defined, station, sequence]

theorem setLampOwner_goal {p : GoalPart} (names : index.toNat = i.val) (defined : s.elem i = some r)
    (goal : r.part = .goal p) (allowed : ¬ (m = .auto ∧ p.lampMode = .on)) :
    setLampOwner index m.code s
      = taken (s.relamped i (.goal { p with lampMode := m, lit := m.lit p.filled }) p.lit (m.lit p.filled))
          (.lamp m (m.lit p.filled)) := by
  simp only [setLampOwner, lampModeOf_code, indexOf_val names, defined, goal, if_neg allowed,
    State.relightGoal_setGoal defined]
  simp [State.litAt, State.elem_relamped defined, ElementRecord.setPart, GoalPart.relit]

theorem setLampOwner_station {p : StationPart} (names : index.toNat = i.val) (defined : s.elem i = some r)
    (station : r.part = .station p) (allowed : ¬ (m = .auto ∧ p.lampMode = .on)) :
    setLampOwner index m.code s
      = taken (s.relamped i (.station { p with lampMode := m, lit := m.lit r.claim.holder.isSome }) p.lit
            (m.lit r.claim.holder.isSome))
          (.lamp m (m.lit r.claim.holder.isSome)) := by
  simp only [setLampOwner, lampModeOf_code, indexOf_val names, defined, station, if_neg allowed,
    State.relightStation_setStation defined]
  simp [State.litAt, State.elem_relamped defined, ElementRecord.setPart]

/-- What a SET-LAMP that is taken does, of a goal and of a station alike: the kind part is stored, the reply carries the
mode and the lit state, and the bus sees the drive of a changed lit state alone (R127). -/
theorem State.setLamp_taken (tag : Byte) (m : LampMode) (defined : s.elem i = some r) (part : KindPart) (was lit : Bool) :
    let t := (taken (s.restartSilence.relamped i part was lit) (.lamp m lit)).send 0x15 tag
    s.elemsBut t i ∧ t.elem i = some { r with part := part } ∧ s.answers t [.elems, .ebc] 0x15 tag [] .ok (.lamp m lit)
      ∧ t.ebc = (s.asksAll (litChange i was lit)).ebc ∧ (was ≠ lit → t.lampAsked i lit) := by
  intro t
  have records (j : Index) : t.elem j = if j = i then some (r.setPart part) else s.elem j := by
    rw [Answered.send_elem, taken, State.elem_relamped ((s.restartSilence_elem i).trans defined), s.restartSilence_elem]
  obtain ⟨hlp, -, -, -, ebc, -, now, -⟩ := s.restartSilence_frame
  have blocks := s.restartSilence.onlyChanges_relamped i part was lit
  refine ⟨fun j other => (records j).trans (if_neg other), (records i).trans (if_pos rfl), ?answer,
    State.ebc_relamped ebc now i part was lit, fun changed => State.lampAsked_relamped changed s.restartSilence i part⟩
  case answer =>
    exact State.answers_send (a := taken (s.restartSilence.relamped i part was lit) _) 0x15 tag
      (State.onlyChanges_cons .hlp blocks) ((blocks .hlp (by decide)).trans hlp)

end

/-! ## The statement -/

/-- Settles O43: each request's owner is computed once for every kind of record, and the two kinds with a lamp share the
argument for what the bus sees. -/
theorem setQuotaAndSetLamp : Obligations.SetQuotaAndSetLamp := by
  refine ⟨fun s tag index quota accepted => ?quota, fun s tag index mode accepted => ?lamp⟩
  case quota =>
    refine ⟨_, exec_setQuota tag index quota accepted, fun above => ?_, fun i names => ?_⟩
    · rw [setQuotaOwner_above above]
      exact s.refuses_send 0x14 tag .badValue
    · split
      next undefined =>
        rw [setQuotaOwner_undefined names ((s.restartSilence_elem i).trans undefined)]
        exact s.refuses_send 0x14 tag .noSuchElement
      next r defined =>
        split
        next p goal =>
          have records := State.elem_setQuota (quota := quota) tag names defined goal
          have answer := State.answers_setQuota (quota := quota) tag names defined goal
          refine ⟨fun j other => (records j).trans (if_neg other), ?_⟩
          split
          next closed =>
            rw [GoalPart.withQuota_closed closed] at records answer
            exact ⟨(records i).trans (if_pos rfl), answer⟩
          next running =>
            rw [GoalPart.withQuota_notClosed running] at records answer
            exact ⟨(records i).trans (if_pos rfl), answer⟩
        next other =>
          rw [setQuotaOwner_notGoal names ((s.restartSilence_elem i).trans defined) other]
          exact s.refuses_send 0x14 tag .wrongKind
  case lamp =>
    refine ⟨_, exec_setLamp tag index mode accepted, fun above => ?_, ?_⟩
    · rw [setLampOwner_badValue above]
      exact s.refuses_send 0x15 tag .badValue
    · rintro i m names rfl
      dsimp only
      split
      next undefined =>
        rw [setLampOwner_undefined names ((s.restartSilence_elem i).trans undefined)]
        exact s.refuses_send 0x15 tag .noSuchElement
      next r defined =>
        have stands := (s.restartSilence_elem i).trans defined
        split
        next p goal =>
          split
          next sequence =>
            rw [setLampOwner_goal_sequence names stands goal sequence]
            exact s.refuses_send 0x15 tag .lampSequence
          next allowed =>
            rw [setLampOwner_goal names stands goal allowed]
            exact State.setLamp_taken tag m defined _ p.lit _
        next p station =>
          split
          next sequence =>
            rw [setLampOwner_station_sequence names stands station sequence]
            exact s.refuses_send 0x15 tag .lampSequence
          next allowed =>
            rw [setLampOwner_station names stands station allowed]
            exact State.setLamp_taken tag m defined _ p.lit _
        next gate =>
          rw [setLampOwner_gate names stands gate]
          exact s.refuses_send 0x15 tag .wrongKind
        next carriage =>
          rw [setLampOwner_carriage names stands carriage]
          exact s.refuses_send 0x15 tag .wrongKind

end Sys2Proof.Machine

/-! SET-NOTICES and the notice class mask: what the request stores and shows, which notices the mask stops, and what leaves it
standing. -/
namespace Sys2Proof.Machine

/-! ## The byte of a mask (R187) -/

theorem maskOf_sevenBits {b : Byte} (sevenBits : b.toNat < 128) : maskOf b = some (b.setWidth 7) := by
  rw [maskOf, if_pos sevenBits]
  exact congrArg some (BitVec.eq_of_toNat_eq rfl)

theorem maskOf_eighthBit {b : Byte} (eighthBit : 128 ≤ b.toNat) : maskOf b = none := if_neg (Nat.not_lt.mpr eighthBit)

/-! ## SET-NOTICES (R187) -/

section
variable {s : State} {mask : Byte}

theorem exec_setNotices (tag mask : Byte) (accepted : s.accepts = true) :
    exec (.setNotices tag mask) s = .next ((setNoticesOwner mask s.restartSilence).send 0x04 tag) :=
  congrArg Host.Outcome.next (State.goodFrame_eq accepted 0x04 tag _)

theorem setNoticesOwner_taken (sevenBits : mask.toNat < 128) :
    setNoticesOwner mask s = taken (s.setHlp { s.hlp with mask := mask.setWidth 7 }) (.mask (mask.setWidth 7)) := by
  simp [setNoticesOwner, maskOf_sevenBits sevenBits]

theorem setNoticesOwner_refused (eighthBit : 128 ≤ mask.toNat) : setNoticesOwner mask s = refuse s .badValue := by
  simp [setNoticesOwner, maskOf_eighthBit eighthBit]

theorem State.onlyChanges_setHlp_queueReply (s : State) (h : Hlp) (kind tag : Byte) (status : Status) (body : ReplyBody) :
    s.onlyChanges ((s.setHlp h).queueReply kind tag status body) [.hlp] := by
  intro b other
  cases b <;> simp_all [State.sameBlock]

/-- The mask is replaced and the reply shows it; every other field of the host link port stands. -/
theorem State.hlp_setNotices (tag : Byte) (sevenBits : mask.toNat < 128) :
    ((setNoticesOwner mask s.restartSilence).send 0x04 tag).hlp
      = { s.hlp with mask := mask.setWidth 7
                     out := s.hlp.out ++ [.reply 0x04 tag .ok (.mask (mask.setWidth 7))] } := by
  rw [setNoticesOwner_taken sevenBits]
  simp [taken, Answered.send, State.queueReply]

end

/-! ## What the mask stops (R186, R187) -/

theorem Notice.passes_iff (n : Notice) (mask : BitVec 7) :
    n.passes mask = true ↔ n.classBit = none ∨ ∃ c, n.classBit = some c ∧ mask.getLsbD c.val = true := by
  unfold Notice.passes
  cases n.classBit with
  | none => simp
  | some c => simp

theorem Notice.passes_of_disabled {n : Notice} {c : Fin 7} {mask : BitVec 7} (cls : n.classBit = some c)
    (disabled : mask.getLsbD c.val = false) : n.passes mask = false := by
  rw [Notice.passes, cls]
  exact disabled

theorem Hlp.raise_stopped {h : Hlp} {n : Notice} (stopped : n.passes h.mask = false) : h.raise n = h := by
  simp [Hlp.raise_eq, stopped]

theorem Hlp.raise_passed {h : Hlp} {n : Notice} (passed : n.passes h.mask = true) :
    h.raise n = if 22 ≤ h.notices then { h with lost := true }
      else { h with out := h.out ++ [.notice h.lost n], lost := false } := by
  rw [Hlp.raise_eq, if_pos passed]

/-! ## What leaves the mask standing -/

/-- The mask acts on a notice; the notice does not act on the mask. -/
@[simp] theorem Hlp.mask_raise (h : Hlp) (n : Notice) : (h.raise n).mask = h.mask := by
  rw [Hlp.raise_eq]
  split
  next => split <;> rfl
  next => rfl

@[simp] theorem refuse_state (s : State) (status : Status) : (refuse s status).state = s := rfl

@[simp] theorem taken_state (s : State) (body : ReplyBody) : (taken s body).state = s := rfl

@[simp] theorem Answered.mask_send (a : Answered) (kind tag : Byte) : (a.send kind tag).hlp.mask = a.state.hlp.mask := rfl

/-- A good frame leaves the mask standing when its owner does, whether or not the request is dispatched. -/
theorem State.mask_goodFrame {owner : State → Answered} (kept : ∀ u, (owner u).state.hlp.mask = u.hlp.mask) (s : State)
    (kind tag : Byte) : (s.goodFrame kind tag owner).hlp.mask = s.hlp.mask := by
  cases accepted : s.accepts with
  | true => rw [State.goodFrame_eq accepted, Answered.mask_send, kept, s.restartSilence_frame.1]
  | false =>
    rw [State.goodFrame, State.goodFrameThen_turnedAway accepted]
    split <;> simp

theorem State.mask_endSend (s : State) (stopped : Bool) : (s.endSend stopped).hlp.mask = s.hlp.mask := by
  unfold State.endSend
  split <;> simp

theorem State.mask_noticeCleared (s : State) (before : Mch) : (s.noticeCleared before).hlp.mask = s.hlp.mask := by
  unfold State.noticeCleared
  split <;> simp

/-- Of the blocks told of a clearing, the tally unit alone touches the host link port: it ends a send (R179). -/
theorem State.hlp_reportClear (s : State) : s.reportClear.hlp = (s.endSend true).hlp := by
  simp [State.reportClear, State.clearTally]

theorem State.mask_clearMatch (s : State) : s.clearMatch.hlp.mask = s.hlp.mask := by
  rw [State.clearMatch, State.hlp_reportClear, State.mask_endSend, State.raise_hlp, Hlp.mask_raise, State.mask_noticeCleared,
    State.setMch_hlp]

theorem mask_clearMatchOwner (s : State) : (clearMatchOwner s).state.hlp.mask = s.hlp.mask := by
  unfold clearMatchOwner
  split
  next => rw [refuse_state]
  next =>
    split
    next => rw [refuse_state]
    next => rw [taken_state, State.mask_clearMatch]

theorem exec_clearMatch (tag : Byte) (s : State) :
    exec (.clearMatch tag) s = .next (s.goodFrame 0x0C tag clearMatchOwner) := rfl

theorem mask_of_exec_clearMatch {s t : State} {tag : Byte} (run : exec (.clearMatch tag) s = .next t) :
    t.hlp.mask = s.hlp.mask := by
  rw [exec_clearMatch] at run
  cases run
  exact State.mask_goodFrame mask_clearMatchOwner s 0x0C tag

/-! ## The statement -/

/-- Settles O11: the request by its mask's range, a notice by whether it passes the mask, each notice's class, and the mask
after a reset and through CLEAR-MATCH. -/
theorem setNoticesReplacesTheMask : Obligations.SetNoticesReplacesTheMask := by
  refine ⟨fun s tag mask accepted => ⟨_, exec_setNotices tag mask accepted, ?taken, ?refused⟩, ?stopped, ?passed, ?classes,
    fun _ _ _ _ => rfl, fun _ _ _ _ _ _ => rfl, fun _ _ _ => rfl, fun _ _ _ => mask_of_exec_clearMatch⟩
  case taken =>
    intro sevenBits
    refine ⟨?_, State.hlp_setNotices tag sevenBits⟩
    rw [setNoticesOwner_taken sevenBits]
    exact State.onlyChanges_setHlp_queueReply _ _ 0x04 tag .ok _
  case refused =>
    intro eighthBit
    rw [setNoticesOwner_refused eighthBit]
    exact s.refuses_send 0x04 tag .badValue
  case stopped => exact fun h n c cls disabled => Hlp.raise_stopped (Notice.passes_of_disabled cls disabled)
  case passed => exact fun h n enabled => Hlp.raise_passed ((n.passes_iff h.mask).mpr enabled)
  case classes =>
    exact ⟨fun _ _ _ _ _ => rfl, fun _ _ _ => rfl, fun _ _ => rfl, fun _ => rfl, fun _ _ _ => rfl, fun _ _ => rfl,
      fun _ _ _ => rfl, fun _ _ => rfl⟩

end Sys2Proof.Machine

/-! What a step can do: the command at the front of the queue, or time; and how a property of the state is carried through
every command, a HOST_FRAME by way of the requests it carries. -/
namespace Sys2Proof.Machine

/-! ## Commands -/

theorem step_command {s : State} {c : Instr} {rest : List Instr} (front : s.pending = c :: rest) :
    step s = exec c { s with pending := rest } := by
  rw [step, front]

theorem step_idle {s : State} (empty : s.pending = []) : step s = .next s.idle := by
  rw [step, empty]

/-- Settles O1, by the equation of `step` for a queue that is not empty. -/
theorem stepRunsFrontCommand : Obligations.StepRunsFrontCommand :=
  fun _ _ _ front => step_command front

/-- An outcome is a next state, of which something holds. -/
def Leads (o : Host.Outcome State Fault Refusal) (P : State → Prop) : Prop := ∃ t, o = .next t ∧ P t

theorem leads_next {P : State → Prop} {t : State} (holds : P t) : Leads (.next t) P := ⟨t, rfl, holds⟩

theorem leads_next_iff {P : State → Prop} {t : State} : Leads (.next t) P ↔ P t :=
  ⟨fun ⟨_, same, holds⟩ => Host.Outcome.next.inj same ▸ holds, leads_next⟩

/-- The command is a HOST_FRAME, whose bytes may carry any host request. -/
def isHostFrame : Instr → Bool
  | .hostFrame _ => true
  | _ => false

/-- Handing a command to the dispatch of requests runs it when it is a host request, and does nothing otherwise. -/
theorem handRequest_runs (i : Instr) (s : State) :
    handRequest i s = .next s ∨ handRequest i s = exec i s ∧ isHostFrame i = false := by
  cases i <;> simp [handRequest, exec, isHostFrame]

/-! ## What every command keeps -/

section
variable {P : State → Prop} (received : ∀ s rx, P s → P (s.setRx rx))
  (refused : ∀ s kind tag status, P s → P (s.goodFrame kind tag fun t => refuse t status))
  (runs : ∀ i s, isHostFrame i = false → P s → Leads (exec i s) P)
include runs

theorem handRequest_leads (i : Instr) {s : State} (h : P s) : Leads (handRequest i s) P := by
  rcases handRequest_runs i s with left | ⟨run, request⟩
  · rw [left]; exact leads_next h
  · rw [run]; exact runs i s request h

include refused

theorem wholeFrame_leads (frame : List Byte) {s : State} (h : P s) : Leads (wholeFrame frame s) P := by
  unfold wholeFrame dispatchRequest
  dsimp only
  split
  · split
    · split
      · exact leads_next (refused _ _ _ _ h)
      · exact leads_next (refused _ _ _ _ h)
      · exact handRequest_leads runs _ h
    · exact leads_next h
  · exact leads_next h

include received

theorem receiveByte_leads (b : Byte) {s : State} (h : P s) : Leads (receiveByte b s) P := by
  unfold receiveByte
  split
  · split
    · split
      · exact leads_next (received _ _ h)
      · exact leads_next h
    · split <;> exact leads_next (received _ _ h)
    · split
      · exact wholeFrame_leads refused runs _ (received _ _ h)
      · exact leads_next (received _ _ h)
  · exact leads_next h

theorem receiveBytes_leads (bytes : List Byte) : ∀ {s : State}, P s → Leads (receiveBytes bytes s) P := by
  induction bytes with
  | nil => intro s h; exact leads_next h
  | cons b rest ih =>
    intro s h
    obtain ⟨t, taken, keeps⟩ := receiveByte_leads received refused runs b h
    rw [receiveBytes, taken]
    exact ih keeps

/-- What every command but HOST_FRAME keeps, HOST_FRAME keeps as well. -/
theorem exec_leads (i : Instr) {s : State} (h : P s) : Leads (exec i s) P := by
  cases frame : isHostFrame i with
  | false => exact runs i s frame h
  | true =>
    cases i
    case hostFrame bytes => exact receiveBytes_leads received refused runs bytes h
    all_goals exact absurd frame Bool.false_ne_true

/-- What every command and the passing of time keep, every step keeps. -/
theorem step_keeps (waits : ∀ (s : State) (l : List Instr), P s → P { s with pending := l }) (slice : ∀ s, P s → P s.slice)
    {s t : State} (h : P s) (stepped : step s = .next t) : P t := by
  cases queue : s.pending with
  | nil =>
    rw [step_idle queue] at stepped
    obtain rfl := Host.Outcome.next.inj stepped
    unfold State.idle
    split
    · exact waits _ _ (slice _ h)
    · exact waits _ _ h
  | cons c rest =>
    rw [step_command queue] at stepped
    exact leads_next_iff.mp (stepped ▸ exec_leads received refused runs c (waits _ _ h))

end

/-! ## Host requests -/

/-- What the owner of a host request makes of it; no other command has an owner. -/
def ownerOf : Instr → Option (State → Answered)
  | .identify _ => some identifyOwner
  | .resetPart _ => some resetPartOwner
  | .setNotices _ mask => some (setNoticesOwner mask)
  | .readMatch _ => some readMatchOwner
  | .setTiming _ fields => some (setTimingOwner fields)
  | .defineElement _ fields => some (defineOwner fields)
  | .removeElement _ index => some (removeOwner index)
  | .assignRobot _ slot team alliance => some (assignOwner slot team alliance)
  | .unassignRobot _ slot => some (unassignOwner slot)
  | .arm _ => some armOwner
  | .start _ force => some (startOwner force)
  | .endMatch _ => some endMatchOwner
  | .clearMatch _ => some clearMatchOwner
  | .hold _ holdTag => some (holdOwner holdTag)
  | .resume _ number => some (resumeOwner number)
  | .bench _ slot seconds => some (benchOwner slot seconds)
  | .reinstate _ slot => some (reinstateOwner slot)
  | .eject _ slot => some (ejectOwner slot)
  | .signal _ slot setMask clearMask => some (signalOwner slot setMask clearMask)
  | .setWindow _ index control => some (setWindowOwner index control)
  | .setQuota _ index quota => some (setQuotaOwner index quota)
  | .setLamp _ index mode => some (setLampOwner index mode)
  | .setGate tag index setpoint => some (setGateOwner tag index setpoint)
  | .driveCarriage _ index command direction => some (driveCarriageOwner index command direction)
  | .readElement _ index => some (readElementOwner index)
  | .readRobot _ slot => some (readRobotOwner slot)
  | .adjust _ row column points => some (adjustOwner row column points)
  | .sheet _ mode order => some (sheetOwner mode order)
  | .sheetStop _ => some sheetStopOwner
  | _ => none

/-- A host request is a good frame for its owner; behind the reply to a SHEET the parts of a send enter (R183 to R185). -/
theorem exec_ownerOf {i : Instr} {owner : State → Answered} (owned : ownerOf i = some owner) (s : State) :
    ∃ kind tag behind, (behind = id ∨ behind = State.pump) ∧ exec i s = .next (s.goodFrameThen kind tag owner behind) := by
  cases i
  case sheet => obtain rfl := Option.some.inj owned; exact ⟨_, _, _, .inr rfl, rfl⟩
  all_goals simp only [ownerOf, Option.some.injEq, reduceCtorEq] at owned
  all_goals subst owned
  all_goals exact ⟨_, _, _, .inl rfl, rfl⟩

/-- What the restart of the host silence timer, the request's owner, the entry of its reply and of the parts of a send keep, a
good frame keeps. -/
theorem State.goodFrameThen_keeps {P : State → Prop} (restart : ∀ s, P s → P s.restartSilence)
    (reply : ∀ s kind tag status body, P s → P (s.queueReply kind tag status body)) {owner : State → Answered}
    (owned : ∀ s, P s → P (owner s).state) {behind : State → State} (after : ∀ s, P s → P (behind s)) (kind tag : Byte)
    {s : State} (h : P s) : P (s.goodFrameThen kind tag owner behind) := by
  cases accepted : s.accepts with
  | true =>
    have sent := reply _ kind tag (owner s.restartSilence).status (owner s.restartSilence).body (owned _ (restart _ h))
    rw [State.goodFrameThen_eq accepted, Answered.sendThen]
    split
    · exact after _ sent
    · exact sent
  | false =>
    rw [State.goodFrameThen_turnedAway accepted]
    split
    · exact restart _ h
    · exact h

/-- A good frame whose request is refused keeps what the restart of the host silence timer and the entry of a reply keep. -/
theorem refused_keeps {P : State → Prop} (restart : ∀ s, P s → P s.restartSilence)
    (reply : ∀ s kind tag status body, P s → P (s.queueReply kind tag status body)) (s : State) (kind tag : Byte)
    (status : Status) (h : P s) : P (s.goodFrame kind tag fun t => refuse t status) :=
  State.goodFrameThen_keeps restart reply (fun _ kept => kept) (fun _ kept => kept) kind tag h

/-- What a good frame and its owner keep, a host request keeps. -/
theorem request_keeps {P : State → Prop} (restart : ∀ s, P s → P s.restartSilence)
    (reply : ∀ s kind tag status body, P s → P (s.queueReply kind tag status body)) (pump : ∀ s, P s → P s.pump) {i : Instr}
    {owner : State → Answered} (request : ownerOf i = some owner) (owned : ∀ s, P s → P (owner s).state) {s : State}
    (h : P s) : Leads (exec i s) P := by
  obtain ⟨kind, tag, behind, which, run⟩ := exec_ownerOf request s
  rw [run]
  refine leads_next (State.goodFrameThen_keeps restart reply owned ?_ _ _ h)
  rcases which with rfl | rfl
  · exact fun _ kept => kept
  · exact pump

/-! ## The commands that wait -/

/-- No owner of a request touches the commands that wait. -/
theorem owner_pending {i : Instr} {owner : State → Answered} (owned : ownerOf i = some owner) (s : State) :
    (owner s).state.pending = s.pending := by
  cases i
  all_goals simp only [ownerOf, Option.some.injEq, reduceCtorEq] at owned
  all_goals subst owned
  case sheet mode order =>
    unfold sheetOwner State.sheetReply
    repeat' split
    all_goals simp
  case driveCarriage index command direction =>
    unfold driveCarriageOwner State.setGoing
    repeat' split
    all_goals simp
  case identify => rfl
  case readMatch => rfl
  case resetPart => rfl
  all_goals
    dsimp only [setNoticesOwner, setTimingOwner, defineOwner, removeOwner, assignOwner, unassignOwner, armOwner, startOwner,
      endMatchOwner, clearMatchOwner, holdOwner, resumeOwner, benchOwner, reinstateOwner, ejectOwner, signalOwner, setWindowOwner,
      setQuotaOwner, setLampOwner, setGateOwner, readElementOwner, readRobotOwner, adjustOwner, sheetStopOwner]
    repeat' split
    all_goals simp

theorem handOn_pending (s : State) (k : Slot) (number : BitVec 4) (q : RobotRequest) {owner : State → State}
    (owned : ∀ t, (owner t).pending = t.pending) : (s.handOn k number q owner).pending = s.pending := by
  unfold State.handOn
  split
  · rw [owned]; simp
  · rfl

/-- No command but HOST_FRAME, and so HOST_FRAME neither, touches the commands that wait. -/
theorem exec_pending (i : Instr) (s : State) (frame : isHostFrame i = false) :
    Leads (exec i s) (fun t => t.pending = s.pending) := by
  cases request : ownerOf i with
  | some owner =>
    exact request_keeps (P := fun t => t.pending = s.pending) (fun _ h => by simpa using h) (fun _ _ _ _ _ h => by simpa using h)
      (fun _ h => by simpa using h) request (fun t h => (owner_pending request t).trans h) rfl
  | none =>
    cases i
    case hostFrame => exact Bool.noConfusion frame
    all_goals simp only [ownerOf, reduceCtorEq] at request
    all_goals refine leads_next ?_
    case claim => exact handOn_pending s _ _ _ fun t => by simp
    case release => exact handOn_pending s _ _ _ fun t => by simp
    case cancel => exact handOn_pending s _ _ _ fun t => by simp
    case act => exact handOn_pending s _ _ _ fun t => by simp
    case ackSignal => exact handOn_pending s _ _ _ fun t => by simp
    case outboundFrameSent =>
      repeat' split
      all_goals simp [State.resetBy, State.afterReset]
    case robotSilent | drop =>
      dsimp only
      split
      all_goals simp
    case powerOnReset | lineReset => rfl
    case resetPartEffect => split <;> rfl
    all_goals
      repeat' split
      all_goals simp

/-- Settles O3: a HOST_FRAME hands its bytes on to the other commands, and each of those is one next state. -/
theorem commandsCompleteAndLeaveTheQueue : Obligations.CommandsCompleteAndLeaveTheQueue := fun i s =>
  exec_leads (P := fun t => t.pending = s.pending) (fun _ _ h => by simpa using h)
    (refused_keeps (fun _ h => by simpa using h) (fun _ _ _ _ _ h => by simpa using h))
    (fun j t frame h => by
      obtain ⟨u, run, kept⟩ := exec_pending j t frame
      exact ⟨u, run, kept.trans h⟩) i rfl

end Sys2Proof.Machine

/-! The state after a reset: every record of it, and that what the steps keep holds there. -/
namespace Sys2Proof.Machine

@[simp] theorem robot_reset (k : Slot) : State.reset.robot k = RobotRecord.vacant := Vector.getElem_replicate ..
@[simp] theorem elem_reset (i : Index) : State.reset.elem i = none := Vector.getElem_replicate ..
@[simp] theorem sched_reset (i : Index) : State.reset.sched i = Sched.clear := Vector.getElem_replicate ..
@[simp] theorem cell_reset (row : Fin 28) (column : Index) : State.reset.tu.cell row column = Cell.zero :=
  Vector.getElem_replicate ..
@[simp] theorem slotTaken_reset (k : Slot) : State.reset.slotTaken k = false := Vector.getElem_replicate ..

/-- Settles O4: each reset command is an equation of `State.afterReset`, and each field of that state is read off. -/
theorem resetsGiveTheResetState : Obligations.ResetsGiveTheResetState := by
  refine ⟨fun s => ⟨rfl, rfl, fun taken => ?_, fun open_ => ?_⟩, robot_reset, ?_⟩
  · show execResetPartEffect s = _
    rw [execResetPartEffect, if_pos taken]
    rfl
  · show execResetPartEffect s = _
    rw [execResetPartEffect, if_neg (by simp [open_])]
  · refine ⟨rfl, rfl, rfl, rfl, rfl, rfl, rfl, rfl, rfl, rfl, rfl, rfl, rfl, elem_reset, rfl, rfl, rfl, rfl, sched_reset,
      rfl, rfl, rfl, rfl, rfl, slotTaken_reset, rfl, rfl, rfl, rfl, rfl, rfl, rfl, rfl, rfl, rfl, rfl, rfl, rfl, rfl, rfl,
      cell_reset, rfl, rfl, rfl, rfl, rfl, rfl, rfl, rfl, rfl, rfl, rfl, rfl⟩

/-! ## What the steps keep -/

theorem holder_reset (i : Index) : State.reset.holder i = none := by simp [State.holder]
theorem waiters_reset (i : Index) : State.reset.waiters i = [] := by simp [State.waiters]
theorem heldBy_reset (k : Slot) : State.reset.heldBy k = [] := by simp [State.heldBy, holder_reset]

theorem sumOf_reset (side : Alliance) : State.reset.sumOf side = 0 := by
  have column : (indices.map fun _ => (0 : Int)).sum = 0 := by simp
  simp [State.sumOf, Cell.zero]

theorem tu_reset_sound : State.reset.tu.sound := by
  have cell (c : Fin 1344) : State.reset.tu.cells[c.val] = Cell.zero := Vector.getElem_replicate ..
  refine ⟨fun c => ?_, fun sends => ?_, rfl⟩
  · rw [cell]; decide
  · exact absurd sends (by decide)

theorem totals_reset_sound : State.reset.totalsSound := by
  refine ⟨?_, fun _ => ⟨fun _ _ => by simp [Cell.zero], fun i p goal => ?_⟩⟩
  · simp only [sumOf_reset]; rfl
  · simp [State.goalAt_eq] at goal

theorem ebc_reset_sound : State.reset.ebc.sound := by
  have clear (i : Index) : State.reset.ebc.sched[i.val] = Sched.clear := sched_reset i
  have empty : State.reset.ebc.queue = [] := rfl
  refine ⟨⟨?_, ?_, ?_, ?_⟩, fun marked => ?_, fun i => ⟨?_, ?_, ?_⟩, fun i => ⟨?_, ?_, ?_⟩⟩
  case refine_5 => exact absurd marked (by decide +kernel)
  all_goals simp [Ebc.ordinary, empty]

theorem claims_reset_sound : State.reset.claimsSound := by
  refine ⟨fun i => by simp, fun k => ⟨?_, fun i _ waits => ?_, fun i waits => ?_⟩⟩
  · simp [heldBy_reset]
  · simp [waiters_reset] at waits
  · simp [waiters_reset] at waits

theorem vacant_sound : RobotRecord.vacant.sound := by
  unfold RobotRecord.sound
  decide

theorem roster_reset_sound : State.reset.roster.sound := by
  have vacant (k : Slot) : State.reset.roster.robots[k.val] = RobotRecord.vacant := robot_reset k
  refine ⟨fun k => ?_, fun j k _ here => ?_, by decide⟩
  · rw [vacant]; exact vacant_sound
  · rw [vacant] at here; exact absurd rfl here

/-- Settles O60, block by block: nothing is queued, held, defined or assigned after a reset. -/
theorem resetIsSound : Obligations.ResetIsSound := by
  refine ⟨by unfold Hlp.sound; decide, tu_reset_sound, totals_reset_sound, by unfold Mch.holdsSound; decide, ebc_reset_sound,
    ⟨fun e queued => ?_, fun i mark => ?_⟩, claims_reset_sound, fun i k claims => ?_, roster_reset_sound,
    fun i => by simp, fun i j _ defined => ?_⟩
  · cases queued
  · simp [Sched.clear] at mark
  · simp [holder_reset, waiters_reset] at claims
  · simp at defined

end Sys2Proof.Machine

/-! The roster stays sound. -/
namespace Sys2Proof.Machine

/-! ## One record changed -/

/-- A robot record that may take another's place: it is sound, with the same team, and VACANT exactly when the other is. -/
def RobotRecord.Replaces (q r : RobotRecord) : Prop := q.sound ∧ q.team = r.team ∧ (q.state = .vacant ↔ r.state = .vacant)

theorem Roster.sound_set {r : Roster} (h : r.sound) {k : Slot} {q : RobotRecord} (fits : q.Replaces r.robots[k.val]) :
    Roster.sound { r with robots := r.robots.set k.val q } := by
  obtain ⟨records, teams, limits⟩ := h
  obtain ⟨sound, team, vacant⟩ := fits
  have same (j : Slot) : (r.robots.set k.val q)[j.val].team = r.robots[j.val].team
      ∧ ((r.robots.set k.val q)[j.val].state = .vacant ↔ r.robots[j.val].state = .vacant) := by
    rw [getElem_set_fin]
    split
    · next here => subst here; exact ⟨team, vacant⟩
    · exact ⟨rfl, Iff.rfl⟩
  refine ⟨fun j => ?_, fun i j apart here there => ?_, limits⟩
  · rw [getElem_set_fin]
    split
    · exact sound
    · exact records j
  · rw [(same i).1, (same j).1]
    exact teams i j apart (fun v => here ((same i).2.mpr v)) (fun v => there ((same j).2.mpr v))

theorem State.roster_setRobot {s : State} (h : s.roster.sound) {k : Slot} {q : RobotRecord} (fits : q.Replaces (s.robot k)) :
    (s.setRobot k q).roster.sound := Roster.sound_set h fits

theorem State.roster_modRobot {s : State} (h : s.roster.sound) {k : Slot} {f : RobotRecord → RobotRecord}
    (fits : (f (s.robot k)).Replaces (s.robot k)) : (s.modRobot k f).roster.sound := Roster.sound_set h fits

theorem State.robot_sound {s : State} (h : s.roster.sound) (k : Slot) : (s.robot k).sound := h.1 k

/-- A linked robot's record with other fields is sound when the fields that its state speaks of fit. -/
theorem RobotRecord.replaces_linked {q r : RobotRecord} (h : r.sound) (linked : r.state.isLinked = true)
    (team : q.team = r.team) (alliance : q.alliance = r.alliance) (robotId : q.robotId = r.robotId)
    (stays : q.state.isLinked = true) (bench : q.bench.isSome ↔ q.state = .benched)
    (range : q.bench.all (fun n => decide (1 ≤ n) && decide (n ≤ 1200)) = true) (unheard : q.unheard ≤ 255) :
    q.Replaces r := by
  obtain ⟨_, present, bound, _⟩ := h
  have filled : r.state ≠ .vacant := by intro v; rw [v] at linked; cases linked
  have fills : q.state ≠ .vacant := by intro v; rw [v] at stays; cases stays
  refine ⟨⟨fun v => absurd v fills, fun _ => ?_, fun _ => ?_, bench, range, unheard, fun _ => stays, fun _ => stays⟩, team, ?_⟩
  · rw [team, alliance]; exact present filled
  · rw [robotId]; exact bound linked
  · exact iff_of_false fills filled

/-- A record that keeps its state is sound when the other fields that its state speaks of fit. -/
theorem RobotRecord.replaces_same {q r : RobotRecord} (h : r.sound) (state : q.state = r.state)
    (vacant : r = RobotRecord.vacant → q = RobotRecord.vacant) (team : q.team = r.team) (alliance : q.alliance = r.alliance)
    (robotId : q.robotId = r.robotId) (bench : q.bench = r.bench) (unheard : q.unheard ≤ 255)
    (silent : q.silent = true → r.state.isLinked = true) (request : q.openRequest.isSome → r.state.isLinked = true) :
    q.Replaces r := by
  obtain ⟨empty, present, bound, benched, range, _⟩ := h
  refine ⟨⟨?_, ?_, ?_, ?_, ?_, unheard, ?_, ?_⟩, team, by rw [state]⟩
  · rw [state]; exact fun v => vacant (empty v)
  · rw [state, team, alliance]; exact present
  · rw [state, robotId]; exact bound
  · rw [state, bench]; exact benched
  · rw [bench]; exact range
  · rw [state]; exact silent
  · rw [state]; exact request

/-- A robot returned to ASSIGNED with its binding kept. -/
theorem RobotRecord.replaces_dropped {r : RobotRecord} (h : r.sound) (linked : r.state.isLinked = true) :
    RobotRecord.Replaces { r with openRequest := none, bench := none, state := .assigned, silent := false, unheard := 0 } r := by
  obtain ⟨_, present, _⟩ := h
  have filled : r.state ≠ .vacant := by intro v; rw [v] at linked; cases linked
  refine ⟨⟨?_, fun _ => present filled, ?_, ?_, rfl, Nat.zero_le _, ?_, ?_⟩, rfl, ?_⟩
  · exact fun v => RobotState.noConfusion v
  · exact fun b => Bool.noConfusion b
  · exact iff_of_false Bool.noConfusion RobotState.noConfusion
  · exact fun b => Bool.noConfusion b
  · exact fun b => Bool.noConfusion b
  · exact iff_of_false RobotState.noConfusion filled

theorem RobotRecord.assigned_sound {team : Half} (alliance : Alliance) (number : team ≠ 0) :
    RobotRecord.sound { RobotRecord.vacant with state := .assigned, team := some team, alliance := some alliance } := by
  refine ⟨RobotState.noConfusion, fun _ => ⟨rfl, ?_, rfl⟩, ?_, ?_, rfl, Nat.zero_le _, ?_, ?_⟩
  · exact fun zero => number (Option.some.inj zero)
  · exact fun b => Bool.noConfusion b
  · exact iff_of_false Bool.noConfusion RobotState.noConfusion
  · exact fun b => Bool.noConfusion b
  · exact fun b => Bool.noConfusion b

/-- A robot that joins becomes LINKED, bound to its robot id. -/
theorem RobotRecord.replaces_joined {r : RobotRecord} (h : r.sound) (filled : r.state ≠ .vacant) (away : r.state.isLinked = false)
    (robotId : Half) (kit : Byte) : 
    RobotRecord.Replaces { r with robotId := some robotId, kitRevision := some kit, state := .linked, unheard := 0, silent := false } r := by
  obtain ⟨_, present, _, bench, range, _, _, request⟩ := h
  have idle : r.state ≠ .benched := by intro b; rw [b] at away; cases away
  refine ⟨⟨RobotState.noConfusion, fun _ => present filled, fun _ => rfl, ?_, range, Nat.zero_le _, ?_, fun _ => rfl⟩, rfl, ?_⟩
  · exact iff_of_false (fun b => idle (bench.mp b)) RobotState.noConfusion
  · exact fun b => Bool.noConfusion b
  · exact iff_of_false RobotState.noConfusion filled

/-- The slot that carries a team number is not VACANT. -/
theorem State.slotOfTeam_some {s : State} {team : Half} {k : Slot} (found : s.slotOfTeam team = some k) :
    (s.robot k).state ≠ .vacant ∧ (s.robot k).team = some team := by
  have carries := List.find?_some found
  simpa using carries

/-! ## Answers and open requests -/

section
variable {s : State} (h : s.roster.sound)
include h

@[simp] theorem State.answerNow_keepsRoster (k : Slot) (code : Answer) (detail : Option Nat) :
    (s.answerNow k code detail).roster.sound := by
  obtain ⟨_, _, _, _, _, unheard, silent, request⟩ := s.robot_sound h k
  refine State.roster_modRobot h (RobotRecord.replaces_same (s.robot_sound h k) rfl ?_ rfl rfl rfl rfl unheard silent ?_)
  · intro v; rw [v]; rfl
  · simpa using request

@[simp] theorem State.answerLater_keepsRoster (k : Slot) (i : Index) (number : BitVec 4) (code : Answer) (detail : Option Nat) :
    (s.answerLater k i number code detail).roster.sound := by
  unfold State.answerLater
  repeat' split
  all_goals simp [h]

theorem State.openNew_keepsRoster {k : Slot} (linked : (s.robot k).state.isLinked = true) (number : BitVec 4)
    (q : RobotRequest) : (s.openNew k number q).roster.sound := by
  obtain ⟨_, _, _, _, _, unheard, silent, _⟩ := s.robot_sound h k
  refine State.roster_modRobot h (RobotRecord.replaces_same (s.robot_sound h k) rfl ?_ rfl rfl rfl rfl unheard silent ?_)
  · intro v; rw [v] at linked; cases linked
  · exact fun _ => linked

/-- A request handed on keeps the roster sound when its owner does. -/
theorem State.handOn_keepsRoster (k : Slot) (number : BitVec 4) (q : RobotRequest) {owner : State → State}
    (owned : ∀ t : State, t.roster.sound → (t.robot k).state.isLinked = true → (owner t).roster.sound) :
    (s.handOn k number q owner).roster.sound := by
  unfold State.handOn
  split
  · next handed =>
    simp only [Bool.and_eq_true] at handed
    refine owned _ (State.openNew_keepsRoster h handed.1.1 number q) ?_
    simpa [State.openNew, State.modRobot] using handed.1.1
  · exact h

/-! ## Discarded and orphaned motions -/

@[simp] theorem State.motionDiscarded_keepsRoster (byStopAll : Bool) (e : Entry) :
    (State.motionDiscarded byStopAll s e).roster.sound := by
  unfold State.motionDiscarded
  dsimp only
  repeat' split
  all_goals simp [h]

@[simp] theorem State.discard_keepsRoster (p : Entry → Bool) (byStopAll : Bool) : (s.discard p byStopAll).roster.sound := by
  unfold State.discard
  simp only [State.handOverUpTo_frame]
  exact List.foldlRecOn (motive := fun t : State => t.roster.sound) _ _ (by simpa using h) (fun t kept e _ => by simp [kept])

@[simp] theorem State.askStopAll_keepsRoster : s.askStopAll.roster.sound := by
  refine State.discard_keepsRoster ?_ _ _
  split <;> simp [h]

@[simp] theorem State.orphan_keepsRoster (i : Index) : (s.orphan i).roster.sound := by
  unfold State.orphan State.motionOrphaned
  repeat' split
  all_goals simp [h]

@[simp] theorem State.putAway_keepsRoster (i : Index) : (s.putAway i).roster.sound := by
  simp [State.putAway, h]

/-! ## Gates -/

@[simp] theorem State.gateDone_keepsRoster (i : Index) (target : GateTarget) (origin : Origin) (position : Option GatePosition) :
    (s.gateDone i target origin position).roster.sound := by
  unfold State.gateDone
  split <;> simp [h]

@[simp] theorem State.gateFails_keepsRoster (i : Index) (target : GateTarget) (origin : Origin) (position : Option GatePosition)
    (cause : GateFailure) : (s.gateFails i target origin position cause).roster.sound := by
  unfold State.gateFails
  split <;> simp [h]

@[simp] theorem State.gatePolled_keepsRoster (i : Index) (position : GatePosition) :
    (s.gatePolled i position).roster.sound := by
  unfold State.gatePolled
  repeat' split
  all_goals simp [h]

@[simp] theorem State.gateFailed_keepsRoster (i : Index) (op : BusOp) : (s.gateFailed i op).roster.sound := by
  unfold State.gateFailed
  repeat' split
  all_goals simp [h]

@[simp] theorem State.actOn_keepsRoster (k : Slot) (number : BitVec 4) (element : Byte) (target : GateTarget) :
    (s.actOn k number element target).roster.sound := by
  unfold State.actOn
  repeat' split
  all_goals simp [h, State.sendGate]

/-! ## Claims -/

@[simp] theorem State.grant_keepsRoster (k : Slot) (i : Index) : (s.grant k i).roster.sound := by
  refine State.answerNow_keepsRoster ?_ _ _ _
  split <;> simp [h]

@[simp] theorem State.claimRelation_keepsRoster (k : Slot) (i : Index) (r : ElementRecord) :
    (s.claimRelation k i r).roster.sound := by
  unfold State.claimRelation State.claimFree State.claimHeld
  repeat' split
  all_goals simp [h]

@[simp] theorem State.claimOn_keepsRoster (k : Slot) (element : Byte) : (s.claimOn k element).roster.sound := by
  unfold State.claimOn
  repeat' split
  all_goals simp [h]

@[simp] theorem State.releaseOn_keepsRoster (k : Slot) (element : Byte) : (s.releaseOn k element).roster.sound := by
  unfold State.releaseOn
  repeat' split
  all_goals simp [h]

@[simp] theorem State.cancelOn_keepsRoster (k : Slot) : (s.cancelOn k).roster.sound := by
  unfold State.cancelOn
  repeat' split
  all_goals simp [h]

/-! ## Signals, readiness and silence -/

/-- A change of the signal flags of a slot that is not VACANT. -/
theorem State.setSignals_keepsRoster {k : Slot} (filled : (s.robot k).state ≠ .vacant) (flags : Byte) :
    (s.modRobot k fun r => { r with signals := flags }).roster.sound := by
  obtain ⟨_, _, _, _, _, unheard, silent, request⟩ := s.robot_sound h k
  refine State.roster_modRobot h (RobotRecord.replaces_same (s.robot_sound h k) rfl ?_ rfl rfl rfl rfl unheard silent request)
  intro v; rw [v] at filled; exact absurd rfl filled

@[simp] theorem State.ackOn_keepsRoster {k : Slot} (linked : (s.robot k).state.isLinked = true) (mask : Byte) :
    (s.ackOn k mask).roster.sound := by
  have filled : (s.robot k).state ≠ .vacant := by intro v; rw [v] at linked; cases linked
  simp [State.ackOn, State.setSignals_keepsRoster h filled]

@[simp] theorem State.hear_keepsRoster (k : Slot) : (s.hear k).roster.sound := by
  obtain ⟨_, _, _, _, _, _, _, request⟩ := s.robot_sound h k
  have heard : (s.setRobot k { s.robot k with unheard := 0, silent := false }).roster.sound := by
    refine State.roster_setRobot h (RobotRecord.replaces_same (s.robot_sound h k) rfl ?_ rfl rfl rfl rfl ?_ ?_ request)
    · intro v; rw [v]; rfl
    · exact Nat.zero_le _
    · exact fun silent => Bool.noConfusion silent
  unfold State.hear
  dsimp only
  split
  · simpa using heard
  · exact heard

/-- A linked robot that is not benched before or after, in another linked state. -/
theorem State.relink_keepsRoster {k : Slot} {state : RobotState} (linked : (s.robot k).state.isLinked = true)
    (now : (s.robot k).state ≠ .benched) (stays : state.isLinked = true) (then_ : state ≠ .benched) :
    (s.setRobot k { s.robot k with state := state }).roster.sound := by
  obtain ⟨_, _, _, bench, range, unheard, _, _⟩ := s.robot_sound h k
  refine State.roster_setRobot h (RobotRecord.replaces_linked (s.robot_sound h k) linked rfl rfl rfl stays ?_ range unheard)
  exact iff_of_false (fun b => now (bench.mp b)) then_

@[simp] theorem State.readyFlag_keepsRoster (k : Slot) (ready : Bool) : (s.readyFlag k ready).roster.sound := by
  unfold State.readyFlag
  dsimp only
  split
  case h_1 state =>
    have moved {next : RobotState} (stays : next.isLinked = true) (b : next ≠ .benched) :
        (s.setRobot k { s.robot k with state := next }).roster.sound :=
      State.relink_keepsRoster h (by rw [state]; rfl) (by rw [state]; exact RobotState.noConfusion) stays b
    repeat' split
    · exact h
    · simpa using moved (next := .active) rfl RobotState.noConfusion
    · simpa using moved (next := .ready) rfl RobotState.noConfusion
  case h_2 state =>
    simpa using State.relink_keepsRoster h (state := .linked) (by rw [state]; rfl) (by rw [state]; exact RobotState.noConfusion) rfl
      RobotState.noConfusion
  all_goals exact h

/-- The records of the linked robots with one more cycle unheard. -/
theorem State.countUnheard_keepsRoster (k : Slot) (linked : (s.robot k).state.isLinked = true) :
    (s.modRobot k fun r => { r with unheard := min 255 (r.unheard + 1) }).roster.sound := by
  obtain ⟨_, _, _, _, _, _, silent, request⟩ := s.robot_sound h k
  refine State.roster_modRobot h
    (RobotRecord.replaces_same (s.robot_sound h k) rfl ?_ rfl rfl rfl rfl (Nat.min_le_left _ _) silent request)
  intro v; rw [v] at linked; cases linked

/-- Cycles unheard raised to the silence limit at most. -/
theorem State.raiseUnheard_keepsRoster {k : Slot} (linked : (s.robot k).state.isLinked = true) :
    (s.modRobot k fun r => { r with unheard := max r.unheard s.roster.silenceLimit }).roster.sound := by
  obtain ⟨_, _, _, _, _, unheard, silent, request⟩ := s.robot_sound h k
  have ⟨_, _, _, limit, _⟩ := h
  refine State.roster_modRobot h
    (RobotRecord.replaces_same (s.robot_sound h k) rfl ?_ rfl rfl rfl rfl (by simp only; omega) silent request)
  intro v; rw [v] at linked; cases linked

@[simp] theorem State.fallSilent_keepsRoster {k : Slot} (linked : (s.robot k).state.isLinked = true) :
    (s.fallSilent k).roster.sound := by
  obtain ⟨_, _, _, _, _, unheard, _, request⟩ := s.robot_sound h k
  have silenced : (s.modRobot k fun r => { r with silent := true }).roster.sound := by
    refine State.roster_modRobot h
      (RobotRecord.replaces_same (s.robot_sound h k) rfl ?_ rfl rfl rfl rfl unheard (fun _ => linked) request)
    intro v; rw [v] at linked; cases linked
  simpa [State.fallSilent] using silenced

@[simp] theorem State.dropRobot_keepsRoster {k : Slot} (linked : (s.robot k).state.isLinked = true) :
    (s.dropRobot k).roster.sound := by
  unfold State.dropRobot
  simp only [State.raiseRobot_frame]
  have dropped {t : State} (same : t.roster = s.roster) : (t.modRobot k fun r =>
      { r with openRequest := none, bench := none, state := .assigned, silent := false, unheard := 0 }).roster.sound := by
    have here : t.robot k = s.robot k := State.robot_congr same k
    refine State.roster_modRobot (same ▸ h) ?_
    rw [here]
    exact RobotRecord.replaces_dropped (s.robot_sound h k) linked
  split
  · exact dropped (by simp)
  · exact dropped rfl

end

/-- What each step of a walk over the slots keeps, the walk keeps. -/
theorem State.eachSlot_keeps {P : State → Prop} {f : Slot → State → State} (each : ∀ k t, P t → P (f k t)) {s : State} (h : P s) :
    P (s.eachSlot f) :=
  List.foldlRecOn (motive := P) _ _ h fun t kept k _ => each k t kept

/-- What each step of a walk over the indices keeps, the walk keeps. -/
theorem State.eachIndex_keeps {P : State → Prop} {f : Index → State → State} (each : ∀ i t, P t → P (f i t)) {s : State} (h : P s) :
    P (s.eachIndex f) :=
  List.foldlRecOn (motive := P) _ _ h fun t kept i _ => each i t kept

section
variable {s : State} (h : s.roster.sound)
include h

@[simp] theorem State.rosterCycle_keepsRoster : s.rosterCycle.roster.sound := by
  refine State.eachSlot_keeps (P := fun t => t.roster.sound) (fun k t kept => ?_) ?_
  · have quiet : (t.checkSilence k).roster.sound := by
      unfold State.checkSilence
      dsimp only
      split
      · next falls => exact State.fallSilent_keepsRoster kept falls.1
      · exact kept
    unfold State.checkDrop
    dsimp only
    split
    · next drops => exact State.dropRobot_keepsRoster quiet drops.1
    · exact quiet
  · refine State.eachSlot_keeps (P := fun t => t.roster.sound) (fun k t kept => ?_) h
    split
    · next linked => exact State.countUnheard_keepsRoster kept k linked
    · exact kept

/-! ## Assignment and joining -/

/-- A team number that no other slot carries is assigned to a VACANT slot. -/
theorem State.assign_keepsRoster {k : Slot} {team : Half} (alliance : Alliance) (number : team ≠ 0)
    (free : ∀ j, j ≠ k → (s.robot j).state ≠ .vacant → (s.robot j).team ≠ some team) :
    (s.setRobot k { RobotRecord.vacant with state := .assigned, team := some team, alliance := some alliance }).roster.sound := by
  obtain ⟨records, teams, limits⟩ := h
  have other (j : Slot) (q : RobotRecord) (apart : j ≠ k) : (s.setRobot k q).robot j = s.robot j := by
    rw [State.robot_setRobot, if_neg apart]
  refine ⟨fun j => ?_, fun i j apart here there => ?_, limits⟩
  · show ((s.setRobot k _).robot j).sound
    rw [State.robot_setRobot]
    split
    · exact RobotRecord.assigned_sound alliance number
    · exact records j
  · change ((s.setRobot k _).robot i).state ≠ .vacant at here
    change ((s.setRobot k _).robot j).state ≠ .vacant at there
    show ((s.setRobot k _).robot i).team ≠ ((s.setRobot k _).robot j).team
    by_cases first : i = k
    · subst first
      rw [other j _ apart.symm] at there ⊢
      rw [State.robot_setRobot_self]
      exact (free j apart.symm there).symm
    · by_cases second : j = k
      · subst second
        rw [other i _ apart] at here ⊢
        rw [State.robot_setRobot_self]
        exact free i apart here
      · rw [other i _ first] at here ⊢
        rw [other j _ second] at there ⊢
        exact teams i j apart here there

theorem State.unassign_keepsRoster (k : Slot) : (s.setRobot k RobotRecord.vacant).roster.sound := by
  obtain ⟨records, teams, limits⟩ := h
  refine ⟨fun j => ?_, fun i j apart here there => ?_, limits⟩
  · show ((s.setRobot k _).robot j).sound
    rw [State.robot_setRobot]
    split
    · exact vacant_sound
    · exact records j
  · change ((s.setRobot k _).robot i).state ≠ .vacant at here
    change ((s.setRobot k _).robot j).state ≠ .vacant at there
    show ((s.setRobot k _).robot i).team ≠ ((s.setRobot k _).robot j).team
    rw [State.robot_setRobot] at here there ⊢
    rw [State.robot_setRobot]
    split at here
    · exact absurd rfl here
    · split at there
      · exact absurd rfl there
      · next first second => rw [if_neg first, if_neg second]; exact teams i j apart here there

@[simp] theorem State.joinOn_keepsRoster (team robotId : Half) (kit : Byte) : (s.joinOn team robotId kit).1.roster.sound := by
  unfold State.joinOn
  split
  · exact h
  · next k found =>
    have filled := (State.slotOfTeam_some found).1
    have record := s.robot_sound h k
    dsimp only
    split
    · next bound binding =>
      split
      · next same =>
        subst same
        split
        · next linked =>
          obtain ⟨_, _, _, bench, range, unheard, _, _⟩ := record
          simpa using State.roster_setRobot h (q := { s.robot k with kitRevision := some kit, openRequest := none })
            (RobotRecord.replaces_linked (s.robot_sound h k) linked rfl rfl rfl linked bench range unheard)
        · next away =>
          have joined := State.roster_setRobot h (RobotRecord.replaces_joined record filled (by simpa using away) bound kit)
          rw [← binding] at joined
          simpa using joined
      · simpa using h
    · next binding =>
      have away : (s.robot k).state.isLinked = false := by
        cases linked : (s.robot k).state.isLinked with
        | false => rfl
        | true => exact absurd (record.2.2.1 linked) (by simp [binding])
      simpa using State.roster_setRobot h (RobotRecord.replaces_joined record filled away robotId kit)

/-! ## Bench, reinstate, eject and match events -/

theorem State.benchRobot_keepsRoster {k : Slot} (linked : (s.robot k).state.isLinked = true) {tenths : Nat} (least : 1 ≤ tenths)
    (most : tenths ≤ 1200) : (s.benchRobot k tenths).roster.sound := by
  obtain ⟨_, _, _, _, _, unheard, _, _⟩ := s.robot_sound h k
  have benched : (s.modRobot k fun r => { r with state := .benched, bench := some tenths }).roster.sound :=
    State.roster_modRobot h (RobotRecord.replaces_linked (s.robot_sound h k) linked rfl rfl rfl rfl (by simp)
      (by simp [least, most]) unheard)
  simpa [State.benchRobot] using benched

theorem State.unbench_keepsRoster {k : Slot} (linked : (s.robot k).state.isLinked = true) (notice : RobotNotice) :
    (s.unbench k notice).roster.sound := by
  obtain ⟨_, _, _, _, _, unheard, _, _⟩ := s.robot_sound h k
  have active : (s.modRobot k fun r => { r with state := .active, bench := none }).roster.sound :=
    State.roster_modRobot h (RobotRecord.replaces_linked (s.robot_sound h k) linked rfl rfl rfl rfl (by simp) rfl unheard)
  simpa [State.unbench] using active

theorem State.ejectRobot_keepsRoster {k : Slot} (linked : (s.robot k).state.isLinked = true) (former : RobotState) :
    (s.ejectRobot k former).roster.sound := by
  obtain ⟨_, _, _, _, _, unheard, _, _⟩ := s.robot_sound h k
  have ejected : (s.modRobot k fun r => { r with state := .ejected, bench := none, ejectedMark := true }).roster.sound :=
    State.roster_modRobot h (RobotRecord.replaces_linked (s.robot_sound h k) linked rfl rfl rfl rfl (by simp) rfl unheard)
  simpa [State.ejectRobot] using ejected

@[simp] theorem State.benchTenth_keepsRoster (k : Slot) : (s.benchTenth k).roster.sound := by
  unfold State.benchTenth
  split
  · next n state remaining =>
    have linked : (s.robot k).state.isLinked = true := by rw [state]; rfl
    split
    · exact State.unbench_keepsRoster h linked _
    · next more =>
      obtain ⟨_, _, _, _, range, unheard, _, _⟩ := s.robot_sound h k
      refine State.roster_modRobot h (RobotRecord.replaces_linked (s.robot_sound h k) linked rfl rfl rfl linked ?_ ?_ unheard)
      · simp [state]
      · rw [remaining] at range
        simp at range ⊢
        omega
  · exact h

@[simp] theorem State.activateReady_keepsRoster : s.activateReady.roster.sound := by
  refine State.eachSlot_keeps (P := fun t => t.roster.sound) (fun k t kept => ?_) h
  split
  · next ready =>
    exact State.relink_keepsRoster kept (by rw [ready]; rfl) (by rw [ready]; exact RobotState.noConfusion) rfl
      RobotState.noConfusion
  · exact kept

@[simp] theorem State.robotsToReady_keepsRoster : s.robotsToReady.roster.sound := by
  refine State.eachSlot_keeps (P := fun t => t.roster.sound) (fun k t kept => ?_) h
  split
  · next playing =>
    obtain ⟨_, _, _, _, _, unheard, _, _⟩ := t.robot_sound kept k
    have linked : (t.robot k).state.isLinked = true := by rcases playing with state | state <;> rw [state] <;> rfl
    exact State.roster_modRobot kept
      (RobotRecord.replaces_linked (t.robot_sound kept k) linked rfl rfl rfl rfl (by simp) rfl unheard)
  · exact kept

@[simp] theorem State.clearEjections_keepsRoster : s.clearEjections.roster.sound := by
  refine State.eachSlot_keeps (P := fun t => t.roster.sound) (fun k t kept => ?_) h
  obtain ⟨_, _, _, bench, range, unheard, silent, request⟩ := t.robot_sound kept k
  refine State.roster_modRobot kept ?_
  by_cases ejected : (t.robot k).state = .ejected
  · refine RobotRecord.replaces_linked (t.robot_sound kept k) (by rw [ejected]; rfl) rfl rfl rfl ?_ ?_ range unheard
    · simp [ejected, RobotState.isLinked]
    · simpa [ejected] using bench
  · refine RobotRecord.replaces_same (t.robot_sound kept k) ?_ ?_ rfl rfl rfl rfl unheard silent request
    · simp [ejected]
    · intro v; simp [v, RobotRecord.vacant]

/-! ## Holds and ends of transactions -/

@[simp] theorem State.pushHold_keepsRoster (cause : HoldCause) (detail : Option Byte) : (s.pushHold cause detail).roster.sound := by
  refine State.askStopAll_keepsRoster ?_
  simp [h]

@[simp] theorem State.requestPush_keepsRoster (q : PushRequest) : (s.requestPush q).roster.sound := by
  unfold State.requestPush
  repeat' split
  all_goals simp [h]

@[simp] theorem State.pushPending_keepsRoster : s.pushPending.roster.sound := by
  unfold State.pushPending
  split <;> simp -implicitDefEqProofs [h]

@[simp] theorem State.holdForFault_keepsRoster (i : Index) (asks : Bool) : (s.holdForFault i asks).roster.sound := by
  unfold State.holdForFault
  split <;> simp -implicitDefEqProofs [h]

@[simp] theorem State.handReading_keepsRoster (i : Index) (role : PollRole) (reading : Reading) (delta : Nat) (restarted : Bool) :
    (s.handReading i role reading delta restarted).roster.sound := by
  unfold State.handReading
  split <;> simp -implicitDefEqProofs [h]

@[simp] theorem State.pollCompleted_keepsRoster (i : Index) (role : PollRole) (epoch : Byte) (reading : Reading) :
    (s.pollCompleted i role epoch reading).roster.sound := by
  unfold State.pollCompleted
  split <;> simp -implicitDefEqProofs [h]

@[simp] theorem State.handFailure_keepsRoster (i : Index) (k : Kind) (op : BusOp) : (s.handFailure i k op).roster.sound := by
  unfold State.handFailure
  split <;> simp -implicitDefEqProofs [h]

@[simp] theorem State.transactionFailed_keepsRoster (i : Index) (op : BusOp) : (s.transactionFailed i op).roster.sound := by
  unfold State.transactionFailed
  repeat' split
  all_goals simp -implicitDefEqProofs [h]

@[simp] theorem State.endWith_keepsRoster (i : Index) (op : BusOp) (r : BusResult) : (s.endWith i op r).roster.sound := by
  unfold State.endWith
  repeat' split
  all_goals simp -implicitDefEqProofs [h]

@[simp] theorem State.replied_keepsRoster (f : InFlight) (frame : List Byte) : (s.replied f frame).roster.sound := by
  unfold State.replied
  repeat' split
  all_goals simp -implicitDefEqProofs [h]

@[simp] theorem State.timedOut_keepsRoster (f : InFlight) : (s.timedOut f).roster.sound := by
  unfold State.timedOut
  repeat' split
  all_goals simp -implicitDefEqProofs [h]

/-! ## Elements and the match clock -/

@[simp] theorem State.define_keepsRoster (i : Index) (r : ElementRecord) : (s.define i r).roster.sound := by
  unfold State.define
  dsimp only
  split <;> simp -implicitDefEqProofs [h]

@[simp] theorem State.undefine_keepsRoster (i : Index) : (s.undefine i).roster.sound := by
  simp [State.undefine, h]

@[simp] theorem State.startMatch_keepsRoster : s.startMatch.roster.sound := by
  simp [State.startMatch, h]

@[simp] theorem State.enterEnded_keepsRoster (cause : PhaseCause) : (s.enterEnded cause).roster.sound := by
  simp [State.enterEnded, h]

@[simp] theorem State.reportClear_keepsRoster : s.reportClear.roster.sound := by
  simp [State.reportClear, h]

@[simp] theorem State.clearMatch_keepsRoster : s.clearMatch.roster.sound := by
  simp [State.clearMatch, h]

@[simp] theorem State.runOut_keepsRoster : s.runOut.roster.sound := by
  unfold State.runOut
  split <;> simp -implicitDefEqProofs [h]

@[simp] theorem State.handTenth_keepsRoster : s.handTenth.roster.sound := by
  unfold State.handTenth
  simp only [State.eachIndex_roster, State.stationTenth_frame, implies_true]
  exact State.eachSlot_keeps (P := fun t => t.roster.sound) (fun k t kept => by simp [kept]) (by simpa using h)

@[simp] theorem State.matchTenth_keepsRoster : s.matchTenth.roster.sound := by
  unfold State.matchTenth
  dsimp only
  split <;> simp -implicitDefEqProofs [h]

omit h in
/-- A stored value or a present field that lies in the same range. -/
theorem byteOr_range {least most stored : Nat} {field : Option Byte} (given : byteIn least most field = true)
    (low : least ≤ stored) (high : stored ≤ most) : least ≤ byteOr stored field ∧ byteOr stored field ≤ most := by
  cases field with
  | none => exact ⟨low, high⟩
  | some b => simpa [byteIn, byteOr] using given

/-- SET-TIMING stores limits that are in their ranges and in order (Table 8-2, R154). -/
theorem State.setTimes_keepsRoster {t : TimingFields} (range : timingInRange t s.roster = true) :
    (s.setTimes t).roster.sound := by
  obtain ⟨records, teams, silenceLeast, silenceMost, dropLeast, dropMost, _⟩ := h
  simp only [timingInRange, Bool.and_eq_true, decide_eq_true_eq] at range
  obtain ⟨⟨⟨⟨⟨⟨⟨⟨_, silence⟩, drop⟩, _⟩, _⟩, _⟩, _⟩, _⟩, order⟩ := range
  obtain ⟨silenceLow, silenceHigh⟩ := byteOr_range silence silenceLeast silenceMost
  obtain ⟨dropLow, dropHigh⟩ := byteOr_range drop dropLeast dropMost
  exact ⟨records, teams, silenceLow, silenceHigh, dropLow, dropHigh, order⟩

/-! ## The uplink -/

@[simp] theorem State.passRequest_keepsRoster (k : Slot) (number : BitVec 4) (q : RobotRequest) :
    (s.passRequest k number q).roster.sound := by
  refine State.handOn_keepsRoster h k number q fun t kept linked => ?_
  split <;> simp [kept, linked]

@[simp] theorem State.deliver_keepsRoster (window : Window) (frame : List Byte) : (s.deliver window frame).roster.sound := by
  unfold State.deliver
  split
  · unfold State.takeSlotFrame
    dsimp only
    repeat' split
    all_goals simp -implicitDefEqProofs (maxDischargeDepth := 4) [h]
  · unfold State.takeJoin
    dsimp only
    split <;> simp -implicitDefEqProofs [h]
  · exact h

end

/-! ## Every step -/

/-- A vacating changes no robot record. -/
@[simp] theorem State.robot_vacate (s : State) (k j : Slot) (cause : VacateCause) : (s.vacate k cause).robot j = s.robot j :=
  State.robot_congr (by simp) j

/-- What a request that names a slot in a match has passed (R56, R58, R59). -/
theorem slotInMatch_inl {s : State} {slot : Byte} {valid : Bool} {k : Slot} (named : slotInMatch s slot valid = .inl k) :
    s.mch.phase.inMatch = true ∧ slotOf slot = some k ∧ valid = true ∧ (s.robot k).state ≠ .vacant := by
  unfold slotInMatch at named
  cases playing : s.mch.phase.inMatch with
  | false => simp [playing] at named
  | true =>
    cases found : slotOf slot with
    | none => simp [playing, found] at named
    | some j =>
      cases fits : valid with
      | false => simp [playing, found, fits] at named
      | true =>
        by_cases filled : (s.robot j).state = .vacant
        · simp [playing, found, fits, filled] at named
        · simp only [playing, found, fits, filled, Bool.not_true, Bool.false_eq_true, if_false, Sum.inl.injEq] at named
          subst named
          exact ⟨rfl, rfl, rfl, filled⟩

section
variable {s : State} (h : s.roster.sound)
include h

theorem setTimingOwner_keepsRoster (fields : TimingFields) : (setTimingOwner fields s).state.roster.sound := by
  unfold setTimingOwner
  split
  · exact h
  · split
    · next range => exact State.setTimes_keepsRoster h range
    · exact h

theorem assignOwner_keepsRoster (slot : Byte) (team : Half) (alliance : Byte) :
    (assignOwner slot team alliance s).state.roster.sound := by
  unfold assignOwner
  split
  · exact h
  · split
    · exact h
    · split
      · split
        · exact h
        · next number =>
          split
          · exact h
          · next free =>
            split
            · exact h
            · refine State.assign_keepsRoster h _ number fun j apart filled same => free ?_
              rw [List.any_eq_true]
              exact ⟨j, List.mem_finRange j, by simp [apart, filled, same]⟩
      · exact h

theorem unassignOwner_keepsRoster (slot : Byte) : (unassignOwner slot s).state.roster.sound := by
  unfold unassignOwner
  split
  · exact h
  · split
    · exact h
    · split
      · exact h
      · exact State.unassign_keepsRoster h _

theorem benchOwner_keepsRoster (slot seconds : Byte) : (benchOwner slot seconds s).state.roster.sound := by
  unfold benchOwner
  split
  · exact h
  · next k named =>
    obtain ⟨_, _, range, _⟩ := slotInMatch_inl named
    simp only [Bool.and_eq_true, decide_eq_true_eq] at range
    split
    · next state =>
      exact State.benchRobot_keepsRoster (by simpa using h) (by rw [State.robot_vacate, state]; rfl) (by omega) (by omega)
    · next state => exact State.benchRobot_keepsRoster h (by rw [state]; rfl) (by omega) (by omega)
    all_goals exact h

theorem reinstateOwner_keepsRoster (slot : Byte) : (reinstateOwner slot s).state.roster.sound := by
  unfold reinstateOwner
  split
  · exact h
  · split
    · next state => exact State.unbench_keepsRoster h (by rw [state]; rfl) _
    · exact h

theorem ejectOwner_keepsRoster (slot : Byte) : (ejectOwner slot s).state.roster.sound := by
  unfold ejectOwner
  split
  · exact h
  · split
    · next state => exact State.ejectRobot_keepsRoster (by simpa using h) (by rw [State.robot_vacate, state]; rfl) _
    · next state => exact State.ejectRobot_keepsRoster h (by rw [state]; rfl) _
    all_goals exact h

theorem signalOwner_keepsRoster (slot setMask clearMask : Byte) : (signalOwner slot setMask clearMask s).state.roster.sound := by
  unfold signalOwner
  split
  · exact h
  · split
    · exact h
    · next filled => exact State.setSignals_keepsRoster h filled _

end

theorem owner_keepsRoster {i : Instr} {owner : State → Answered} (request : ownerOf i = some owner) {s : State}
    (h : s.roster.sound) : (owner s).state.roster.sound := by
  cases i
  all_goals simp only [ownerOf, Option.some.injEq, reduceCtorEq] at request
  all_goals subst request
  case setTiming => exact setTimingOwner_keepsRoster h _
  case assignRobot => exact assignOwner_keepsRoster h _ _ _
  case unassignRobot => exact unassignOwner_keepsRoster h _
  case bench => exact benchOwner_keepsRoster h _ _
  case reinstate => exact reinstateOwner_keepsRoster h _
  case eject => exact ejectOwner_keepsRoster h _
  case signal => exact signalOwner_keepsRoster h _ _ _
  case identify | readMatch | resetPart => exact h
  case sheet mode order =>
    unfold sheetOwner State.sheetReply
    repeat' split
    all_goals simp [h]
  case driveCarriage index command direction =>
    unfold driveCarriageOwner State.setGoing
    repeat' split
    all_goals simp [h]
  all_goals
    dsimp only [setNoticesOwner, defineOwner, removeOwner, armOwner, startOwner, endMatchOwner, clearMatchOwner, holdOwner,
      resumeOwner, setWindowOwner, setQuotaOwner, setLampOwner, setGateOwner, readElementOwner, readRobotOwner, adjustOwner,
      sheetStopOwner]
    repeat' split
    all_goals simp -implicitDefEqProofs [h]

theorem exec_keepsRoster (i : Instr) (s : State) (frame : isHostFrame i = false) (h : s.roster.sound) :
    Leads (exec i s) (fun t => t.roster.sound) := by
  cases request : ownerOf i with
  | some owner =>
    exact request_keeps (P := fun t => t.roster.sound) (fun _ k => by simpa using k) (fun _ _ _ _ _ k => by simpa using k)
      (fun _ k => by simpa using k) request (fun _ k => owner_keepsRoster request k) h
  | none =>
    cases i
    case hostFrame => exact Bool.noConfusion frame
    all_goals simp only [ownerOf, reduceCtorEq] at request
    all_goals refine leads_next ?_
    case powerOnReset => exact roster_reset_sound
    case lineReset => exact roster_reset_sound
    case resetPartEffect =>
      split
      · exact roster_reset_sound
      · exact h
    case outboundFrameSent =>
      repeat' split
      · exact roster_reset_sound
      · simpa using h
      · exact h
    case claim => exact State.handOn_keepsRoster h _ _ _ fun _ kept _ => by simp [kept]
    case release => exact State.handOn_keepsRoster h _ _ _ fun _ kept _ => by simp [kept]
    case cancel => exact State.handOn_keepsRoster h _ _ _ fun _ kept _ => by simp [kept]
    case act => exact State.handOn_keepsRoster h _ _ _ fun _ kept _ => by simp [kept]
    case ackSignal => exact State.handOn_keepsRoster h _ _ _ fun _ kept linked => by simp [kept, linked]
    case cycleStart => simp -implicitDefEqProofs [h]
    case robotSilent k =>
      dsimp only
      split
      · next falls =>
        obtain ⟨linked, _, _⟩ := falls
        refine State.fallSilent_keepsRoster (State.raiseUnheard_keepsRoster h linked) ?_
        simpa [State.modRobot] using linked
      · exact h
    case drop k =>
      dsimp only
      split
      · next drops => exact State.dropRobot_keepsRoster h drops.1
      · exact h
    case benchEnded k =>
      split
      · next n state _ =>
        split
        · exact State.unbench_keepsRoster h (by rw [state]; rfl) _
        · exact h
      · exact h
    all_goals
      repeat' split
      all_goals simp -implicitDefEqProofs [h]

/-- Settles O58: every command and the passing of time keep the roster sound. -/
theorem stepKeepsTheRoster : Obligations.StepKeepsTheRoster := fun _ _ h stepped =>
  step_keeps (P := fun t => t.roster.sound) (fun _ _ k => by simpa using k)
    (refused_keeps (fun _ k => by simpa using k) (fun _ _ _ _ _ k => by simpa using k)) exec_keepsRoster (fun _ _ k => k)
    (fun _ k => k) h stepped

end Sys2Proof.Machine

/-! What a handler does with an event of its element, step by step: the element's record, the notices, the asks for transactions and
the tally. -/
namespace Sys2Proof.Machine

/-! ## Asks and the bus -/

/-- What an ask of a handler does on the bus follows from the bus and the wall clock alone (R96 to R98). -/
theorem State.ebc_asksAll_one_congr {s t : State} (bus : t.ebc = s.ebc) (clock : t.now = s.now) (q : BusAsk) :
    (t.asksAll [q]).ebc = (s.asksAll [q]).ebc := by
  have queue (p : Entry → Bool) : t.queued p = s.queued p := by rw [State.queued, State.queued, bus]
  cases q with
  | lamp i on => exact State.ebc_askLamp_congr bus clock i on
  | speed i speed =>
    show (t.askCarriage i speed).ebc = (s.askCarriage i speed).ebc
    unfold State.askCarriage
    rw [queue, bus]
    split
    · simp [State.mapQueue, bus]
    · split
      · simp [State.modSched, State.sched_congr bus, bus]
      · simp [State.enter, bus, clock]
  | closing i =>
    show (t.askClosing i).ebc = (s.askClosing i).ebc
    unfold State.askClosing
    rw [queue, bus]
    split
    · simp [State.mapQueue, bus]
    · split
      · simp [State.modSched, State.sched_congr bus, bus]
      · simp [State.enter, bus, clock]

theorem State.asksAll_append (s : State) (first later : List BusAsk) :
    s.asksAll (first ++ later) = (s.asksAll first).asksAll later := List.foldl_append ..

theorem State.asksAll_cons (s : State) (q : BusAsk) (later : List BusAsk) :
    s.asksAll (q :: later) = (s.asksAll [q]).asksAll later := rfl

@[simp] theorem State.asksAll_nil (s : State) : s.asksAll [] = s := rfl

@[simp] theorem State.asksAll_now (s : State) (asks : List BusAsk) : (s.asksAll asks).now = s.now :=
  State.asksAll_blocks asks s .now (by decide)

/-- What asks of handlers do on the bus follows from the bus and the wall clock alone (R96 to R98). -/
theorem State.ebc_asksAll_congr (asks : List BusAsk) : ∀ {s t : State}, t.ebc = s.ebc → t.now = s.now →
    (t.asksAll asks).ebc = (s.asksAll asks).ebc := by
  induction asks with
  | nil => intro s t bus _; exact bus
  | cons q rest ih =>
    intro s t bus clock
    rw [State.asksAll_cons, State.asksAll_cons s]
    exact ih (State.ebc_asksAll_one_congr bus clock q) (by simpa using clock)

/-! ## Credits -/

theorem Totals.add_add (t : Totals) (side : Alliance) (first later : Int) :
    (t.add side first).add side later = t.add side (first + later) := by
  cases side <;> simp [Totals.add, Int.add_assoc]

/-- No credit. -/
@[simp] theorem State.creditedTu_nil (s : State) (row : Option (Fin 28)) (i : Index) : s.creditedTu row i [] = s.tu := by
  have zero (t : Totals) (side : Alliance) : t.add side 0 = t := by cases side <;> simp [Totals.add]
  cases row with
  | none => rfl
  | some ρ =>
    simp only [State.creditedTu, List.filter_nil, List.foldl_nil, Int.sub_self, zero, Tu.cell, Vector.set_getElem_self]
    cases s.rowAlliance ρ <;> rfl

/-- Credits to one cell in two runs are the credits of both (R121). -/
theorem State.creditedTu_append (s : State) (row : Option (Fin 28)) (i : Index) (first later : List Nat) :
    (s.setTu (s.creditedTu row i first)).creditedTu row i later = s.creditedTu row i (first ++ later) := by
  cases row with
  | none => rfl
  | some ρ =>
    have owner (u : Tu) : (s.setTu u).rowAlliance ρ = s.rowAlliance ρ := rfl
    simp only [State.creditedTu, List.filter_append, List.foldl_append, State.setTu_tu, owner, Tu.cell, Vector.getElem_set_self,
      Vector.set_set]
    cases s.rowAlliance ρ with
    | none => rfl
    | some side =>
      simp only [Totals.add_add, Tu.mk.injEq, true_and, and_true]
      congr 1
      omega

/-- Who owns a row follows from the roster alone (R172). -/
theorem State.rowAlliance_congr {s t : State} (same : t.roster = s.roster) (row : Fin 28) :
    t.rowAlliance row = s.rowAlliance row := by
  simp only [State.rowAlliance, State.robot, same]
  rfl

/-- One credit of a handler, as a run of credits. -/
theorem State.credit_eq (s : State) (ρ : Fin 28) (i : Index) (points : Nat) :
    (s.credit ρ i points).tu = s.creditedTu (some ρ) i [points] := by
  unfold State.credit
  split
  · next zero => subst zero; exact (State.creditedTu_nil s (some ρ) i).symm
  · next some_ => simp [State.creditedTu, some_, State.addPoints] <;> rfl

/-! ## One event of one element -/

/-- `t` is `s` after a handler has dealt with an event of an element: the element's record is `r`, these notices were raised and
these transactions asked for, the tally unit is `tu`, and every other block is the same. -/
structure State.Handled (s t : State) (i : Index) (r : ElementRecord) (notices : List Notice) (asks : List BusAsk) (tu : Tu) :
    Prop where
  elems : t.elems = s.elems.set i.val (some r)
  hlp : t.hlp = s.hlp.raiseAll notices
  ebc : t.ebc = (s.asksAll asks).ebc
  tu : t.tu = tu
  rcc : t.rcc = s.rcc
  roster : t.roster = s.roster
  mch : t.mch = s.mch
  now : t.now = s.now
  pending : t.pending = s.pending

namespace State.Handled
variable {s t : State} {i : Index} {r : ElementRecord} {notices : List Notice} {asks : List BusAsk} {tu : Tu}

theorem refl (stands : s.elem i = some r) : s.Handled s i r [] [] s.tu := by
  refine ⟨?_, rfl, rfl, rfl, rfl, rfl, rfl, rfl, rfl⟩
  rw [← stands]
  exact (Vector.set_getElem_self _).symm

variable (h : s.Handled t i r notices asks tu)
include h

/-- The same event, described in other words. -/
theorem congr {r' : ElementRecord} {notices' : List Notice} {asks' : List BusAsk} {tu' : Tu} (record : r = r')
    (raised : notices = notices') (asked : asks = asks') (tally : tu = tu') : s.Handled t i r' notices' asks' tu' := by
  subst record raised asked tally
  exact h

/-- The records after the event. -/
theorem elem (j : Index) : t.elem j = if j = i then some r else s.elem j := by
  rw [State.elem, h.elems]
  exact getElem_set_fin s.elems i j (some r)

theorem elem_self : t.elem i = some r := (h.elem i).trans (if_pos rfl)

theorem elemsBut : s.elemsBut t i := fun j other => (h.elem j).trans (if_neg other)

theorem robot (k : Slot) : t.robot k = s.robot k := State.robot_congr h.roster k

/-- Of the blocks only the outbound queue, the field table, the bus and the tally may differ. -/
theorem onlyChanges : s.onlyChanges t [.hlp, .elems, .ebc, .tu] := by
  intro b other
  cases b
  case rcc => exact h.rcc
  case roster => exact h.roster
  case mch => exact h.mch
  case now => exact h.now
  case pending => exact h.pending
  all_goals exact absurd (by decide) other

/-- A handler's next step that changes nothing but the element's record. -/
theorem setElem (q : ElementRecord) : s.Handled (t.setElem i (some q)) i q notices asks tu := by
  refine ⟨?_, h.hlp, h.ebc, h.tu, h.rcc, h.roster, h.mch, h.now, h.pending⟩
  rw [State.setElem_elems, h.elems]
  exact Vector.set_set ..

theorem setPart (part : KindPart) : s.Handled (t.setPart i part) i (r.setPart part) notices asks tu := by
  rw [State.setPart_of_defined h.elem_self]
  exact h.setElem _

theorem setGoal (p : GoalPart) : s.Handled (t.setGoal i p) i (r.setPart (.goal p)) notices asks tu := h.setPart _

theorem modElem (f : ElementRecord → ElementRecord) : s.Handled (t.modElem i f) i (f r) notices asks tu := by
  simp only [State.modElem, h.elem_self]
  exact h.setElem _

theorem modSticky (f : Sticky → Sticky) :
    s.Handled (t.modSticky i f) i { r with sticky := f r.sticky } notices asks tu := h.modElem _

theorem raise (n : Notice) : s.Handled (t.raise n) i r (notices ++ [n]) asks tu := by
  refine ⟨by simp [h.elems], ?_, by simp [h.ebc], by simp [h.tu], by simp [h.rcc], by simp [h.roster], by simp [h.mch],
    by simp [h.now], by simp [h.pending]⟩
  rw [Hlp.raiseAll_append, ← h.hlp]
  rfl

theorem raiseElement (n : ElementNotice) : s.Handled (t.raiseElement i n) i r (notices ++ [.element i n]) asks tu := h.raise _

/-- A handler's ask for a transaction. -/
theorem ask (q : BusAsk) : s.Handled (t.asksAll [q]) i r notices (asks ++ [q]) tu := by
  have same (b : Block) (other : b ∉ [Block.ebc]) : t.sameBlock (t.asksAll [q]) b := State.asksAll_blocks [q] t b other
  refine ⟨(same .elems (by decide)).trans h.elems, (same .hlp (by decide)).trans h.hlp, ?_, (same .tu (by decide)).trans h.tu,
    (same .rcc (by decide)).trans h.rcc, (same .roster (by decide)).trans h.roster, (same .mch (by decide)).trans h.mch,
    (same .now (by decide)).trans h.now, (same .pending (by decide)).trans h.pending⟩
  rw [State.asksAll_append]
  exact State.ebc_asksAll_congr [q] h.ebc (by simpa using h.now)

theorem askLamp (on : Bool) : s.Handled (t.askLamp i on) i r notices (asks ++ [.lamp i on]) tu := h.ask (.lamp i on)

theorem askCarriage (speed : Int) : s.Handled (t.askCarriage i speed) i r notices (asks ++ [.speed i speed]) tu :=
  h.ask (.speed i speed)

/-- A record's lamp is driven when its lit state differs from the one before. -/
theorem askChange {was lit : Bool} :
    s.Handled (t.asksAll (litChange i was lit)) i r notices (asks ++ litChange i was lit) tu := by
  unfold litChange
  split
  · simpa using h
  · exact h.ask _

/-- A credit to a row of the element's column. -/
theorem credit (ρ : Fin 28) (points : Nat) :
    s.Handled (t.credit ρ i points) i r notices asks ((s.setTu tu).creditedTu (some ρ) i [points]) := by
  refine ⟨by simp [h.elems], by simp [h.hlp], by simp [h.ebc], ?_, by simp [h.rcc], by simp [h.roster], by simp [h.mch],
    by simp [h.now], by simp [h.pending]⟩
  rw [State.credit_eq]
  have owner : t.rowAlliance ρ = (s.setTu tu).rowAlliance ρ := State.rowAlliance_congr h.roster ρ
  simp only [State.creditedTu, owner, h.tu, State.setTu_tu]

/-- A goal's lamp is worked out again (R125). -/
theorem relightGoal {p : GoalPart} (goal : r.part = .goal p) :
    s.Handled (t.relightGoal i) i (r.setPart (.goal p.relit)) notices (asks ++ litChange i p.lit p.relit.lit) tu := by
  have same : t.setGoal i p = t := by
    rw [State.setGoal, State.setPart_of_defined h.elem_self, ElementRecord.setPart, ← goal, State.setElem]
    have self : t.elems.set i.val (some r) = t.elems := by
      rw [← h.elem_self]
      exact Vector.set_getElem_self _
    rw [self]
  rw [← same, State.relightGoal_setGoal h.elem_self]
  exact (h.setPart _).askChange

end State.Handled

end Sys2Proof.Machine

/-! The pieces of a goal, counted one after another. -/
namespace Sys2Proof.Machine

/-- The record of a goal after one counted piece: the kind part, and the overrange flag when the bound is met first (R123). -/
def ElementRecord.afterPiece (r : ElementRecord) (lost : Bool) (p : GoalPart) : ElementRecord :=
  { r with sticky := { r.sticky with
             overrange := r.sticky.overrange || ((p.afterPiece lost).overrangeNoted && !p.overrangeNoted) }
           part := .goal (p.afterPiece lost) }

theorem saturating_eq (n : Nat) : saturating n = min 65535 (n + 1) := by
  unfold saturating
  split <;> omega

theorem State.pieceRow_eq {s : State} {i : Index} {r : ElementRecord} (stands : s.elem i = some r) :
    s.pieceRow i = r.pieceRow true := by
  simp only [State.pieceRow, stands, ElementRecord.pieceRow, if_true] <;> rfl

/-- The kind part with a piece counted and nothing yet made of its count. -/
def GoalPart.tallied (lost : Bool) (p : GoalPart) : GoalPart :=
  { p with counted := p.counted + 1, windowPieces := min 65535 (p.windowPieces + 1)
           unattributed := if lost then p.unattributed + 1 else p.unattributed }

theorem GoalPart.afterPiece_bound {p : GoalPart} (bound : p.count ≤ -255) (lost : Bool) :
    p.afterPiece lost = { p.tallied lost with overrangeNoted := true } := if_pos bound

theorem GoalPart.afterPiece_fills {p : GoalPart} (above : ¬ p.count ≤ -255) (fills : p.fillsNext = true) (lost : Bool) :
    p.afterPiece lost = { p.tallied lost with count := 0, filled := true, lit := p.lampMode == .on || p.lampMode == .auto } :=
  (if_neg above).trans (if_pos fills)

theorem GoalPart.afterPiece_counts {p : GoalPart} (above : ¬ p.count ≤ -255) (fills : p.fillsNext = false) (lost : Bool) :
    p.afterPiece lost = { p.tallied lost with count := p.count - 1 } :=
  (if_neg above).trans (if_neg (by simp [fills]))

theorem GoalPart.fillsNext_iff (p : GoalPart) : p.fillsNext = true ↔ p.count - 1 = 0 ∧ p.quota ≠ 0 ∧ p.filled = false := by
  simp only [GoalPart.fillsNext, Bool.and_eq_true, beq_iff_eq, bne_iff_ne, Bool.not_eq_true', and_assoc]
  constructor
  · rintro ⟨one, rest⟩; exact ⟨by omega, rest⟩
  · rintro ⟨one, rest⟩; exact ⟨by omega, rest⟩

/-- The credit of a counted piece, when the piece has a row. -/
def State.creditRow (s : State) (row : Option (Fin 28)) (i : Index) (points : Nat) : State :=
  match row with
  | some ρ => s.credit ρ i points
  | none => s

/-- One counted piece, with the row it is credited to and the kind part given (R120 to R123). -/
theorem State.countPiece_eq {s : State} {i : Index} {p : GoalPart} (goal : s.goalAt i = some p) :
    let row := if p.creditable s.mch.phase then s.pieceRow i else none
    let q := p.tallied (p.creditable s.mch.phase && row.isNone)
    let t := (s.setGoal i q).creditRow row i p.pointsPerPiece
    s.countPiece i =
      if p.count ≤ -255 then
        if p.overrangeNoted then t
        else ((t.setGoal i { q with overrangeNoted := true }).modSticky i fun f => { f with overrange := true }).raise
          (.goal i p.windowNumber .overrange)
      else if p.fillsNext then
        ((((t.setGoal i { q with count := p.count - 1, filled := true }).creditRow row i p.fillBonus).relightGoal i).raise
          (.goal i p.windowNumber (.filled (if p.fillBonus = 0 then none else row))))
      else t.setGoal i { q with count := p.count - 1 } := by
  intro row q t
  simp only [State.countPiece, goal]
  split
  · rw [saturating_eq]; rfl
  · by_cases fills : p.fillsNext = true
    · have filled : (p.filled || decide (p.count - 1 = 0 ∧ p.quota ≠ 0 ∧ p.filled = false)) = true := by
        rw [decide_eq_true (p.fillsNext_iff.mp fills), Bool.or_true]
      rw [if_pos fills, if_pos (p.fillsNext_iff.mp fills), saturating_eq, filled]
      by_cases bonus : p.fillBonus = 0
      · have nothing (u : State) : u.creditRow row i p.fillBonus = u := by
          rw [bonus]; unfold State.creditRow; cases row <;> rfl
        simp only [if_pos bonus, nothing]
        rfl
      · simp only [if_neg bonus]
        rfl
    · have open_ := fun next => fills (p.fillsNext_iff.mpr next)
      have kept : (p.filled || decide (p.count - 1 = 0 ∧ p.quota ≠ 0 ∧ p.filled = false)) = p.filled := by
        rw [decide_eq_false open_, Bool.or_false]
      rw [if_neg fills, if_neg open_, saturating_eq, kept]
      rfl

/-- The lit state after the piece that fills the window (R125). -/
theorem LampMode.lit_filled (m : LampMode) : m.lit true = (m == .on || m == .auto) := by cases m <;> rfl

/-! ## What counted pieces keep -/

/-- Where a piece has no row shows in the unattributed pieces alone. -/
theorem GoalPart.afterPiece_unattributed (lost : Bool) (p : GoalPart) (u : Half) :
    GoalPart.afterPiece lost { p with unattributed := u }
      = { p.afterPiece false with unattributed := if lost then u + 1 else u } := by
  have fills : GoalPart.fillsNext { p with unattributed := u } = p.fillsNext := rfl
  simp only [GoalPart.afterPiece, fills]
  repeat' split
  all_goals rfl

theorem GoalPart.piecePoints_unattributed (n : Nat) : ∀ (p : GoalPart) (u : Half),
    GoalPart.piecePoints n { p with unattributed := u } = GoalPart.piecePoints n p := by
  induction n with
  | zero => intro p u; rfl
  | succ n ih =>
    intro p u
    rw [GoalPart.piecePoints, GoalPart.afterPiece_unattributed, ih]
    rfl

theorem GoalPart.pieceNotices_unattributed (i : Index) (row : Option (Fin 28)) (n : Nat) : ∀ (p : GoalPart) (u : Half),
    GoalPart.pieceNotices i row n { p with unattributed := u } = GoalPart.pieceNotices i row n p := by
  induction n with
  | zero => intro p u; rfl
  | succ n ih =>
    intro p u
    rw [GoalPart.pieceNotices, GoalPart.afterPiece_unattributed, ih]
    rfl

theorem GoalPart.afterPiece_eq (lost : Bool) (p : GoalPart) : p.afterPiece lost
    = { p.afterPiece false with unattributed := if lost then p.unattributed + 1 else p.unattributed } :=
  GoalPart.afterPiece_unattributed lost p p.unattributed

theorem GoalPart.piecePoints_succ (n : Nat) (p : GoalPart) (lost : Bool) :
    GoalPart.piecePoints (n + 1) p = GoalPart.piecePoints 1 p ++ GoalPart.piecePoints n (p.afterPiece lost) := by
  have rest := GoalPart.piecePoints_unattributed n (p.afterPiece false) (if lost then p.unattributed + 1 else p.unattributed)
  rw [← GoalPart.afterPiece_eq lost] at rest
  simp [GoalPart.piecePoints, rest]

theorem GoalPart.pieceNotices_succ (i : Index) (row : Option (Fin 28)) (n : Nat) (p : GoalPart) (lost : Bool) :
    GoalPart.pieceNotices i row (n + 1) p
      = GoalPart.pieceNotices i row 1 p ++ GoalPart.pieceNotices i row n (p.afterPiece lost) := by
  have rest := GoalPart.pieceNotices_unattributed i row n (p.afterPiece false)
    (if lost then p.unattributed + 1 else p.unattributed)
  rw [← GoalPart.afterPiece_eq lost] at rest
  simp [GoalPart.pieceNotices, rest]

/-- Every way a piece is counted, for a property of the kind part after it. -/
theorem GoalPart.afterPiece_cases {C : GoalPart → Prop} {lost : Bool} {p : GoalPart}
    (bound : p.count ≤ -255 → C { p.tallied lost with overrangeNoted := true })
    (fills : ¬ p.count ≤ -255 → p.fillsNext = true →
      C { p.tallied lost with count := 0, filled := true, lit := p.lampMode == .on || p.lampMode == .auto })
    (counts : ¬ p.count ≤ -255 → p.fillsNext = false → C { p.tallied lost with count := p.count - 1 }) :
    C (p.afterPiece lost) := by
  by_cases low : p.count ≤ -255
  · rw [GoalPart.afterPiece_bound low]; exact bound low
  · cases next : p.fillsNext with
    | true => rw [GoalPart.afterPiece_fills low next]; exact fills low next
    | false => rw [GoalPart.afterPiece_counts low next]; exact counts low next

theorem GoalPart.afterPiece_creditable (lost : Bool) (p : GoalPart) (phase : Phase) :
    (p.afterPiece lost).creditable phase = p.creditable phase := by
  refine GoalPart.afterPiece_cases (C := fun q => q.creditable phase = p.creditable phase) ?_ ?_ ?_
  all_goals intros; rfl

theorem GoalPart.afterPiece_noted (lost : Bool) (p : GoalPart) (noted : p.overrangeNoted = true) :
    (p.afterPiece lost).overrangeNoted = true := by
  refine GoalPart.afterPiece_cases (C := fun q => q.overrangeNoted = true) ?_ ?_ ?_
  · intros; rfl
  all_goals intros; exact noted

theorem GoalPart.afterPiece_filled (lost : Bool) (p : GoalPart) (filled : p.filled = true) :
    (p.afterPiece lost).filled = true ∧ (p.afterPiece lost).lit = p.lit := by
  have open_ : p.fillsNext = false := by simp [GoalPart.fillsNext, filled]
  refine GoalPart.afterPiece_cases (C := fun q => q.filled = true ∧ q.lit = p.lit) ?_ ?_ ?_
  · intros; exact ⟨filled, rfl⟩
  · intro _ fills; rw [open_] at fills; cases fills
  · intros; exact ⟨filled, rfl⟩

theorem GoalPart.afterPieces_noted (lost : Bool) (n : Nat) : ∀ p : GoalPart, p.overrangeNoted = true →
    (GoalPart.afterPieces lost n p).overrangeNoted = true := by
  induction n with
  | zero => exact fun _ noted => noted
  | succ n ih => exact fun p noted => ih _ (p.afterPiece_noted lost noted)

theorem GoalPart.afterPieces_filled (lost : Bool) (n : Nat) : ∀ p : GoalPart, p.filled = true →
    (GoalPart.afterPieces lost n p).lit = p.lit := by
  induction n with
  | zero => exact fun _ _ => rfl
  | succ n ih =>
    intro p filled
    obtain ⟨stays, lit⟩ := p.afterPiece_filled lost filled
    exact (ih _ stays).trans lit

/-- A piece changes the lit state only when it fills the window, and then no later piece does. -/
theorem GoalPart.afterPiece_lit (lost : Bool) (n : Nat) (p : GoalPart) : (p.afterPiece lost).lit = p.lit
    ∨ (GoalPart.afterPieces lost n (p.afterPiece lost)).lit = (p.afterPiece lost).lit := by
  have split : (p.afterPiece lost).lit = p.lit ∨ (p.afterPiece lost).filled = true := by
    refine GoalPart.afterPiece_cases (C := fun q => q.lit = p.lit ∨ q.filled = true) ?_ ?_ ?_
    · intros; exact .inl rfl
    · intros; exact .inr rfl
    · intros; exact .inl rfl
  exact split.imp_right fun filled => GoalPart.afterPieces_filled lost n _ filled

/-- Two changes of a lit state, of which one at most is a change. -/
theorem litChange_append (i : Index) {first middle last : Bool} (once : middle = first ∨ last = middle) :
    litChange i first middle ++ litChange i middle last = litChange i first last := by
  rcases once with same | same <;> subst same <;> simp [litChange]

/-- The record of a goal after counted pieces, one after another. -/
def ElementRecord.afterPieces (r : ElementRecord) (lost : Bool) (n : Nat) (p : GoalPart) : ElementRecord :=
  { r with sticky := { r.sticky with
             overrange := r.sticky.overrange || ((GoalPart.afterPieces lost n p).overrangeNoted && !p.overrangeNoted) }
           part := .goal (GoalPart.afterPieces lost n p) }

theorem ElementRecord.afterPieces_succ (r : ElementRecord) (lost : Bool) (n : Nat) (p : GoalPart) :
    r.afterPieces lost (n + 1) p = (r.afterPiece lost p).afterPieces lost n (p.afterPiece lost) := by
  have first := p.afterPiece_noted lost
  have later := GoalPart.afterPieces_noted lost n (p.afterPiece lost)
  simp only [ElementRecord.afterPieces, ElementRecord.afterPiece, GoalPart.afterPieces, ElementRecord.mk.injEq, Sticky.mk.injEq,
    true_and, and_true]
  cases r.sticky.overrange <;> cases before : p.overrangeNoted <;> cases after : (p.afterPiece lost).overrangeNoted <;> simp_all

namespace State.Handled
variable {s t : State} {i : Index} {r : ElementRecord} {notices : List Notice} {asks : List BusAsk} {tu : Tu}
variable (h : s.Handled t i r notices asks tu)
include h

theorem creditRow (row : Option (Fin 28)) (points : Nat) :
    s.Handled (t.creditRow row i points) i r notices asks ((s.setTu tu).creditedTu row i [points]) := by
  cases row with
  | none => exact h
  | some ρ => exact h.credit ρ points

/-- One counted piece of a goal (R120 to R123). -/
theorem countPiece {p : GoalPart} (goal : r.part = .goal p) {row : Option (Fin 28)} {lost : Bool}
    (credited : r.pieceRow (p.creditable s.mch.phase) = row) (unowned : (p.creditable s.mch.phase && row.isNone) = lost) :
    s.Handled (t.countPiece i) i (r.afterPiece lost p) (notices ++ GoalPart.pieceNotices i row 1 p)
      (asks ++ litChange i p.lit (p.afterPiece lost).lit) ((s.setTu tu).creditedTu row i (GoalPart.piecePoints 1 p)) := by
  have rows : (if p.creditable s.mch.phase then t.pieceRow i else none) = row := by
    rw [State.pieceRow_eq h.elem_self, ← credited]
    cases p.creditable s.mch.phase <;> rfl
  have same := State.countPiece_eq (State.goal_of h.elem_self goal)
  simp only [h.mch, rows, unowned] at same
  rw [same]
  have counted : s.Handled ((t.setGoal i (p.tallied lost)).creditRow row i p.pointsPerPiece) i
      (r.setPart (.goal (p.tallied lost))) notices asks ((s.setTu tu).creditedTu row i [p.pointsPerPiece]) :=
    (h.setGoal _).creditRow row _
  have unlit : litChange i p.lit p.lit = [] := if_pos rfl
  split
  · next bound =>
    have open_ : p.fillsNext = false := by
      have other : ¬ p.count - 1 = 0 := by omega
      simpa [other] using p.fillsNext_iff
    have points : GoalPart.piecePoints 1 p = [p.pointsPerPiece] := by simp [GoalPart.piecePoints, open_]
    rw [points]
    by_cases noted : p.overrangeNoted = true
    · rw [if_pos noted]
      refine counted.congr ?_ ?_ ?_ rfl
      · simp [ElementRecord.afterPiece, GoalPart.afterPiece_bound bound, ElementRecord.setPart, noted, GoalPart.tallied]
      · simp [GoalPart.pieceNotices, bound, noted]
      · simp [GoalPart.afterPiece_bound bound, GoalPart.tallied, unlit]
    · rw [if_neg noted]
      refine (((counted.setGoal _).modSticky _).raise _).congr ?_ ?_ ?_ rfl
      · simp [ElementRecord.afterPiece, GoalPart.afterPiece_bound bound, ElementRecord.setPart, noted, GoalPart.tallied]
      · simp [GoalPart.pieceNotices, bound, noted]
      · simp [GoalPart.afterPiece_bound bound, GoalPart.tallied, unlit]
  · next above =>
    have unnoted (q : GoalPart) (kept : q.overrangeNoted = p.overrangeNoted) :
        (r.sticky.overrange || (q.overrangeNoted && !p.overrangeNoted)) = r.sticky.overrange := by
      rw [kept]; cases p.overrangeNoted <;> simp
    split
    · next fills =>
      refine ((((counted.setGoal _).creditRow row p.fillBonus).relightGoal rfl).raise _).congr ?_ ?_ ?_ ?_
      · have one : p.count - 1 = 0 := (p.fillsNext_iff.mp fills).1
        simp [ElementRecord.afterPiece, GoalPart.afterPiece_fills above fills, ElementRecord.setPart, GoalPart.tallied,
          GoalPart.relit, LampMode.lit_filled, one]
      · simp [GoalPart.pieceNotices, above, fills]
      · simp [GoalPart.afterPiece_fills above fills, GoalPart.tallied, GoalPart.relit, LampMode.lit_filled]
      · refine (State.creditedTu_append (s.setTu tu) row i [p.pointsPerPiece] [p.fillBonus]).trans ?_
        simp [GoalPart.piecePoints, fills]
    · next counts =>
      have open_ : p.fillsNext = false := by simpa using counts
      refine (counted.setGoal _).congr ?_ ?_ ?_ ?_
      · simp [ElementRecord.afterPiece, GoalPart.afterPiece_counts above open_, ElementRecord.setPart, GoalPart.tallied]
      · simp [GoalPart.pieceNotices, above, open_]
      · simp [GoalPart.afterPiece_counts above open_, GoalPart.tallied, unlit]
      · simp [GoalPart.piecePoints, open_]

omit h in
/-- Counted pieces of a goal, one after another (R120 to R123). -/
theorem countPieces {row : Option (Fin 28)} {lost : Bool} (n : Nat) : ∀ {t : State} {r : ElementRecord} {p : GoalPart}
    {notices : List Notice} {asks : List BusAsk} {tu : Tu}, s.Handled t i r notices asks tu → r.part = .goal p →
    r.pieceRow (p.creditable s.mch.phase) = row → (p.creditable s.mch.phase && row.isNone) = lost →
    s.Handled (State.countPieces i n t) i (r.afterPieces lost n p) (notices ++ GoalPart.pieceNotices i row n p)
      (asks ++ litChange i p.lit (GoalPart.afterPieces lost n p).lit)
      ((s.setTu tu).creditedTu row i (GoalPart.piecePoints n p)) := by
  induction n with
  | zero =>
    intro t r p notices asks tu h goal _ _
    refine h.congr ?_ ?_ ?_ ?_
    · simp [ElementRecord.afterPieces, GoalPart.afterPieces, ← goal]
    · simp [GoalPart.pieceNotices]
    · simp [GoalPart.afterPieces, litChange]
    · simp [GoalPart.piecePoints]
  | succ n ih =>
    intro t r p notices asks tu h goal credited unowned
    have first := h.countPiece goal credited unowned
    have later := ih first rfl (by rw [GoalPart.afterPiece_creditable]; exact credited)
      (by rw [GoalPart.afterPiece_creditable]; exact unowned)
    refine later.congr (r.afterPieces_succ lost n p).symm ?_ ?_ ?_
    · rw [GoalPart.pieceNotices_succ i row n p lost, List.append_assoc]
    · rw [List.append_assoc, litChange_append i (p.afterPiece_lit lost n)]
      rfl
    · rw [GoalPart.piecePoints_succ n p lost]
      exact State.creditedTu_append (s.setTu tu) row i _ _

end State.Handled

end Sys2Proof.Machine

/-! The goal handler's part in the end of a poll: pieces attributed, a closing ended, a lamp driven again. -/
namespace Sys2Proof.Machine

/-- The kind part with a delta attributed, before any piece of it counts (R120). -/
def GoalPart.attributed (p : GoalPart) (held : Bool) (delta : Nat) : GoalPart :=
  let closed : Bool := p.window == .closed
  { p with
    pieceTotal := p.pieceTotal + BitVec.ofNat 16 delta
    idle := if closed then p.idle + BitVec.ofNat 16 delta else p.idle
    held := if !closed && held then p.held + BitVec.ofNat 16 delta else p.held }

/-- The pieces of a delta that count (R120). -/
def GoalPart.counting (p : GoalPart) (held : Bool) (delta : Nat) : Nat := if p.window == .closed || held then 0 else delta

/-- The kind part with a closing ended and its window CLOSED (R118). -/
def GoalPart.closedWith (p : GoalPart) (incomplete : Bool) : GoalPart :=
  { p with record := some (p.capture incomplete), window := .closed, closingInMatch := false, reopenWanted := false }

theorem GoalPart.closedBy_stays {p : GoalPart} (stays : p.reopenWanted = false) (incomplete : Bool) :
    p.closedBy incomplete = p.closedWith incomplete := if_neg (by simp [stays])

theorem GoalPart.closedBy_reopens {p : GoalPart} (reopens : p.reopenWanted = true) (incomplete : Bool) :
    p.closedBy incomplete = (p.closedWith incomplete).opening.relit := by
  rw [GoalPart.opening_relit]
  exact if_pos reopens

theorem Sticky.captured_eq (f : Sticky) (incomplete : Bool) : f.captured incomplete = f.afterCapture incomplete := rfl

/-- The notices of the final snapshot that a capture completes (R178). -/
def State.captureFinal (s : State) (i : Index) : List Notice :=
  match s.tu.finalWait with
  | some wait => if i ∈ wait then s.finalNotices (wait.filter (· ≠ i)) else []
  | none => []

/-- A capture of a goal that is awaited sets the final wait without it (R178). -/
theorem State.captured_eq (s : State) (i : Index) : s.captured i = match s.tu.finalWait with
    | some wait => if i ∈ wait then s.awaitFinal (wait.filter (· ≠ i)) else s
    | none => s := by
  unfold State.captured
  cases s.tu.finalWait with
  | none => rfl
  | some wait =>
    have others : (wait.filter fun j => j != i) = wait.filter (· ≠ i) := by
      congr 1; funext j; by_cases same : j = i <;> simp [same]
    by_cases waits : i ∈ wait
    · simp only [waits, List.contains_eq_mem, decide_true, if_true, others]; rfl
    · simp [waits]

theorem State.captured_tu (s : State) (i : Index) : (s.captured i).tu = s.captureTu i := by
  rw [State.captured_eq, State.captureTu]
  cases s.tu.finalWait with
  | none => rfl
  | some wait =>
    dsimp only
    split
    · exact (State.awaitFinal_spec s _).1
    · rfl

theorem State.captured_hlp (s : State) (i : Index) : (s.captured i).hlp = s.hlp.raiseAll (s.captureFinal i) := by
  rw [State.captured_eq, State.captureFinal]
  cases s.tu.finalWait with
  | none => rfl
  | some wait =>
    dsimp only
    split
    · exact (State.awaitFinal_spec s _).2
    · rfl

/-- What a capture does to the tally follows from the tally and the match clock alone. -/
theorem State.captureTu_congr {s t : State} (tu : t.tu = s.tu) (mch : t.mch = s.mch) (i : Index) :
    t.captureTu i = s.captureTu i ∧ t.captureFinal i = s.captureFinal i := by
  simp only [State.captureTu, State.captureFinal, State.finalTaken, State.finalNotices, State.imageNow, tu, mch]
  exact ⟨trivial, trivial⟩

theorem State.captureNotices_eq (s : State) (i : Index) (p : GoalPart) (incomplete fresh : Bool) :
    s.captureNotices i p incomplete fresh = .goal i p.windowNumber (.closed (p.capture incomplete) fresh)
      :: (s.captureFinal i
        ++ if p.reopenWanted then [.goal i (p.windowNumber + 1) (.opened (p.pendingQuota.getD p.quota))] else []) := rfl

theorem GoalPart.closedBy_lampResync (p : GoalPart) (incomplete : Bool) : (p.closedBy incomplete).lampResync = p.lampResync := by
  unfold GoalPart.closedBy
  dsimp only
  split <;> rfl

/-- A poll of role CLOSING ends the closing of a goal whose window is CLOSING (R118). -/
def State.closingEnded (s : State) (i : Index) (role : PollRole) : State :=
  match role, s.goalAt i with
  | .closing, some p => if p.window = WindowState.closing then s.endClosing i false else s
  | _, _ => s

/-- What the goal handler does at the end of a poll once its pieces are counted: a closing is ended and the lamp driven again
(R118, R126). -/
def State.goalEnded (i : Index) (role : PollRole) (restarted : Bool) (s : State) : State :=
  let t := s.closingEnded i role
  let t := if restarted then t.modGoal i fun p => { p with lampResync := true } else t
  t.resyncGoalLamp i

/-- The end of a poll of a goal: the delta goes to one of three counters, and the pieces that count do so one after another
(R120, Table 6-4). -/
theorem State.goalPolled_eq {s : State} {i : Index} {p : GoalPart} (goal : s.goalAt i = some p) (role : PollRole) (delta : Nat)
    (restarted : Bool) : s.goalPolled i role delta restarted = State.goalEnded i role restarted
      (State.countPieces i (p.counting s.held delta) (s.setGoal i (p.attributed s.held delta))) := by
  refine Eq.trans (congrArg (State.goalEnded i role restarted) ?_) rfl
  show (match s.goalAt i with
    | some p => match p.window with
      | .closed => s.setGoal i { p with
          pieceTotal := p.pieceTotal + BitVec.ofNat 16 delta, idle := p.idle + BitVec.ofNat 16 delta }
      | .opened | .closing =>
        if s.held then s.setGoal i { p with
            pieceTotal := p.pieceTotal + BitVec.ofNat 16 delta, held := p.held + BitVec.ofNat 16 delta }
        else State.countPieces i delta (s.setGoal i { p with pieceTotal := p.pieceTotal + BitVec.ofNat 16 delta })
    | none => s) = _
  rw [goal]
  cases window : p.window with
  | closed => simp [GoalPart.counting, GoalPart.attributed, window, State.countPieces]
  | opened => cases held : s.held <;> simp [GoalPart.counting, GoalPart.attributed, window, State.countPieces]
  | closing => cases held : s.held <;> simp [GoalPart.counting, GoalPart.attributed, window, State.countPieces]

/-- The end of a poll means nothing to the goal handler where no goal stands. -/
theorem State.goalPolled_none {s : State} {i : Index} (other : s.goalAt i = none) (role : PollRole) (delta : Nat)
    (restarted : Bool) : s.goalPolled i role delta restarted = s := by
  have ended : State.goalEnded i role restarted s = s := by
    unfold State.goalEnded State.closingEnded State.modGoal State.resyncGoalLamp
    rw [other]
    cases role <;> cases restarted <;> simp [other]
  refine Eq.trans (congrArg (State.goalEnded i role restarted) ?_) ended
  show (match s.goalAt i with
    | some p => match p.window with
      | .closed => s.setGoal i { p with
          pieceTotal := p.pieceTotal + BitVec.ofNat 16 delta, idle := p.idle + BitVec.ofNat 16 delta }
      | .opened | .closing =>
        if s.held then s.setGoal i { p with
            pieceTotal := p.pieceTotal + BitVec.ofNat 16 delta, held := p.held + BitVec.ofNat 16 delta }
        else State.countPieces i delta (s.setGoal i { p with pieceTotal := p.pieceTotal + BitVec.ofNat 16 delta })
    | none => s) = s
  rw [other]

namespace State.Handled
variable {s t : State} {i : Index} {r : ElementRecord} {notices : List Notice} {asks : List BusAsk} {tu : Tu}
variable (h : s.Handled t i r notices asks tu)
include h

theorem modGoal {p : GoalPart} (goal : r.part = .goal p) (f : GoalPart → GoalPart) :
    s.Handled (t.modGoal i f) i (r.setPart (.goal (f p))) notices asks tu := by
  simp only [State.modGoal, State.goal_of h.elem_self goal]
  exact h.setGoal _

theorem held : t.held = s.held := by rw [State.held, h.mch]; rfl

/-- A capture takes the goal off the final wait (R178). -/
theorem captured : s.Handled (t.captured i) i r (notices ++ (s.setTu tu).captureFinal i) asks ((s.setTu tu).captureTu i) := by
  refine ⟨by simp [h.elems], ?_, by simp [h.ebc], ?_, by simp [h.rcc], by simp [h.roster], by simp [h.mch], by simp [h.now],
    by simp [h.pending]⟩
  · rw [State.captured_hlp, h.hlp, Hlp.raiseAll_append, (State.captureTu_congr (s := s.setTu tu) h.tu h.mch i).2]
  · rw [State.captured_tu, (State.captureTu_congr (s := s.setTu tu) h.tu h.mch i).1]

theorem openWindow {p : GoalPart} (goal : r.part = .goal p) :
    s.Handled (t.openWindow i) i (r.setPart (.goal p.opening.relit))
      (notices ++ [.goal i (p.windowNumber + 1) (.opened (p.pendingQuota.getD p.quota))])
      (asks ++ litChange i p.lit p.opening.relit.lit) tu := by
  simp only [State.openWindow, State.goal_of h.elem_self goal]
  exact ((h.setGoal p.opening).relightGoal rfl).raise _

/-- The end of a closing (R118). -/
theorem endClosing {p : GoalPart} (goal : r.part = .goal p) (failed : Bool) {incomplete : Bool}
    (broken : (failed || r.inFault) = incomplete) :
    s.Handled (t.endClosing i failed) i { r with sticky := r.sticky.captured incomplete, part := .goal (p.closedBy incomplete) }
      (notices ++ (s.setTu tu).captureNotices i p incomplete r.sticky.recordFresh)
      (asks ++ litChange i p.lit (p.closedBy incomplete).lit) ((s.setTu tu).captureTu i) := by
  have closed := ((((h.setGoal { p with record := some (p.capture incomplete) }).modSticky
    (·.afterCapture incomplete)).raise (.goal i p.windowNumber (.closed (p.capture incomplete) r.sticky.recordFresh))).captured.modGoal
      rfl (fun q => { q with window := .closed, closingInMatch := false, reopenWanted := false }))
  simp only [State.endClosing, h.elem_self, State.goal_of h.elem_self goal, broken]
  split
  · next reopens =>
    refine (closed.openWindow rfl).congr ?_ ?_ ?_ rfl
    · rw [GoalPart.closedBy_reopens reopens]; rfl
    · rw [State.captureNotices_eq, if_pos reopens]; simp
    · rw [GoalPart.closedBy_reopens reopens]; rfl
  · next stays =>
    have stays : p.reopenWanted = false := by simpa using stays
    refine closed.congr ?_ ?_ ?_ rfl
    · rw [GoalPart.closedBy_stays stays]; rfl
    · rw [State.captureNotices_eq, stays]; simp
    · rw [GoalPart.closedBy_stays stays]; simp [litChange, GoalPart.closedWith]

/-- The lamp is driven again when that is wanted (R126). -/
theorem resyncGoalLamp {p : GoalPart} (goal : r.part = .goal p) :
    s.Handled (t.resyncGoalLamp i) i (r.setPart (.goal { p with lampResync := false })) notices
      (asks ++ if p.lampResync then [.lamp i p.lit] else []) tu := by
  simp only [State.resyncGoalLamp, State.goal_of h.elem_self goal]
  split
  · next wanted => exact (h.setGoal _).askLamp _
  · next unwanted =>
    have same : { p with lampResync := false } = p := by cases p; simp_all
    refine h.congr ?_ rfl (by simp) rfl
    rw [same, ElementRecord.setPart, ← goal]

/-- What follows the counting of pieces at the end of a poll (R118, R126). -/
theorem goalEnded {p : GoalPart} (goal : r.part = .goal p) (role : PollRole) (restarted : Bool) {broken : Bool}
    (fault : r.inFault = broken) {closes : Bool} (ends : (role == .closing && p.window == .closing) = closes) :
    let part := if closes then p.closedBy broken else p
    s.Handled (State.goalEnded i role restarted t) i
      { r with sticky := if closes then r.sticky.captured broken else r.sticky, part := .goal { part with lampResync := false } }
      (notices ++ if closes then (s.setTu tu).captureNotices i p broken r.sticky.recordFresh else [])
      (asks ++ litChange i p.lit part.lit ++ if p.lampResync || restarted then [.lamp i part.lit] else [])
      (if closes then (s.setTu tu).captureTu i else tu) := by
  intro part
  have closed : s.Handled (t.closingEnded i role) i
      { r with sticky := if closes then r.sticky.captured broken else r.sticky, part := .goal part }
      (notices ++ if closes then (s.setTu tu).captureNotices i p broken r.sticky.recordFresh else [])
      (asks ++ litChange i p.lit part.lit) (if closes then (s.setTu tu).captureTu i else tu) := by
    unfold State.closingEnded
    rw [State.goal_of h.elem_self goal]
    cases closes with
    | true =>
      simp only [Bool.and_eq_true, beq_iff_eq] at ends
      obtain ⟨closing, window⟩ := ends
      subst closing
      simp only [window, if_true]
      exact h.endClosing goal false (by simpa using fault)
    | false =>
      have kept : s.Handled t i { r with part := .goal part } notices (asks ++ litChange i p.lit part.lit) tu := by
        refine h.congr ?_ rfl (by simp [part, litChange]) rfl
        rw [show part = p from if_neg Bool.false_ne_true, ← goal]
      cases role with
      | refresh => simpa using kept
      | closing =>
        have open_ : p.window ≠ .closing := by simpa using ends
        simpa [open_] using kept
  have lamp : part.lampResync = p.lampResync := by
    show (if closes then p.closedBy broken else p).lampResync = _
    split
    · exact p.closedBy_lampResync broken
    · rfl
  cases restarted with
  | true =>
    refine (((closed.modGoal rfl fun q => { q with lampResync := true }).resyncGoalLamp rfl)).congr rfl rfl ?_ rfl
    simp
  | false =>
    refine (closed.resyncGoalLamp rfl).congr rfl rfl ?_ rfl
    simp [lamp]

end State.Handled

end Sys2Proof.Machine

/-! The field table stays sound. -/
namespace Sys2Proof.Machine

/-! ## One record changed -/

/-- `State.fieldSound` as a property of the field table alone: every record sound and no node address used twice. -/
def tableSound (v : Vector (Option ElementRecord) 48) : Prop :=
  (∀ i : Index, v[i.val].all ElementRecord.sound = true)
    ∧ ∀ i j : Index, i ≠ j → v[i.val].isSome → v[i.val].map (·.address) ≠ v[j.val].map (·.address)

theorem State.fieldSound_iff (s : State) : s.fieldSound ↔ tableSound s.elems := Iff.rfl

/-- A record that may take another's place: the same node address, and sound when the other is. -/
def ElementRecord.Follows (q r : ElementRecord) : Prop := q.address = r.address ∧ (r.sound = true → q.sound = true)

/-- A table whose records follow those of a sound table is sound. -/
theorem tableSound_of_follows {v w : Vector (Option ElementRecord) 48} (h : tableSound v)
    (each : ∀ j : Index, w[j.val] = v[j.val]
      ∨ ∃ r q : ElementRecord, v[j.val] = some r ∧ w[j.val] = some q ∧ q.Follows r) : tableSound w := by
  obtain ⟨sound, apart⟩ := h
  have same (j : Index) : w[j.val].map (·.address) = v[j.val].map (·.address) ∧ (w[j.val].isSome ↔ v[j.val].isSome) := by
    rcases each j with kept | ⟨r, q, before, after, address, _⟩
    · rw [kept]; exact ⟨rfl, Iff.rfl⟩
    · rw [before, after]; simp [address]
  refine ⟨fun j => ?_, fun i j other here => ?_⟩
  · rcases each j with kept | ⟨r, q, before, after, _, follows⟩
    · rw [kept]; exact sound j
    · have was := sound j
      rw [before] at was
      rw [after]
      exact follows was
  · rw [(same i).1, (same j).1]
    exact apart i j other ((same i).2.mp here)

theorem ElementRecord.sound_iff (r : ElementRecord) : r.sound = true ↔
    (1 ≤ r.address.toNat ∧ r.address.toNat ≤ 63) ∧ r.failures ≤ 3 ∧ r.part.sound = true := by
  simp [ElementRecord.sound, and_assoc]

theorem ElementRecord.follows_part {r : ElementRecord} {part : KindPart} (sound : r.part.sound = true → part.sound = true) :
    ElementRecord.Follows (r.setPart part) r :=
  ⟨rfl, fun before => by
    rw [ElementRecord.sound_iff] at before ⊢
    exact ⟨before.1, before.2.1, sound before.2.2⟩⟩

theorem GoalPart.sound_iff (p : GoalPart) : (KindPart.goal p).sound = true ↔
    p.pieceTotal = p.counted + p.held + p.idle ∧ -255 ≤ p.count ∧ p.count ≤ p.quota := by
  simp [KindPart.sound, and_assoc]

theorem StationPart.sound_iff (p : StationPart) : (KindPart.station p).sound = true ↔ p.accrual ≤ 9 := by
  simp [KindPart.sound]

section
variable {s : State} (h : tableSound s.elems)
include h

theorem State.table_setElem {i : Index} {r q : ElementRecord} (stands : s.elem i = some r) (follows : q.Follows r) :
    tableSound (s.setElem i (some q)).elems := by
  refine tableSound_of_follows h fun j => ?_
  show (s.setElem i (some q)).elem j = s.elem j ∨ ∃ r q', s.elem j = some r ∧ (s.setElem i (some q)).elem j = some q' ∧ _
  rw [State.elem_setElem]
  split
  · next here => subst here; exact .inr ⟨r, q, stands, rfl, follows⟩
  · exact .inl rfl

/-- The table after one record was changed, by what its lookups give. -/
theorem State.table_of_elem {t : State} {i : Index} {f : ElementRecord → ElementRecord}
    (elem : ∀ j, t.elem j = if j = i then (s.elem i).map f else s.elem j)
    (follows : ∀ r, s.elem i = some r → (f r).Follows r) : tableSound t.elems := by
  refine tableSound_of_follows h fun j => ?_
  show t.elem j = s.elem j ∨ ∃ r q, s.elem j = some r ∧ t.elem j = some q ∧ q.Follows r
  rw [elem j]
  split
  · next here =>
    subst here
    cases stands : s.elem j with
    | none => exact .inl rfl
    | some r => exact .inr ⟨r, f r, rfl, rfl, follows r stands⟩
  · exact .inl rfl

theorem State.modElem_keepsTable {i : Index} {f : ElementRecord → ElementRecord} (follows : ∀ r, (f r).Follows r) :
    tableSound (s.modElem i f).elems :=
  State.table_of_elem h (fun j => s.elem_modElem i j f) fun r _ => follows r

theorem State.part_sound {i : Index} {r : ElementRecord} (stands : s.elem i = some r) : r.part.sound = true := by
  have sound := h.1 i
  rw [show s.elems[i.val] = some r from stands] at sound
  exact (r.sound_iff.mp sound).2.2

theorem State.goal_sound {i : Index} {p : GoalPart} (goal : s.goalAt i = some p) : (KindPart.goal p).sound = true := by
  obtain ⟨r, stands, part⟩ := State.goal_some goal
  exact part ▸ State.part_sound h stands

theorem State.station_sound {i : Index} {p : StationPart} (station : s.stationAt i = some p) :
    (KindPart.station p).sound = true := by
  obtain ⟨r, stands, part⟩ := State.station_some station
  exact part ▸ State.part_sound h stands

theorem State.setPart_keepsTable {i : Index} {part : KindPart} (sound : part.sound = true) :
    tableSound (s.setPart i part).elems :=
  State.modElem_keepsTable h fun _ => ElementRecord.follows_part fun _ => sound

@[simp] theorem State.setGate_keepsTable (i : Index) (p : GatePart) : tableSound (s.setPart i (.gate p)).elems :=
  State.setPart_keepsTable h rfl

@[simp] theorem State.setCarriage_keepsTable (i : Index) (p : CarriagePart) : tableSound (s.setPart i (.carriage p)).elems :=
  State.setPart_keepsTable h rfl

@[simp] theorem State.modClaim_keepsTable (i : Index) (f : ClaimPart → ClaimPart) : tableSound (s.modClaim i f).elems :=
  State.modElem_keepsTable h fun _ => ⟨rfl, id⟩

@[simp] theorem State.modSticky_keepsTable (i : Index) (f : Sticky → Sticky) : tableSound (s.modSticky i f).elems :=
  State.modElem_keepsTable h fun _ => ⟨rfl, id⟩

/-! ## Discarded motions, gates and carriages -/

@[simp] theorem State.gateIdle_keepsTable (i : Index) : tableSound (s.gateIdle i).elems := by
  unfold State.gateIdle
  split <;> simp [h]

@[simp] theorem State.motionDiscarded_keepsTable (byStopAll : Bool) (e : Entry) :
    tableSound (State.motionDiscarded byStopAll s e).elems := by
  unfold State.motionDiscarded State.carriageDriveDiscarded
  dsimp only
  repeat' split
  all_goals simp -implicitDefEqProofs [h]

@[simp] theorem State.discard_keepsTable (p : Entry → Bool) (byStopAll : Bool) : tableSound (s.discard p byStopAll).elems := by
  unfold State.discard
  simp only [State.handOverUpTo_frame]
  exact List.foldlRecOn (motive := fun t : State => tableSound t.elems) _ _ (by simpa using h) (fun t kept e _ => by simp [kept])

@[simp] theorem State.askStopAll_keepsTable : tableSound s.askStopAll.elems := by
  refine State.discard_keepsTable ?_ _ _
  split <;> simp [h]

@[simp] theorem State.gateDone_keepsTable (i : Index) (target : GateTarget) (origin : Origin) (position : Option GatePosition) :
    tableSound (s.gateDone i target origin position).elems := by
  unfold State.gateDone
  split <;> simp [h]

@[simp] theorem State.gateFails_keepsTable (i : Index) (target : GateTarget) (origin : Origin) (position : Option GatePosition)
    (cause : GateFailure) : tableSound (s.gateFails i target origin position cause).elems := by
  unfold State.gateFails
  split <;> simp [h]

@[simp] theorem State.gatePolled_keepsTable (i : Index) (position : GatePosition) :
    tableSound (s.gatePolled i position).elems := by
  unfold State.gatePolled State.setGate
  repeat' split
  all_goals simp [h]

@[simp] theorem State.gateDriven_keepsTable (i : Index) : tableSound (s.gateDriven i).elems := by
  unfold State.gateDriven State.setGate
  repeat' split
  all_goals simp [h]

@[simp] theorem State.gateFailed_keepsTable (i : Index) (op : BusOp) : tableSound (s.gateFailed i op).elems := by
  unfold State.gateFailed
  repeat' split
  all_goals simp [h]

@[simp] theorem State.sendGate_keepsTable (i : Index) (p : GatePart) (target : GateTarget) (origin : Origin) :
    tableSound (s.sendGate i p target origin).elems := by
  unfold State.sendGate State.setGate
  simp -implicitDefEqProofs [h]

@[simp] theorem State.actOn_keepsTable (k : Slot) (number : BitVec 4) (element : Byte) (target : GateTarget) :
    tableSound (s.actOn k number element target).elems := by
  unfold State.actOn
  repeat' split
  all_goals simp [h]

@[simp] theorem State.driveCarriage_keepsTable (i : Index) (p : CarriagePart) : tableSound (s.driveCarriage i p).elems := by
  simp [State.driveCarriage, State.setCarriage, h]

@[simp] theorem State.carriageFault_keepsTable (i : Index) (cause : CarriageStop) :
    tableSound (s.carriageFault i cause).elems := by
  unfold State.carriageFault
  repeat' split
  all_goals simp [h]

@[simp] theorem State.wantSpeed_keepsTable (i : Index) : tableSound (s.wantSpeed i).elems := by
  unfold State.wantSpeed State.setCarriage
  split <;> simp [h]

@[simp] theorem State.resyncCarriage_keepsTable (i : Index) : tableSound (s.resyncCarriage i).elems := by
  unfold State.resyncCarriage State.setCarriage
  repeat' split
  all_goals simp [h]

@[simp] theorem State.carriageStep_keepsTable (i : Index) (p : CarriagePart) (zone : Fin 8) (front rear : Bool) :
    tableSound (s.carriageStep i p zone front rear).elems := by
  unfold State.carriageStep
  repeat' split
  all_goals simp [h]

@[simp] theorem State.carriagePolled_keepsTable (i : Index) (zone : Fin 8) (front rear encoderFault restarted : Bool) :
    tableSound (s.carriagePolled i zone front rear encoderFault restarted).elems := by
  unfold State.carriagePolled
  dsimp only
  repeat' split
  all_goals simp -implicitDefEqProofs (maxDischargeDepth := 4) [h]

@[simp] theorem State.carriageFailed_keepsTable (i : Index) (op : BusOp) : tableSound (s.carriageFailed i op).elems := by
  unfold State.carriageFailed
  dsimp only
  repeat' split
  all_goals simp -implicitDefEqProofs [h]

@[simp] theorem State.haltCarriage_keepsTable (i : Index) : tableSound (s.haltCarriage i).elems := by
  unfold State.haltCarriage State.setCarriage
  repeat' split
  all_goals simp [h]

@[simp] theorem State.restartCarriage_keepsTable (i : Index) : tableSound (s.restartCarriage i).elems := by
  unfold State.restartCarriage
  repeat' split
  all_goals simp [h]

@[simp] theorem State.stopHalted_keepsTable (i : Index) : tableSound (s.stopHalted i).elems := by
  unfold State.stopHalted State.setCarriage
  repeat' split
  all_goals simp [h]

end

end Sys2Proof.Machine

/-! The field table stays sound: goals, stations, claims and every step. -/
namespace Sys2Proof.Machine

/-! ## Goal parts -/

/-- A goal part that may take another's place. -/
theorem GoalPart.onGoal_follows {f : GoalPart → GoalPart} {r : ElementRecord}
    (sound : ∀ p, r.part = .goal p → (KindPart.goal p).sound = true → (KindPart.goal (f p)).sound = true) :
    (r.onGoal f).Follows r := by
  unfold ElementRecord.onGoal
  split
  · next p goal => exact ElementRecord.follows_part fun before => sound p goal (goal ▸ before)
  · exact ⟨rfl, id⟩

theorem StationPart.onStation_follows {f : StationPart → StationPart} {r : ElementRecord}
    (sound : ∀ p, r.part = .station p → (KindPart.station p).sound = true → (KindPart.station (f p)).sound = true) :
    (r.onStation f).Follows r := by
  unfold ElementRecord.onStation
  split
  · next p station => exact ElementRecord.follows_part fun before => sound p station (station ▸ before)
  · exact ⟨rfl, id⟩

/-- A part with the same counters, and with the count and the quota in range. -/
theorem GoalPart.sound_of_counters {p q : GoalPart} (sound : (KindPart.goal p).sound = true)
    (counters : q.pieceTotal = p.pieceTotal ∧ q.counted = p.counted ∧ q.held = p.held ∧ q.idle = p.idle)
    (range : -255 ≤ q.count ∧ q.count ≤ q.quota) : (KindPart.goal q).sound = true := by
  obtain ⟨total, counted, held, idle⟩ := counters
  rw [GoalPart.sound_iff] at sound ⊢
  exact ⟨by rw [total, counted, held, idle]; exact sound.1, range⟩

/-- A part with the same counters, count and quota. -/
theorem GoalPart.sound_of_same {p q : GoalPart} (sound : (KindPart.goal p).sound = true)
    (counters : q.pieceTotal = p.pieceTotal ∧ q.counted = p.counted ∧ q.held = p.held ∧ q.idle = p.idle)
    (same : q.count = p.count ∧ q.quota = p.quota) : (KindPart.goal q).sound = true :=
  GoalPart.sound_of_counters sound counters (by rw [same.1, same.2]; exact (p.sound_iff.mp sound).2)

/-- A part that starts with its quota counted down by nothing. -/
theorem GoalPart.sound_of_fresh {p q : GoalPart} (sound : (KindPart.goal p).sound = true)
    (counters : q.pieceTotal = p.pieceTotal ∧ q.counted = p.counted ∧ q.held = p.held ∧ q.idle = p.idle)
    (fresh : q.count = (q.quota : Int)) : (KindPart.goal q).sound = true :=
  GoalPart.sound_of_counters sound counters (by rw [fresh]; omega)

theorem GoalPart.opening_sound {p : GoalPart} (sound : (KindPart.goal p).sound = true) :
    (KindPart.goal p.opening.relit).sound = true :=
  GoalPart.sound_of_fresh sound ⟨rfl, rfl, rfl, rfl⟩ rfl

theorem GoalPart.evaluated_sound {p : GoalPart} (sound : (KindPart.goal p).sound = true) (phase : Phase) :
    (KindPart.goal (p.evaluated phase)).sound = true := by
  unfold GoalPart.evaluated
  dsimp only
  split
  · split
    · exact GoalPart.sound_of_fresh sound ⟨rfl, rfl, rfl, rfl⟩ rfl
    · exact sound
  · split
    · exact sound
    · exact GoalPart.sound_of_same sound ⟨rfl, rfl, rfl, rfl⟩ ⟨rfl, rfl⟩
  · exact GoalPart.sound_of_same sound ⟨rfl, rfl, rfl, rfl⟩ ⟨rfl, rfl⟩

theorem GoalPart.closedBy_sound {p : GoalPart} (sound : (KindPart.goal p).sound = true) (incomplete : Bool) :
    (KindPart.goal (p.closedBy incomplete)).sound = true := by
  have closed : (KindPart.goal (p.closedWith incomplete)).sound = true :=
    GoalPart.sound_of_same sound ⟨rfl, rfl, rfl, rfl⟩ ⟨rfl, rfl⟩
  cases reopens : p.reopenWanted with
  | true => rw [GoalPart.closedBy_reopens reopens]; exact GoalPart.opening_sound closed
  | false => rw [GoalPart.closedBy_stays reopens]; exact closed

/-- A counted piece is one more of the counted pieces, and keeps the count in its range (R120, R122). -/
theorem GoalPart.afterPiece_count (lost : Bool) {p : GoalPart} (low : -255 ≤ p.count) (high : p.count ≤ p.quota) :
    let q := p.afterPiece lost
    q.pieceTotal = p.pieceTotal ∧ q.counted = p.counted + 1 ∧ q.held = p.held ∧ q.idle = p.idle ∧ -255 ≤ q.count
      ∧ q.count ≤ q.quota := by
  refine GoalPart.afterPiece_cases (C := fun q => q.pieceTotal = p.pieceTotal ∧ q.counted = p.counted + 1 ∧ q.held = p.held
    ∧ q.idle = p.idle ∧ -255 ≤ q.count ∧ q.count ≤ q.quota) ?_ ?_ ?_
  · intros; exact ⟨rfl, rfl, rfl, rfl, low, high⟩
  · intros
    refine ⟨rfl, rfl, rfl, rfl, ?_, ?_⟩
    · simp
    · simp
  · intro above _
    refine ⟨rfl, rfl, rfl, rfl, ?_, ?_⟩
    · simp only; omega
    · show p.count - 1 ≤ (p.quota : Int); omega

theorem GoalPart.afterPieces_count (lost : Bool) (n : Nat) : ∀ {p : GoalPart}, -255 ≤ p.count → p.count ≤ p.quota →
    let q := GoalPart.afterPieces lost n p
    q.pieceTotal = p.pieceTotal ∧ q.counted = p.counted + BitVec.ofNat 16 n ∧ q.held = p.held ∧ q.idle = p.idle
      ∧ -255 ≤ q.count ∧ q.count ≤ q.quota := by
  induction n with
  | zero => intro p low high; exact ⟨rfl, (BitVec.add_zero _).symm, rfl, rfl, low, high⟩
  | succ n ih =>
    intro p low high
    obtain ⟨total, counted, held, idle, low', high'⟩ := GoalPart.afterPiece_count lost low high
    obtain ⟨total', counted', held', idle', range⟩ := ih low' high'
    refine ⟨total'.trans total, ?_, held'.trans held, idle'.trans idle, range⟩
    refine counted'.trans ?_
    rw [counted, BitVec.add_assoc]
    congr 1
    rw [BitVec.add_comm, BitVec.ofNat_add]
    rfl

/-- A delta attributed accounts for each of its pieces once (R120). -/
theorem GoalPart.attributed_sound {p : GoalPart} (sound : (KindPart.goal p).sound = true) (held lost : Bool) (delta : Nat) :
    (KindPart.goal (GoalPart.afterPieces lost (p.counting held delta) (p.attributed held delta))).sound = true := by
  rw [GoalPart.sound_iff] at sound
  obtain ⟨total, low, high⟩ := sound
  obtain ⟨total', counted', held', idle', low', high'⟩ :=
    GoalPart.afterPieces_count lost (p.counting held delta) (p := p.attributed held delta) low high
  rw [GoalPart.sound_iff]
  refine ⟨?_, low', high'⟩
  rw [total', counted', held', idle']
  cases closed : p.window == .closed <;> cases stands : held
  all_goals simp only [GoalPart.attributed, GoalPart.counting, closed, total, Bool.not_true, Bool.not_false, Bool.false_and,
    Bool.true_and, Bool.or_true, Bool.or_false, Bool.false_eq_true, if_true, if_false, BitVec.add_zero]
  all_goals bv_omega

section
variable {s : State} (h : tableSound s.elems)
include h

@[simp] theorem State.relightGoal_keepsTable (i : Index) : tableSound (s.relightGoal i).elems :=
  State.table_of_elem h (fun j => s.elem_relightGoal i j) fun _ _ => GoalPart.onGoal_follows fun _ _ sound =>
    GoalPart.sound_of_same sound ⟨rfl, rfl, rfl, rfl⟩ ⟨rfl, rfl⟩

theorem State.modGoal_keepsTable {i : Index} {f : GoalPart → GoalPart}
    (sound : ∀ p, (KindPart.goal p).sound = true → (KindPart.goal (f p)).sound = true) : tableSound (s.modGoal i f).elems :=
  State.table_of_elem h (fun j => s.elem_modGoal i j f) fun _ _ => GoalPart.onGoal_follows fun p _ => sound p

@[simp] theorem State.evaluateGoal_keepsTable (i : Index) : tableSound (s.evaluateGoal i).elems :=
  State.table_of_elem h (fun j => s.elem_evaluateGoal i j) fun _ _ => GoalPart.onGoal_follows fun _ _ sound =>
    GoalPart.evaluated_sound sound _

theorem State.endClosing_keepsTable {i : Index} {p : GoalPart} (goal : s.goalAt i = some p) (failed : Bool) :
    tableSound (s.endClosing i failed).elems := by
  obtain ⟨r, stands, part⟩ := State.goal_some goal
  rw [((State.Handled.refl stands).endClosing part failed rfl).elems]
  refine State.table_setElem h stands ⟨rfl, fun before => ?_⟩
  rw [ElementRecord.sound_iff] at before ⊢
  exact ⟨before.1, before.2.1, GoalPart.closedBy_sound (part ▸ before.2.2) _⟩

@[simp] theorem State.goalPolled_keepsTable (i : Index) (role : PollRole) (delta : Nat) (restarted : Bool) :
    tableSound (s.goalPolled i role delta restarted).elems := by
  cases goal : s.goalAt i with
  | none => rw [State.goalPolled_none goal]; exact h
  | some p =>
    obtain ⟨r, stands, part⟩ := State.goal_some goal
    rw [State.goalPolled_eq goal]
    have counted := State.Handled.countPieces (p.counting s.held delta)
      ((State.Handled.refl stands).setGoal (p.attributed s.held delta)) rfl rfl rfl
    rw [(counted.goalEnded rfl role restarted rfl rfl).elems]
    refine State.table_setElem h stands ⟨rfl, fun before => ?_⟩
    rw [ElementRecord.sound_iff] at before ⊢
    refine ⟨before.1, before.2.1, ?_⟩
    have pieces := GoalPart.attributed_sound (part ▸ before.2.2) s.held
    refine GoalPart.sound_of_same (p := if _ then _ else _) ?_ ⟨rfl, rfl, rfl, rfl⟩ ⟨rfl, rfl⟩
    split
    · exact GoalPart.closedBy_sound (pieces _ _) _
    · exact pieces _ _

@[simp] theorem State.goalFailed_keepsTable (i : Index) (op : BusOp) : tableSound (s.goalFailed i op).elems := by
  unfold State.goalFailed
  split
  · exact State.modGoal_keepsTable h fun _ sound => GoalPart.sound_of_same sound ⟨rfl, rfl, rfl, rfl⟩ ⟨rfl, rfl⟩
  · split
    · next goal =>
      split
      · exact State.endClosing_keepsTable h goal true
      · exact h
    · exact h
  all_goals exact h

@[simp] theorem State.clearGoal_keepsTable (i : Index) : tableSound (s.clearGoal i).elems :=
  State.relightGoal_keepsTable (State.modGoal_keepsTable h fun p _ => by
    rw [GoalPart.sound_iff]
    refine ⟨rfl, ?_, ?_⟩
    all_goals simp only [GoalPart.cleared]; omega) i

/-! ## Stations -/

theorem State.modStation_keepsTable {i : Index} {f : StationPart → StationPart}
    (sound : ∀ p, p.accrual ≤ 9 → (f p).accrual ≤ 9) : tableSound (s.modStation i f).elems :=
  State.table_of_elem h (fun j => s.elem_modStation i j f) fun _ _ => StationPart.onStation_follows fun p _ before => by
    rw [StationPart.sound_iff] at before ⊢
    exact sound p before

theorem State.setStation_keepsTable {i : Index} {p : StationPart} (range : p.accrual ≤ 9) :
    tableSound (s.setStation i p).elems := State.setPart_keepsTable h (p.sound_iff.mpr range)

@[simp] theorem State.relightStation_keepsTable (i : Index) : tableSound (s.relightStation i).elems := by
  unfold State.relightStation
  dsimp only
  repeat' split
  · exact h
  · next p station _ =>
    simp only [State.askLamp_frame]
    exact State.setStation_keepsTable h (p.sound_iff.mp (State.station_sound h station))
  · exact h

@[simp] theorem State.holderChanged_keepsTable (i : Index) : tableSound (s.holderChanged i).elems :=
  State.relightStation_keepsTable (State.modStation_keepsTable h fun _ _ => Nat.zero_le _) i

@[simp] theorem State.resyncStationLamp_keepsTable (i : Index) : tableSound (s.resyncStationLamp i).elems := by
  unfold State.resyncStationLamp
  repeat' split
  · next p station _ =>
    simp only [State.askLamp_frame]
    exact State.setStation_keepsTable h (p.sound_iff.mp (State.station_sound h station))
  · exact h
  · exact h

@[simp] theorem State.evaluateStation_keepsTable (i : Index) : tableSound (s.evaluateStation i).elems := by
  unfold State.evaluateStation
  dsimp only
  repeat' split
  · exact h
  · exact State.setStation_keepsTable h (Nat.zero_le _)
  · exact h

@[simp] theorem State.evaluateWindows_keepsTable : tableSound s.evaluateWindows.elems := by
  refine State.eachIndex_keeps (P := fun t => tableSound t.elems) (fun i t kept => by simp [kept]) ?_
  exact State.eachIndex_keeps (P := fun t => tableSound t.elems) (fun i t kept => by simp [kept]) h

@[simp] theorem State.trespassTest_keepsTable (i : Index) : tableSound (s.trespassTest i).elems := by
  unfold State.trespassTest
  repeat' split
  · next p station _ =>
    simp only [State.raiseElement_frame]
    refine State.modSticky_keepsTable ?_ i _
    exact State.setStation_keepsTable h (p.sound_iff.mp (State.station_sound h station))
  · exact h
  · exact h

@[simp] theorem State.accrue_keepsTable (i : Index) : tableSound (s.accrue i).elems := by
  unfold State.accrue
  repeat' split
  · simpa using State.setStation_keepsTable h (Nat.zero_le _)
  · next below => exact State.setStation_keepsTable h (by simp only; omega)
  all_goals exact h

@[simp] theorem State.stationTenth_keepsTable (i : Index) : tableSound (s.stationTenth i).elems :=
  State.accrue_keepsTable (State.trespassTest_keepsTable h i) i

@[simp] theorem State.stationPolled_keepsTable (i : Index) (occupied restarted : Bool) :
    tableSound (s.stationPolled i occupied restarted).elems := by
  refine State.resyncStationLamp_keepsTable (State.trespassTest_keepsTable (State.modStation_keepsTable h ?_) i) i
  exact fun _ range => range

@[simp] theorem State.stationFailed_keepsTable (i : Index) (op : BusOp) : tableSound (s.stationFailed i op).elems := by
  unfold State.stationFailed
  split
  · exact State.modStation_keepsTable h fun _ range => range
  all_goals exact h

@[simp] theorem State.clearStation_keepsTable (i : Index) : tableSound (s.clearStation i).elems :=
  State.modStation_keepsTable h fun _ _ => Nat.zero_le _

/-! ## Claims -/

@[simp] theorem State.depart_keepsTable (i : Index) (notice : ClaimNotice) : tableSound (s.depart i notice).elems := by
  unfold State.depart
  split
  · exact State.holderChanged_keepsTable (by simp [h]) i
  · exact h

@[simp] theorem State.leaveList_keepsTable (i : Index) (k : Slot) : tableSound (s.leaveList i k).elems := by
  simp [State.leaveList, h]

@[simp] theorem State.vacate_keepsTable (k : Slot) (cause : VacateCause) : tableSound (s.vacate k cause).elems := by
  unfold State.vacate
  refine List.foldlRecOn (motive := fun t : State => tableSound t.elems) _ _ ?_ (fun t kept i _ => by simp [kept])
  split <;> simp [h]

@[simp] theorem State.grant_keepsTable (k : Slot) (i : Index) : tableSound (s.grant k i).elems := by
  unfold State.grant
  simp only [State.answerNow_frame]
  refine State.holderChanged_keepsTable ?_ i
  simp only [State.raiseClaim_frame]
  refine State.modClaim_keepsTable ?_ i _
  split <;> simp [h]

@[simp] theorem State.claimRelation_keepsTable (k : Slot) (i : Index) (r : ElementRecord) :
    tableSound (s.claimRelation k i r).elems := by
  unfold State.claimRelation State.claimFree State.claimHeld
  repeat' split
  all_goals simp [h]

@[simp] theorem State.claimOn_keepsTable (k : Slot) (element : Byte) : tableSound (s.claimOn k element).elems := by
  unfold State.claimOn
  repeat' split
  all_goals simp [h]

@[simp] theorem State.releaseOn_keepsTable (k : Slot) (element : Byte) : tableSound (s.releaseOn k element).elems := by
  unfold State.releaseOn
  repeat' split
  all_goals simp [h]

@[simp] theorem State.cancelOn_keepsTable (k : Slot) : tableSound (s.cancelOn k).elems := by
  unfold State.cancelOn
  repeat' split
  all_goals simp [h]

@[simp] theorem State.expire_keepsTable (i : Index) : tableSound (s.expire i).elems := by
  unfold State.expire
  split
  · split
    · refine State.depart_keepsTable ?_ i _
      split <;> simp [h]
    · exact h
  · exact h

@[simp] theorem State.claimTenth_keepsTable (i : Index) : tableSound (s.claimTenth i).elems := by
  unfold State.claimTenth
  dsimp only
  repeat' split
  all_goals simp [h]

@[simp] theorem State.emptyClaims_keepsTable : tableSound s.emptyClaims.elems := by
  unfold State.emptyClaims
  simp only [State.raiseClaim_frame]
  refine State.eachIndex_keeps (P := fun t => tableSound t.elems) (fun i t kept => ?_) h
  unfold State.emptyClaim
  dsimp only
  split <;> simp [kept]

/-- A robot request handed on keeps the table sound when its owner does. -/
theorem State.handOn_keepsTable (k : Slot) (number : BitVec 4) (q : RobotRequest) {owner : State → State}
    (owned : ∀ t : State, tableSound t.elems → tableSound (owner t).elems) : tableSound (s.handOn k number q owner).elems := by
  unfold State.handOn
  split
  · exact owned _ (by simpa using h)
  · exact h

/-! ## Robots, holds and ends -/

@[simp] theorem State.dropRobot_keepsTable (k : Slot) : tableSound (s.dropRobot k).elems := by
  unfold State.dropRobot
  dsimp only
  split <;> simp [h]

@[simp] theorem State.rosterCycle_keepsTable : tableSound s.rosterCycle.elems := by
  refine State.eachSlot_keeps (P := fun t => tableSound t.elems) (fun k t kept => ?_) (by simpa using h)
  unfold State.checkDrop State.checkSilence
  dsimp only
  repeat' split
  all_goals simp -implicitDefEqProofs [kept]

@[simp] theorem State.pushHold_keepsTable (cause : HoldCause) (detail : Option Byte) :
    tableSound (s.pushHold cause detail).elems := by
  refine State.askStopAll_keepsTable ?_
  exact State.eachIndex_keeps (P := fun t => tableSound t.elems) (fun i t kept => by simp [kept]) (by simpa using h)

@[simp] theorem State.requestPush_keepsTable (q : PushRequest) : tableSound (s.requestPush q).elems := by
  unfold State.requestPush
  repeat' split
  all_goals simp [h]

@[simp] theorem State.pushPending_keepsTable : tableSound s.pushPending.elems := by
  unfold State.pushPending
  split <;> simp -implicitDefEqProofs [h]

@[simp] theorem State.stackEmptied_keepsTable : tableSound s.stackEmptied.elems := by
  unfold State.stackEmptied
  split
  · exact h
  · exact State.eachIndex_keeps (P := fun t => tableSound t.elems) (fun i t kept => by simp [kept]) h

@[simp] theorem State.holdForFault_keepsTable (i : Index) (asks : Bool) : tableSound (s.holdForFault i asks).elems := by
  unfold State.holdForFault
  split <;> simp [h]

@[simp] theorem State.handReading_keepsTable (i : Index) (role : PollRole) (reading : Reading) (delta : Nat) (restarted : Bool) :
    tableSound (s.handReading i role reading delta restarted).elems := by
  unfold State.handReading
  split <;> simp [h]

@[simp] theorem State.pollCompleted_keepsTable (i : Index) (role : PollRole) (epoch : Byte) (reading : Reading) :
    tableSound (s.pollCompleted i role epoch reading).elems := by
  unfold State.pollCompleted
  split
  · next r stands =>
    have polled : tableSound (s.setElem i (some (r.polled epoch reading))).elems :=
      State.table_setElem h stands ⟨rfl, fun before => by
        rw [ElementRecord.sound_iff] at before ⊢
        exact ⟨before.1, Nat.zero_le _, before.2.2⟩⟩
    dsimp only
    refine State.holdForFault_keepsTable ?_ _ _
    rw [(State.setDue_frame _ i).2.2.2.1]
    exact State.handReading_keepsTable (by simpa using polled) _ _ _ _ _
  · exact h

@[simp] theorem State.driveCompleted_keepsTable (i : Index) (op : BusOp) : tableSound (s.driveCompleted i op).elems := by
  have cleared : tableSound (s.modElem i fun r => { r with failures := 0 }).elems :=
    State.modElem_keepsTable h fun r => ⟨rfl, fun before => by
      rw [ElementRecord.sound_iff] at before ⊢
      exact ⟨before.1, Nat.zero_le _, before.2.2⟩⟩
  unfold State.driveCompleted
  dsimp only
  split
  · exact State.gateDriven_keepsTable cleared i
  all_goals exact cleared

@[simp] theorem State.handFailure_keepsTable (i : Index) (k : Kind) (op : BusOp) : tableSound (s.handFailure i k op).elems := by
  unfold State.handFailure
  split <;> simp [h]

omit h in
theorem oneMoreFailure_le (n : Nat) : oneMoreFailure n ≤ 3 := by
  unfold oneMoreFailure
  split <;> omega

@[simp] theorem State.transactionFailed_keepsTable (i : Index) (op : BusOp) : tableSound (s.transactionFailed i op).elems := by
  unfold State.transactionFailed
  split
  · next r stands =>
    have failed : tableSound (s.setElem i (some r.failed)).elems :=
      State.table_setElem h stands ⟨rfl, fun before => by
        rw [ElementRecord.sound_iff] at before ⊢
        exact ⟨before.1, oneMoreFailure_le _, before.2.2⟩⟩
    dsimp only
    refine State.holdForFault_keepsTable ?_ _ _
    have handed (k : Kind) (n : Option ElementNotice) :
        tableSound (((s.setElem i (some r.failed)).raiseElement? i n).handFailure i k op).elems :=
      State.handFailure_keepsTable (by simpa using failed) _ _ _
    split
    · rw [(State.setDue_frame _ i).2.2.2.1]
      exact handed _ _
    all_goals exact handed _ _
  · exact h

@[simp] theorem State.endWith_keepsTable (i : Index) (op : BusOp) (r : BusResult) : tableSound (s.endWith i op r).elems := by
  unfold State.endWith
  repeat' split
  all_goals simp [h]

@[simp] theorem State.replied_keepsTable (f : InFlight) (frame : List Byte) : tableSound (s.replied f frame).elems := by
  unfold State.replied
  repeat' split
  all_goals simp [h]

@[simp] theorem State.timedOut_keepsTable (f : InFlight) : tableSound (s.timedOut f).elems := by
  unfold State.timedOut
  repeat' split
  all_goals simp [h]

end

end Sys2Proof.Machine

/-! The field table stays sound: definitions, the match clock and every step. -/
namespace Sys2Proof.Machine

/-! ## Definitions (R3 to R6) -/

/-- The kind part that a DEFINE-ELEMENT starts is sound. -/
theorem kindPartOf_sound {k : Kind} {bytes : List Byte} {part : KindPart} (codes : kindPartOf k bytes = some part) :
    part.sound = true := by
  unfold kindPartOf at codes
  split at codes
  · split at codes
    · split at codes
      · obtain rfl := Option.some.inj codes
        rw [GoalPart.sound_iff]
        refine ⟨rfl, ?_, Int.le_refl _⟩
        simp only [goalStart]; omega
      · cases codes
    · cases codes
  · split at codes
    · split at codes
      · obtain rfl := Option.some.inj codes
        exact (StationPart.sound_iff _).mpr (Nat.zero_le _)
      · cases codes
    · cases codes
  · split at codes
    · obtain rfl := Option.some.inj codes; rfl
    · cases codes
  · split at codes
    · split at codes
      · obtain rfl := Option.some.inj codes; rfl
      · cases codes
    · cases codes
  · cases codes

/-- The record that a DEFINE-ELEMENT asks for is sound (Table 1-2). -/
theorem recordOf_sound {f : ElementFields} {i : Index} {r : ElementRecord} (asks : recordOf f = some (i, r)) : r.sound = true := by
  unfold recordOf at asks
  split at asks
  · split at asks
    · cases asks
    · next address =>
      split at asks
      · cases asks
      · split at asks
        · cases asks
        · split at asks
          · cases asks
          · split at asks
            · next codes =>
              obtain ⟨rfl, rfl⟩ := Prod.mk.inj (Option.some.inj asks)
              rw [ElementRecord.sound_iff]
              exact ⟨by simp only; omega, Nat.zero_le _, kindPartOf_sound codes⟩
            · cases asks
  · cases asks

/-- The node addresses that other indices use, as a property of each (Table 1-2). -/
theorem State.addressTaken_false {s : State} {i : Index} {address : Byte} (free : s.addressTaken i address = false) (j : Index)
    (other : j ≠ i) : (s.elem j).map (·.address) ≠ some address := by
  unfold State.addressTaken at free
  rw [List.any_eq_false] at free
  have unused := free j (List.mem_finRange j)
  intro used
  cases stands : s.elem j with
  | none => rw [stands] at used; cases used
  | some r => rw [stands] at used unused; simp_all

section
variable {s : State} (h : tableSound s.elems)
include h

/-- A sound record with an address that no other index uses. -/
theorem State.table_redefined {i : Index} {q : ElementRecord} (sound : q.sound = true)
    (free : ∀ j, j ≠ i → (s.elem j).map (·.address) ≠ some q.address) : tableSound (s.setElem i (some q)).elems := by
  obtain ⟨records, apart⟩ := h
  have elem (j : Index) : (s.elems.set i.val (some q))[j.val] = if j = i then some q else s.elem j := s.elem_setElem i j (some q)
  refine ⟨fun j => ?_, fun j k other here => ?_⟩
  · rw [State.setElem_elems, elem]
    split
    · exact sound
    · exact records j
  · rw [State.setElem_elems, elem] at here ⊢
    rw [elem]
    by_cases first : j = i
    · subst first
      rw [if_pos rfl, if_neg other.symm]
      exact fun same => free k other.symm same.symm
    · rw [if_neg first] at here ⊢
      by_cases second : k = i
      · subst second
        rw [if_pos rfl]
        exact free j first
      · rw [if_neg second]
        exact apart j k other here

theorem State.table_removed (i : Index) : tableSound (s.setElem i none).elems := by
  obtain ⟨records, apart⟩ := h
  have elem (j : Index) : (s.elems.set i.val none)[j.val] = if j = i then none else s.elem j := s.elem_setElem i j none
  refine ⟨fun j => ?_, fun j k other here => ?_⟩
  · rw [State.setElem_elems, elem]
    split
    · rfl
    · exact records j
  · rw [State.setElem_elems, elem] at here ⊢
    rw [elem]
    by_cases first : j = i
    · rw [if_pos first] at here; cases here
    · rw [if_neg first] at here ⊢
      by_cases second : k = i
      · rw [if_pos second]
        cases stands : s.elem j with
        | none => rw [stands] at here; cases here
        | some r => simp
      · rw [if_neg second]
        exact apart j k other here

theorem State.define_keepsTable {i : Index} {r : ElementRecord} (sound : r.sound = true)
    (free : s.addressTaken i r.address = false) : tableSound (s.define i r).elems := by
  have put : tableSound ((if (s.elem i).isSome then s.putAway i else s).setElem i (some r)).elems := by
    have kept : (if (s.elem i).isSome then s.putAway i else s).elems = s.elems := by
      split
      · exact (State.putAway_spec s i).2.2.2.2.2.2.2.2.1
      · rfl
    refine State.table_redefined (by rw [kept]; exact h) sound fun j other => ?_
    rw [State.elem_congr kept]
    exact State.addressTaken_false free j other
  simpa [State.define] using put

@[simp] theorem State.undefine_keepsTable (i : Index) : tableSound (s.undefine i).elems := by
  have kept : (s.putAway i).elems = s.elems := (State.putAway_spec s i).2.2.2.2.2.2.2.2.1
  simpa [State.undefine] using State.table_removed (s := s.putAway i) (by rw [kept]; exact h) i

/-! ## The match clock -/

@[simp] theorem State.startMatch_keepsTable : tableSound s.startMatch.elems := by
  unfold State.startMatch
  exact State.evaluateWindows_keepsTable (by simpa using h)

@[simp] theorem State.enterEnded_keepsTable (cause : PhaseCause) : tableSound (s.enterEnded cause).elems := by
  unfold State.enterEnded
  simp only [State.awaitFinal_frame]
  refine State.evaluateWindows_keepsTable ?_
  simp only [State.robotsToReady_frame]
  exact State.emptyClaims_keepsTable (by simpa using h)

@[simp] theorem State.enterNext_keepsTable (p : Phase) (remaining : Nat) : tableSound (s.enterNext p remaining).elems :=
  State.evaluateWindows_keepsTable (by simpa using h)

@[simp] theorem State.reportClear_keepsTable : tableSound s.reportClear.elems := by
  unfold State.reportClear
  dsimp only
  have goals : tableSound (s.clearTally.eachIndex fun i u => u.clearGoal i).elems :=
    State.eachIndex_keeps (P := fun t => tableSound t.elems) (fun i t kept => by simp [kept]) (by simpa using h)
  have stations := State.eachIndex_keeps (P := fun t => tableSound t.elems) (f := fun i u => u.clearStation i)
    (fun i t kept => by simp [kept]) goals
  have flags := State.eachIndex_keeps (P := fun t => tableSound t.elems) (f := fun i u => u.modSticky i Sticky.afterClearMatch)
    (fun i t kept => by simp [kept]) (s := (State.eachIndex _ fun i u => u.clearStation i).clearEjections) (by simpa using stations)
  exact State.eachIndex_keeps (P := fun t => tableSound t.elems) (fun i t kept => by simp [kept]) (by simpa using flags)

@[simp] theorem State.clearMatch_keepsTable : tableSound s.clearMatch.elems := by
  unfold State.clearMatch
  exact State.reportClear_keepsTable (by simpa using h)

@[simp] theorem State.runOut_keepsTable : tableSound s.runOut.elems := by
  unfold State.runOut
  split <;> simp [h]

@[simp] theorem State.handTenth_keepsTable : tableSound s.handTenth.elems := by
  unfold State.handTenth
  refine State.eachIndex_keeps (P := fun t => tableSound t.elems) (fun i t kept => by simp [kept]) ?_
  refine State.eachSlot_keeps (P := fun t => tableSound t.elems) (fun k t kept => by simpa using kept) ?_
  exact State.eachIndex_keeps (P := fun t => tableSound t.elems) (fun i t kept => by simp [kept]) h

@[simp] theorem State.matchTenth_keepsTable : tableSound s.matchTenth.elems := by
  unfold State.matchTenth
  dsimp only
  split <;> simp -implicitDefEqProofs [h]

/-! ## The uplink and the passing of time -/

@[simp] theorem State.passRequest_keepsTable (k : Slot) (number : BitVec 4) (q : RobotRequest) :
    tableSound (s.passRequest k number q).elems := by
  refine State.handOn_keepsTable h k number q fun t kept => ?_
  split <;> simp [kept]

@[simp] theorem State.deliver_keepsTable (window : Window) (frame : List Byte) : tableSound (s.deliver window frame).elems := by
  unfold State.deliver State.takeSlotFrame State.takeJoin
  dsimp only
  repeat' split
  all_goals simp -implicitDefEqProofs [h]

theorem State.slice_keepsTable : tableSound s.slice.elems := by
  refine tableSound_of_follows h fun j => ?_
  have elem : s.slice.elems[j.val] = (s.elem j).map ElementRecord.tick := by simp [State.slice, State.elem]
  rw [elem]
  show _ = s.elem j ∨ ∃ r q, s.elem j = some r ∧ _
  cases s.elem j with
  | none => exact .inl rfl
  | some r =>
    refine .inr ⟨r, r.tick, rfl, rfl, ?_⟩
    unfold ElementRecord.tick
    split
    · exact ElementRecord.follows_part fun _ => rfl
    all_goals exact ⟨rfl, id⟩

/-! ## Requests -/

theorem defineOwner_keepsTable (fields : ElementFields) : tableSound (defineOwner fields s).state.elems := by
  unfold defineOwner
  split
  · exact h
  · split
    · exact h
    · split
      · exact h
      · next asks =>
        split
        · exact h
        · next free => exact State.define_keepsTable h (recordOf_sound asks) (by simpa using free)

theorem setQuotaOwner_keepsTable (index quota : Byte) : tableSound (setQuotaOwner index quota s).state.elems := by
  unfold setQuotaOwner
  split
  · exact h
  · split
    · exact h
    · next stands =>
      split
      · next p part =>
        refine State.setPart_keepsTable h ?_
        have sound := part ▸ State.part_sound h stands
        unfold GoalPart.withQuota
        split
        · exact GoalPart.sound_of_fresh sound ⟨rfl, rfl, rfl, rfl⟩ rfl
        all_goals exact GoalPart.sound_of_same sound ⟨rfl, rfl, rfl, rfl⟩ ⟨rfl, rfl⟩
      all_goals exact h

theorem setWindowOwner_keepsTable (index control : Byte) : tableSound (setWindowOwner index control s).state.elems := by
  unfold setWindowOwner
  split
  · split
    · exact h
    · next stands =>
      split
      · next p part =>
        have sound := part ▸ State.part_sound h stands
        rw [taken_state]
        refine State.evaluateGoal_keepsTable ?_ _
        refine State.setPart_keepsTable h ?_
        exact GoalPart.sound_of_same sound ⟨rfl, rfl, rfl, rfl⟩ ⟨rfl, rfl⟩
      · next p part =>
        have sound := part ▸ State.part_sound h stands
        rw [taken_state]
        refine State.evaluateStation_keepsTable ?_ _
        exact State.setStation_keepsTable h (p.sound_iff.mp sound)
      all_goals exact h
  · exact h

theorem setLampOwner_keepsTable (index mode : Byte) : tableSound (setLampOwner index mode s).state.elems := by
  unfold setLampOwner
  split
  · split
    · exact h
    · next stands =>
      split
      · next p part =>
        have sound := part ▸ State.part_sound h stands
        split
        · exact h
        · rw [taken_state]
          refine State.relightGoal_keepsTable ?_ _
          refine State.setPart_keepsTable h ?_
          exact GoalPart.sound_of_same sound ⟨rfl, rfl, rfl, rfl⟩ ⟨rfl, rfl⟩
      · next p part =>
        have sound := part ▸ State.part_sound h stands
        split
        · exact h
        · rw [taken_state]
          refine State.relightStation_keepsTable ?_ _
          exact State.setStation_keepsTable h (p.sound_iff.mp sound)
      all_goals exact h
  · exact h

end

theorem owner_keepsTable {i : Instr} {owner : State → Answered} (request : ownerOf i = some owner) {s : State}
    (h : tableSound s.elems) : tableSound (owner s).state.elems := by
  cases i
  all_goals simp only [ownerOf, Option.some.injEq, reduceCtorEq] at request
  all_goals subst request
  case defineElement => exact defineOwner_keepsTable h _
  case setQuota => exact setQuotaOwner_keepsTable h _ _
  case setWindow => exact setWindowOwner_keepsTable h _ _
  case setLamp => exact setLampOwner_keepsTable h _ _
  case identify | readMatch | resetPart => exact h
  case arm =>
    unfold armOwner
    repeat' split
    · exact h
    · exact h
    · rw [taken_state]
      refine State.evaluateWindows_keepsTable ?_
      simp only [State.setPhase_frame, State.setMch_elems]
      exact h
  case sheet mode order =>
    unfold sheetOwner State.sheetReply
    repeat' split
    all_goals simp [h]
  case driveCarriage index command direction =>
    unfold driveCarriageOwner State.setGoing State.setCarriage
    repeat' split
    all_goals simp [h]
  all_goals
    dsimp only [setNoticesOwner, setTimingOwner, removeOwner, assignOwner, unassignOwner, startOwner, endMatchOwner,
      clearMatchOwner, holdOwner, resumeOwner, benchOwner, reinstateOwner, ejectOwner, signalOwner, setGateOwner, readElementOwner,
      readRobotOwner, adjustOwner, sheetStopOwner]
    repeat' split
    all_goals simp -implicitDefEqProofs (maxDischargeDepth := 4) [h]

theorem exec_keepsTable (i : Instr) (s : State) (frame : isHostFrame i = false) (h : tableSound s.elems) :
    Leads (exec i s) (fun t => tableSound t.elems) := by
  cases request : ownerOf i with
  | some owner =>
    exact request_keeps (P := fun t => tableSound t.elems) (fun _ k => by simpa using k) (fun _ _ _ _ _ k => by simpa using k)
      (fun _ k => by simpa using k) request (fun _ k => owner_keepsTable request k) h
  | none =>
    cases i
    case hostFrame => exact Bool.noConfusion frame
    all_goals simp only [ownerOf, reduceCtorEq] at request
    all_goals refine leads_next ?_
    case powerOnReset => exact resetIsSound.2.2.2.2.2.2.2.2.2
    case lineReset => exact resetIsSound.2.2.2.2.2.2.2.2.2
    case resetPartEffect =>
      split
      · exact resetIsSound.2.2.2.2.2.2.2.2.2
      · exact h
    case outboundFrameSent =>
      repeat' split
      · exact resetIsSound.2.2.2.2.2.2.2.2.2
      · simpa using h
      · exact h
    case claim => exact State.handOn_keepsTable h _ _ _ fun _ kept => by simp [kept]
    case release => exact State.handOn_keepsTable h _ _ _ fun _ kept => by simp [kept]
    case cancel => exact State.handOn_keepsTable h _ _ _ fun _ kept => by simp [kept]
    case act => exact State.handOn_keepsTable h _ _ _ fun _ kept => by simp [kept]
    case ackSignal => exact State.handOn_keepsTable h _ _ _ fun _ kept => by simp [kept]
    case cycleStart => simp -implicitDefEqProofs [h]
    case robotSilent k =>
      dsimp only
      split <;> simp [h]
    case drop k =>
      dsimp only
      split <;> simp [h]
    all_goals
      repeat' split
      all_goals simp -implicitDefEqProofs [h]

/-- Settles O59: every command and the passing of time keep the field table sound. -/
theorem stepKeepsTheFieldTable : Obligations.StepKeepsTheFieldTable := fun _ _ h stepped =>
  step_keeps (P := fun t => tableSound t.elems) (fun _ _ k => by simpa using k)
    (refused_keeps (fun _ k => by simpa using k) (fun _ _ _ _ _ k => by simpa using k)) exec_keepsTable (fun _ _ k => k)
    (fun _ k => State.slice_keepsTable k) h stepped

end Sys2Proof.Machine

/-! The transaction queue and the pending marks stay sound. -/
namespace Sys2Proof.Machine

/-! ## A queue with places still to hand on -/

/-- `Ebc.sound` while `n` freed places are still to be handed on: with a mark set, the queue is full but for those places. -/
def Ebc.soundBut (e : Ebc) (n : Nat) : Prop :=
  e.ordered ∧ (e.anyMark = true → 31 ≤ e.ordinary + n) ∧ (∀ i, e.single i) ∧ ∀ i, e.marksApart i

theorem Ebc.sound_iff (e : Ebc) : e.sound ↔ e.soundBut 0 := by
  unfold Ebc.sound Ebc.soundBut
  refine and_congr_right fun ordered => and_congr_left fun _ => imp_congr_right fun _ => ?_
  have := ordered.1
  omega

theorem Ebc.anyMark_iff (e : Ebc) : e.anyMark = true ↔ ∃ i : Index, e.sched[i.val].marked = true := by
  unfold Ebc.anyMark
  rw [List.any_eq_true]
  constructor
  · rintro ⟨c, here, marked⟩
    obtain ⟨n, bound, rfl⟩ := List.mem_iff_getElem.mp here
    exact ⟨⟨n, by simpa using bound⟩, by simpa using marked⟩
  · rintro ⟨i, marked⟩
    exact ⟨_, by simp, marked⟩

theorem Ebc.soundBut_more {e : Ebc} {n : Nat} (h : e.soundBut n) (m : Nat) : e.soundBut (n + m) := by
  obtain ⟨ordered, marks, rest⟩ := h
  exact ⟨ordered, fun marked => by have := marks marked; omega, rest⟩

/-- A change of marks that sets none. -/
def Sched.marksWithin (c d : Sched) : Prop :=
  ((c.pollDue || c.closingWanted) = true → (d.pollDue || d.closingWanted) = true) ∧ (c.lampSync = true → d.lampSync = true)
    ∧ (c.carriageSync = true → d.carriageSync = true)

theorem Sched.marksWithin_refl (c : Sched) : c.marksWithin c := ⟨id, id, id⟩

theorem Sched.marked_of_within {c d : Sched} (within : c.marksWithin d) (marked : c.marked = true) : d.marked = true := by
  obtain ⟨polls, lamp, carriage⟩ := within
  simp only [Sched.marked, Bool.or_eq_true] at marked polls ⊢
  rcases marked with ((poll | closing) | sync) | sync
  · exact .inl (.inl (polls (.inl poll)))
  · exact .inl (.inl (polls (.inr closing)))
  · exact .inl (.inr (lamp sync))
  · exact .inr (carriage sync)

/-- Fewer entries and fewer marks: the places of the entries that left are still to be handed on. -/
theorem Ebc.soundBut_sublist {e e' : Ebc} {n m : Nat} (h : e.soundBut n) (queue : e'.queue.Sublist e.queue)
    (age : e'.nextAge = e.nextAge) (marks : ∀ i : Index, e'.sched[i.val].marksWithin e.sched[i.val])
    (places : e.ordinary ≤ e'.ordinary + m) : e'.soundBut (n + m) := by
  obtain ⟨⟨room, stops, sorted, young⟩, full, single, apart⟩ := h
  have absent {p : Entry → Bool} (none_ : e.queue.any p = false) : e'.queue.any p = false := by
    rw [List.any_eq_false] at none_ ⊢
    exact fun x here => none_ x (queue.subset here)
  refine ⟨⟨(queue.countP_le).trans room, (queue.countP_le).trans stops, sorted.sublist queue, fun x here => ?_⟩, fun marked => ?_,
    fun i => ?_, fun i => ?_⟩
  · rw [age]; exact young x (queue.subset here)
  · obtain ⟨i, marked⟩ := e'.anyMark_iff.mp marked
    have := full (e.anyMark_iff.mpr ⟨i, Sched.marked_of_within (marks i) marked⟩)
    omega
  · obtain ⟨poll, lamp, motion⟩ := single i
    exact ⟨(queue.countP_le).trans poll, (queue.countP_le).trans lamp, (queue.countP_le).trans motion⟩
  · obtain ⟨poll, lamp, carriage⟩ := apart i
    obtain ⟨polls, lamps, carriages⟩ := marks i
    exact ⟨fun mark => absent (poll (polls mark)), fun mark => absent (lamp (lamps mark)),
      fun mark => absent (carriage (carriages mark))⟩

/-- What an entry keeps when it takes part in a merge: its place, age, element and origin, and the kind of its operation. -/
structure Entry.Like (y x : Entry) : Prop where
  age : y.age = x.age
  element : y.element = x.element
  origin : y.origin = x.origin
  isStop : y.isStop = x.isStop
  isPoll : y.isPoll = x.isPoll
  isLamp : y.isLamp = x.isLamp
  isMotion : y.isMotion = x.isMotion

theorem Entry.Like.refl (x : Entry) : x.Like x := ⟨rfl, rfl, rfl, rfl, rfl, rfl, rfl⟩

theorem Entry.Like.isFor {x y : Entry} (like : y.Like x) (i : Index) : y.isFor i = x.isFor i := by
  rw [Entry.isFor, Entry.isFor, like.element]

theorem Entry.Like.isCarriageDrive {x y : Entry} (like : y.Like x) (i : Index) : y.isCarriageDrive i = x.isCarriageDrive i := by
  rw [Entry.isCarriageDrive, Entry.isCarriageDrive, like.isMotion, like.isFor, like.origin]

/-- Entries changed one by one in what a merge may change. -/
theorem Ebc.soundBut_map {e : Ebc} {n : Nat} (h : e.soundBut n) {f : Entry → Entry} (like : ∀ x, (f x).Like x) :
    Ebc.soundBut { e with queue := e.queue.map f } n := by
  obtain ⟨⟨room, stops, sorted, young⟩, full, single, apart⟩ := h
  have count {p : Entry → Bool} (same : ∀ x, p (f x) = p x) : (e.queue.map f).countP p = e.queue.countP p := by
    rw [List.countP_map]
    exact congrArg (e.queue.countP ·) (funext same)
  have absent {p : Entry → Bool} (same : ∀ x, p (f x) = p x) : (e.queue.map f).any p = e.queue.any p := by
    rw [List.any_map]
    exact congrArg e.queue.any (funext same)
  have polls (i : Index) (x : Entry) : ((f x).isPoll && (f x).isFor i) = (x.isPoll && x.isFor i) := by
    rw [(like x).isPoll, (like x).isFor]
  have lamps (i : Index) (x : Entry) : ((f x).isLamp && (f x).isFor i) = (x.isLamp && x.isFor i) := by
    rw [(like x).isLamp, (like x).isFor]
  have motions (i : Index) (x : Entry) : ((f x).isMotion && (f x).isFor i) = (x.isMotion && x.isFor i) := by
    rw [(like x).isMotion, (like x).isFor]
  have places : (e.queue.map f).countP (fun x => !x.isStop) = e.ordinary := count fun x => by rw [(like x).isStop]
  refine ⟨⟨places.trans_le room, (count fun x => (like x).isStop).trans_le stops, ?_, fun y here => ?_⟩, fun marked => ?_,
    fun i => ?_, fun i => ?_⟩
  · rw [List.pairwise_map]
    exact sorted.imp fun {a b} older => by rw [(like a).age, (like b).age]; exact older
  · obtain ⟨x, there, rfl⟩ := List.mem_map.mp here
    rw [(like x).age]
    exact young x there
  · exact (full marked).trans_eq (congrArg (· + n) places.symm)
  · obtain ⟨poll, lamp, motion⟩ := single i
    exact ⟨(count (polls i)).trans_le poll, (count (lamps i)).trans_le lamp, (count (motions i)).trans_le motion⟩
  · obtain ⟨poll, lamp, carriage⟩ := apart i
    exact ⟨fun mark => (absent (polls i)).trans (poll mark), fun mark => (absent (lamps i)).trans (lamp mark),
      fun mark => (absent fun x => (like x).isCarriageDrive i).trans (carriage mark)⟩

/-! ## Entries -/

/-- The queue and the marks of an element leave room for an entry of an operation. -/
def Ebc.takes (e : Ebc) (i : Index) : BusOp → Prop
  | .poll _ => (e.sched[i.val].pollDue || e.sched[i.val].closingWanted) = false
      ∧ e.queue.any (fun x => x.isPoll && x.isFor i) = false
  | .lamp _ => e.sched[i.val].lampSync = false ∧ e.queue.any (fun x => x.isLamp && x.isFor i) = false
  | .motion _ => e.sched[i.val].carriageSync = false ∧ e.queue.any (fun x => x.isMotion && x.isFor i) = false
  | .stopAll => False

theorem countP_entered {q : List Entry} {x : Entry} {i j : Index} {p : Entry → Bool} (element : x.element = some i)
    (absent : p x = true → q.any (fun y => p y && y.isFor i) = false) (before : q.countP (fun y => p y && y.isFor j) ≤ 1) :
    (q ++ [x]).countP (fun y => p y && y.isFor j) ≤ 1 := by
  rw [List.countP_append, List.countP_singleton]
  split
  · next here =>
    rw [Bool.and_eq_true, Entry.isFor, element, beq_iff_eq, Option.some.injEq] at here
    obtain ⟨kind, rfl⟩ := here
    have none_ : q.countP (fun y => p y && y.isFor i) = 0 := by
      rw [List.countP_eq_zero]
      exact List.any_eq_false.mp (absent kind)
    omega
  · exact before

theorem any_entered {q : List Entry} {x : Entry} {p : Entry → Bool} (before : q.any p = false) (other : p x = false) :
    (q ++ [x]).any p = false := by
  rw [List.any_append, before]
  simp [other]

/-- An entry for an element enters: it takes a place. -/
theorem Ebc.soundBut_enter {e : Ebc} {n : Nat} (h : e.soundBut (n + 1)) (room : e.ordinary < 31) {i : Index} {op : BusOp}
    (takes : e.takes i op) (now : Nat) (cls : TxClass) (origin : Origin) : (e.enter now (some i) op cls origin).soundBut n := by
  obtain ⟨⟨_, stops, sorted, young⟩, full, single, apart⟩ := h
  obtain ⟨x, new⟩ : ∃ x : Entry, x = ⟨e.nextAge, now, some i, op, cls, origin⟩ := ⟨_, rfl⟩
  have element : x.element = some i := by rw [new]
  have age : x.age = e.nextAge := by rw [new]
  have ordinary : x.isStop = false := by
    cases op
    case stopAll => exact takes.elim
    all_goals rw [new]; rfl
  have poll : x.isPoll = true → (e.sched[i.val].pollDue || e.sched[i.val].closingWanted) = false
      ∧ e.queue.any (fun y => y.isPoll && y.isFor i) = false := by
    subst new
    intro kind
    cases op
    case poll => exact takes
    all_goals exact Bool.noConfusion kind
  have lamp : x.isLamp = true → e.sched[i.val].lampSync = false ∧ e.queue.any (fun y => y.isLamp && y.isFor i) = false := by
    subst new
    intro kind
    cases op
    case lamp => exact takes
    all_goals exact Bool.noConfusion kind
  have motion : x.isMotion = true → e.sched[i.val].carriageSync = false
      ∧ e.queue.any (fun y => y.isMotion && y.isFor i) = false := by
    subst new
    intro kind
    cases op
    case motion => exact takes
    all_goals exact Bool.noConfusion kind
  have queue : (e.enter now (some i) op cls origin).queue = e.queue ++ [x] := by rw [new]; rfl
  have apartNow {p : Entry → Bool} {j : Index} {mark : Bool} (kind : p x = true → j = i → mark = false)
      (before : mark = true → e.queue.any (fun y => p y && y.isFor j) = false) (stands : mark = true) :
      (e.queue ++ [x]).any (fun y => p y && y.isFor j) = false := by
    refine any_entered (before stands) ?_
    by_cases here : j = i
    · cases mine : p x with
      | false => rfl
      | true => rw [kind mine here] at stands; cases stands
    · rw [Entry.isFor, element]
      simp [Ne.symm here]
  refine ⟨⟨?_, ?_, ?_, ?_⟩, fun marked => ?_, fun j => ?_, fun j => ?_⟩
  · rw [Ebc.ordinary, queue, List.countP_append, List.countP_singleton, ordinary]
    exact room
  · rw [queue, List.countP_append, List.countP_singleton, ordinary]
    exact stops
  · rw [queue, List.pairwise_append]
    refine ⟨sorted, List.pairwise_singleton .., fun y here z last => ?_⟩
    rw [List.mem_singleton.mp last, age]
    exact young y here
  · rw [queue]
    intro y here
    show y.age < e.nextAge + 1
    rcases List.mem_append.mp here with there | last
    · exact Nat.lt_succ_of_lt (young y there)
    · rw [List.mem_singleton.mp last, age]; exact Nat.lt_succ_self _
  · have := full marked
    rw [Ebc.ordinary, queue, List.countP_append, List.countP_singleton, ordinary]
    simp only [Ebc.ordinary] at this
    simp only [Bool.not_false, if_true]
    omega
  · obtain ⟨polls, lamps, motions⟩ := single j
    rw [Ebc.single, queue]
    exact ⟨countP_entered element (fun kind => (poll kind).2) polls, countP_entered element (fun kind => (lamp kind).2) lamps,
      countP_entered element (fun kind => (motion kind).2) motions⟩
  · obtain ⟨polls, lamps, carriages⟩ := apart j
    rw [Ebc.marksApart, queue]
    refine ⟨apartNow (fun kind here => here ▸ (poll kind).1) polls, apartNow (fun kind here => here ▸ (lamp kind).1) lamps, ?_⟩
    intro mark
    refine any_entered (carriages mark) ?_
    by_cases here : j = i
    · cases mine : x.isMotion with
      | false => rw [Entry.isCarriageDrive, mine]; rfl
      | true => subst here; rw [show e.sched[j.val].carriageSync = true from mark] at motion; cases (motion mine).1
    · rw [Entry.isCarriageDrive, Entry.isFor, element]
      simp [Ne.symm here]

/-- A mark may be set when the queue is full and no transaction of its kind is queued for the element. -/
theorem Ebc.soundBut_mark {e : Ebc} {n : Nat} (h : e.soundBut n) (full : 31 ≤ e.ordinary + n) {i : Index} {c : Sched}
    (poll : (c.pollDue || c.closingWanted) = true → e.queue.any (fun x => x.isPoll && x.isFor i) = false)
    (lamp : c.lampSync = true → e.queue.any (fun x => x.isLamp && x.isFor i) = false)
    (carriage : c.carriageSync = true → e.queue.any (fun x => x.isCarriageDrive i) = false) :
    Ebc.soundBut { e with sched := e.sched.set i.val c } n := by
  obtain ⟨ordered, _, single, apart⟩ := h
  refine ⟨ordered, fun _ => full, single, fun j => ?_⟩
  unfold Ebc.marksApart
  simp only [getElem_set_fin]
  split
  · next here => subst here; exact ⟨poll, lamp, carriage⟩
  · exact apart j

/-- A STOP_ALL enters when none is queued. -/
theorem Ebc.soundBut_stop {e : Ebc} {n : Nat} (h : e.soundBut n) (none_ : e.queue.any Entry.isStop = false) (now : Nat) :
    (e.enter now none .stopAll .safety .internal).soundBut n := by
  obtain ⟨⟨room, _, sorted, young⟩, full, single, apart⟩ := h
  have stops : e.queue.countP Entry.isStop = 0 := List.countP_eq_zero.mpr (List.any_eq_false.mp none_)
  refine ⟨⟨?_, ?_, ?_, ?_⟩, fun marked => ?_, fun j => ?_, fun j => ?_⟩
  · simpa [Ebc.ordinary, Ebc.enter, Entry.isStop] using room
  · simp [Ebc.enter, Entry.isStop, stops]
  · show (e.queue ++ [_]).Pairwise _
    rw [List.pairwise_append]
    refine ⟨sorted, List.pairwise_singleton .., fun y here z last => ?_⟩
    rw [List.mem_singleton.mp last]
    exact young y here
  · intro y here
    show y.age < e.nextAge + 1
    rcases List.mem_append.mp here with there | last
    · exact Nat.lt_succ_of_lt (young y there)
    · rw [List.mem_singleton.mp last]; exact Nat.lt_succ_self _
  · simpa [Ebc.ordinary, Ebc.enter, Entry.isStop] using full marked
  · simpa [Ebc.single, Ebc.enter, Entry.isPoll, Entry.isLamp, Entry.isMotion] using single j
  · simpa [Ebc.marksApart, Ebc.enter, Entry.isPoll, Entry.isLamp, Entry.isMotion, Entry.isCarriageDrive] using apart j

end Sys2Proof.Machine

/-! The operations of the element bus keep the transaction queue and the pending marks sound. -/
namespace Sys2Proof.Machine

/-! ## The queue and the kinds of the elements -/

/-- A queued MOTION fits its element's kind (R97). -/
def State.fits (s : State) (e : Entry) : Prop :=
  ∀ m, e.op = .motion m → ∃ i, e.element = some i ∧ match m with
    | .gate _ => (s.gateAt i).isSome = true ∧ e.origin ≠ .internal
    | .carriage _ => (s.carriageAt i).isSome = true ∧ e.origin = .internal

/-- The queue and the marks, while `n` freed places are still to be handed on. -/
def State.busBut (s : State) (n : Nat) : Prop := s.ebc.soundBut n ∧ s.motionsFit

theorem State.motionsFit_iff (s : State) : s.motionsFit ↔
    (∀ e ∈ s.ebc.queue, s.fits e) ∧ ∀ i, (s.sched i).carriageSync = true → (s.carriageAt i).isSome = true := Iff.rfl

theorem State.bus_iff (s : State) : s.ebc.sound ∧ s.motionsFit ↔ s.busBut 0 := and_congr_left fun _ => s.ebc.sound_iff

/-- Kinds of records that stay. -/
def State.sameKinds (s t : State) : Prop := ∀ i, (t.elem i).map (·.part.kind) = (s.elem i).map (·.part.kind)

theorem State.gateAt_isSome (s : State) (i : Index) : (s.gateAt i).isSome = true ↔ (s.elem i).map (·.part.kind) = some .gate := by
  rw [State.gateAt_eq]
  cases s.elem i with
  | none => simp
  | some r => cases part : r.part <;> simp [part, KindPart.kind]

theorem State.carriageAt_isSome (s : State) (i : Index) :
    (s.carriageAt i).isSome = true ↔ (s.elem i).map (·.part.kind) = some .carriage := by
  rw [State.carriageAt_eq]
  cases s.elem i with
  | none => simp
  | some r => cases part : r.part <;> simp [part, KindPart.kind]

theorem State.sameKinds_carriage {s t : State} (kinds : s.sameKinds t) (i : Index) :
    (t.carriageAt i).isSome = true ↔ (s.carriageAt i).isSome = true := by
  rw [State.carriageAt_isSome, State.carriageAt_isSome, kinds i]

theorem State.sameKinds_gate {s t : State} (kinds : s.sameKinds t) (i : Index) :
    (t.gateAt i).isSome = true ↔ (s.gateAt i).isSome = true := by
  rw [State.gateAt_isSome, State.gateAt_isSome, kinds i]

theorem State.fits_congr {s t : State} (kinds : s.sameKinds t) {e : Entry} (fits : s.fits e) : t.fits e := by
  intro m op
  obtain ⟨i, element, kind⟩ := fits m op
  refine ⟨i, element, ?_⟩
  cases m with
  | gate _ => exact ⟨(State.sameKinds_gate kinds i).mpr kind.1, kind.2⟩
  | carriage _ => exact ⟨(State.sameKinds_carriage kinds i).mpr kind.1, kind.2⟩

theorem State.sameKinds_of_elems {s t : State} (elems : t.elems = s.elems) : s.sameKinds t := fun i => by
  rw [State.elem_congr elems]

/-- A bus with another queue that fits and with no new carriage-sync marks. -/
theorem State.busBut_of {s t : State} {n m : Nat} (h : s.busBut n) (sound : t.ebc.soundBut m) (kinds : s.sameKinds t)
    (queue : ∀ e ∈ t.ebc.queue, e ∈ s.ebc.queue ∨ t.fits e)
    (marks : ∀ i, (t.sched i).carriageSync = true → (s.sched i).carriageSync = true ∨ (t.carriageAt i).isSome = true) :
    t.busBut m := by
  obtain ⟨_, fits, synced⟩ := h
  refine ⟨sound, fun e here => ?_, fun i mark => ?_⟩
  · rcases queue e here with there | new
    · exact State.fits_congr kinds (fits e there)
    · exact new
  · rcases marks i mark with before | carriage
    · exact (State.sameKinds_carriage kinds i).mpr (synced i before)
    · exact carriage

/-- Whatever leaves the queue, the marks, the ages and the kinds as they are. -/
theorem State.busBut_congr {s t : State} {n : Nat} (h : s.busBut n) (queue : t.ebc.queue = s.ebc.queue)
    (age : t.ebc.nextAge = s.ebc.nextAge) (marks : ∀ i, (t.sched i).marksWithin (s.sched i)) (kinds : s.sameKinds t) :
    t.busBut n := by
  refine State.busBut_of h (m := n) ?_ kinds (fun e here => .inl (queue ▸ here)) fun i mark => .inl ((marks i).2.2 mark)
  refine Ebc.soundBut_sublist (m := 0) h.1 (by rw [queue]) age marks (Nat.le_of_eq ?_)
  rw [Ebc.ordinary, Ebc.ordinary, queue]
  rfl

section
variable {s : State}

/-! ## Entries and marks -/

theorem State.enter_busBut {n : Nat} (h : s.busBut (n + 1)) (room : s.ebc.ordinary < 31) {i : Index} {op : BusOp}
    (takes : s.ebc.takes i op) (cls : TxClass) {origin : Origin}
    (fits : ∀ age at_, s.fits { age := age, enteredAt := at_, element := some i, op := op, cls := cls, origin := origin }) :
    (s.enter (some i) op cls origin).busBut n := by
  refine State.busBut_of h (Ebc.soundBut_enter h.1 room takes s.now cls origin) (fun _ => rfl) (fun e here => ?_) fun _ => .inl
  rcases List.mem_append.mp here with there | last
  · exact .inl there
  · rw [List.mem_singleton.mp last]; exact .inr (fits _ _)

/-- Only a MOTION has to fit. -/
theorem State.fits_of_other {e : Entry} (other : e.isMotion = false) : s.fits e := by
  intro m op
  rw [Entry.isMotion, op] at other
  cases other

theorem Ebc.unmarked_of_room {e : Ebc} (room : e.noRoom = false) (i : Index) : e.sched[i.val].pollDue = false
    ∧ e.sched[i.val].closingWanted = false ∧ e.sched[i.val].lampSync = false ∧ e.sched[i.val].carriageSync = false := by
  have unmarked := (e.noRoom_false.mp room).2 i
  simpa [Sched.marked, and_assoc] using unmarked

/-- Without room the queue is full, whether or not a mark stands. -/
theorem State.full_of_noRoom {n : Nat} (h : s.busBut n) (none_ : s.ebc.noRoom = true) : 31 ≤ s.ebc.ordinary + n := by
  rw [Ebc.noRoom, Bool.or_eq_true] at none_
  rcases none_ with full | marked
  · exact Nat.le_add_right_of_le (of_decide_eq_true (p := 31 ≤ s.ebc.ordinary) full)
  · exact h.1.2.1 marked

theorem State.mapQueue_busBut {n : Nat} (h : s.busBut n) {f : Entry → Entry} (like : ∀ x, (f x).Like x)
    (fits : ∀ x, s.fits x → s.fits (f x)) : (s.mapQueue f).busBut n := by
  have ⟨sound, stand, _⟩ := h
  refine State.busBut_of h (Ebc.soundBut_map sound like) (fun _ => rfl) (fun e here => .inr ?_) fun _ => .inl
  obtain ⟨x, there, rfl⟩ := List.mem_map.mp here
  exact fits x (stand x there)

theorem Entry.isPoll_iff (e : Entry) : e.isPoll = true ↔ ∃ role, e.op = .poll role := by
  rw [Entry.isPoll]
  cases e.op <;> simp

theorem Entry.isLamp_iff (e : Entry) : e.isLamp = true ↔ ∃ on, e.op = .lamp on := by
  rw [Entry.isLamp]
  cases e.op <;> simp

theorem Entry.isMotion_iff (e : Entry) : e.isMotion = true ↔ ∃ m, e.op = .motion m := by
  rw [Entry.isMotion]
  cases e.op <;> simp

/-- Another operation of the same kind. -/
theorem Entry.like_of_code {x : Entry} {op : BusOp} (same : op.code = x.op.code) (cls : TxClass) :
    Entry.Like { x with op := op, cls := cls } x := by
  obtain ⟨age, at_, element, old, _, origin⟩ := x
  have kind : op.code = old.code := same
  refine ⟨rfl, rfl, rfl, ?_, ?_, ?_, ?_⟩
  all_goals
    cases op <;> cases old
    all_goals simp [BusOp.code, Entry.isStop, Entry.isPoll, Entry.isLamp, Entry.isMotion] at kind ⊢

/-- A merge changes what a property picks out. -/
theorem Entry.like_ite {p : Entry → Bool} {f : Entry → Entry} (like : ∀ x, p x = true → (f x).Like x) (x : Entry) :
    Entry.Like (if p x then f x else x) x := by
  split
  · next here => exact like x here
  · exact Entry.Like.refl x

theorem State.fits_ite {p : Entry → Bool} {f : Entry → Entry} (fits : ∀ x, p x = true → s.fits x → s.fits (f x)) (x : Entry)
    (h : s.fits x) : s.fits (if p x then f x else x) := by
  split
  · next here => exact fits x here h
  · exact h

theorem State.modSched_busBut {n : Nat} (h : s.busBut n) {i : Index} {f : Sched → Sched}
    (marks : (f (s.sched i)).marksWithin (s.sched i)) : (s.modSched i f).busBut n := by
  refine State.busBut_congr h rfl rfl (fun j => ?_) fun _ => rfl
  rw [State.sched_modSched]
  split
  · next here => subst here; exact marks
  · exact Sched.marksWithin_refl _

/-- A mark may be set when the queue is full. -/
theorem State.mark_busBut {n : Nat} (h : s.busBut n) (full : 31 ≤ s.ebc.ordinary + n) {i : Index} {f : Sched → Sched}
    (poll : ((f (s.sched i)).pollDue || (f (s.sched i)).closingWanted) = true →
      s.ebc.queue.any (fun x => x.isPoll && x.isFor i) = false)
    (lamp : (f (s.sched i)).lampSync = true → s.ebc.queue.any (fun x => x.isLamp && x.isFor i) = false)
    (carriage : (f (s.sched i)).carriageSync = true → s.ebc.queue.any (fun x => x.isCarriageDrive i) = false
      ∧ (s.carriageAt i).isSome = true) : (s.modSched i f).busBut n := by
  refine State.busBut_of h (Ebc.soundBut_mark h.1 full poll lamp fun mark => (carriage mark).1) (fun _ => rfl) (fun _ => .inl)
    fun j mark => ?_
  rw [State.sched_modSched] at mark
  split at mark
  · next here => subst here; exact .inr (carriage mark).2
  · exact .inl mark

/-! ## Asks (R92, R96 to R98) -/

theorem State.askLamp_busBut (h : s.busBut 0) (i : Index) (on : Bool) : (s.askLamp i on).busBut 0 := by
  obtain ⟨_, lamps, carriages⟩ := h.1.2.2.2 i
  unfold State.askLamp
  split
  · refine State.mapQueue_busBut h (Entry.like_ite fun x here => ?_) (State.fits_ite fun x here _ => State.fits_of_other rfl)
    obtain ⟨_, op⟩ := x.isLamp_iff.mp (Bool.and_eq_true_iff.mp here).1
    exact Entry.like_of_code (by rw [op]; rfl) x.cls
  · next absent =>
    have absent : s.ebc.queue.any (fun x => x.isLamp && x.isFor i) = false := Bool.eq_false_iff.mpr absent
    split
    · next none_ =>
      have ⟨polls, _, _⟩ := h.1.2.2.2 i
      exact State.mark_busBut h (State.full_of_noRoom h none_) polls (fun _ => absent) fun mark => ⟨carriages mark, h.2.2 i mark⟩
    · next room =>
      have room : s.ebc.noRoom = false := Bool.eq_false_iff.mpr room
      refine State.enter_busBut (n := 0) ⟨Ebc.soundBut_more h.1 1, h.2⟩ (s.ebc.noRoom_false.mp room).1 ?_ _ fun _ _ => State.fits_of_other rfl
      exact ⟨(Ebc.unmarked_of_room room i).2.2.1, absent⟩

/-- An INTERNAL carriage MOTION of the element. -/
theorem Entry.isCarriageDrive_iff (e : Entry) (i : Index) :
    e.isCarriageDrive i = true ↔ (∃ m, e.op = .motion m) ∧ e.element = some i ∧ e.origin = .internal := by
  rw [Entry.isCarriageDrive, Bool.and_eq_true, Bool.and_eq_true, Entry.isMotion_iff, Entry.isFor, beq_iff_eq, beq_iff_eq, and_assoc]

/-- A carriage's queued MOTIONs are all INTERNAL. -/
theorem State.noMotion_of_noDrive {n : Nat} (h : s.busBut n) {i : Index} (carriage : (s.carriageAt i).isSome = true)
    (none_ : s.ebc.queue.any (fun x => x.isCarriageDrive i) = false) :
    s.ebc.queue.any (fun x => x.isMotion && x.isFor i) = false := by
  rw [List.any_eq_false] at none_ ⊢
  intro x here found
  refine none_ x here ((x.isCarriageDrive_iff i).mpr ?_)
  obtain ⟨kind, mine⟩ := Bool.and_eq_true_iff.mp found
  have mine : x.element = some i := by simpa [Entry.isFor] using mine
  obtain ⟨m, op⟩ := x.isMotion_iff.mp kind
  obtain ⟨j, element, fits⟩ := h.2.1 x here m op
  obtain rfl := Option.some.inj (mine.symm.trans element)
  refine ⟨⟨m, op⟩, mine, ?_⟩
  cases m with
  | gate _ =>
    rw [State.carriageAt_isSome] at carriage
    have gate := s.gateAt_isSome i |>.mp fits.1
    rw [carriage] at gate
    cases gate
  | carriage _ => exact fits.2

theorem State.askCarriage_busBut (h : s.busBut 0) {i : Index} (carriage : (s.carriageAt i).isSome = true) (speed : Int) :
    (s.askCarriage i speed).busBut 0 := by
  have ⟨polls, lamps, _⟩ := h.1.2.2.2 i
  have fits {age at_ : Nat} {cls : TxClass} : s.fits { age := age, enteredAt := at_, element := some i, op := .motion (.carriage speed), cls := cls, origin := .internal } := by
    intro m op
    obtain rfl := BusOp.motion.inj op
    exact ⟨i, rfl, carriage, rfl⟩
  unfold State.askCarriage
  split
  · refine State.mapQueue_busBut h (Entry.like_ite fun x here => ?_) (State.fits_ite fun x here _ => ?_)
    · obtain ⟨⟨m, op⟩, _, _⟩ := (x.isCarriageDrive_iff i).mp here
      exact Entry.like_of_code (by rw [op]; rfl) x.cls
    · obtain ⟨_, element, origin⟩ := (x.isCarriageDrive_iff i).mp here
      obtain ⟨age, at_, el, op, cls, from_⟩ := x
      obtain rfl : el = some i := element
      obtain rfl : from_ = .internal := origin
      exact fits
  · next absent =>
    have absent : s.ebc.queue.any (fun x => x.isCarriageDrive i) = false := Bool.eq_false_iff.mpr absent
    split
    · next none_ =>
      exact State.mark_busBut h (State.full_of_noRoom h none_) polls lamps fun _ => ⟨absent, carriage⟩
    · next room =>
      have room : s.ebc.noRoom = false := Bool.eq_false_iff.mpr room
      refine State.enter_busBut (n := 0) ⟨Ebc.soundBut_more h.1 1, h.2⟩ (s.ebc.noRoom_false.mp room).1 ?_ _ fun _ _ => fits
      exact ⟨(Ebc.unmarked_of_room room i).2.2.2, State.noMotion_of_noDrive h carriage absent⟩

theorem State.askClosing_busBut (h : s.busBut 0) (i : Index) : (s.askClosing i).busBut 0 := by
  obtain ⟨_, lamps, carriages⟩ := h.1.2.2.2 i
  unfold State.askClosing
  split
  · refine State.mapQueue_busBut h (Entry.like_ite fun x here => ?_) (State.fits_ite fun x here _ => State.fits_of_other rfl)
    obtain ⟨_, op⟩ := x.isPoll_iff.mp (Bool.and_eq_true_iff.mp here).1
    exact Entry.like_of_code (by rw [op]; rfl) .control
  · next absent =>
    have absent : s.ebc.queue.any (fun x => x.isPoll && x.isFor i) = false := Bool.eq_false_iff.mpr absent
    split
    · next none_ =>
      exact State.mark_busBut h (State.full_of_noRoom h none_) (fun _ => absent) lamps fun mark => ⟨carriages mark, h.2.2 i mark⟩
    · next room =>
      have room : s.ebc.noRoom = false := Bool.eq_false_iff.mpr room
      obtain ⟨due, closing, _⟩ := Ebc.unmarked_of_room room i
      refine State.enter_busBut (n := 0) ⟨Ebc.soundBut_more h.1 1, h.2⟩ (s.ebc.noRoom_false.mp room).1 ?_ _ fun _ _ => State.fits_of_other rfl
      exact ⟨by rw [due, closing]; rfl, absent⟩

theorem State.askRefresh_busBut (h : s.busBut 0) (i : Index) : (s.askRefresh i).busBut 0 := by
  obtain ⟨_, lamps, carriages⟩ := h.1.2.2.2 i
  unfold State.askRefresh
  split
  · exact h
  · next absent =>
    have absent : s.ebc.queue.any (fun x => x.isPoll && x.isFor i) = false :=
      (Bool.or_eq_false_iff.mp (Bool.eq_false_iff.mpr absent)).1
    split
    · next none_ =>
      exact State.mark_busBut h (State.full_of_noRoom h none_) (fun _ => absent) lamps fun mark => ⟨carriages mark, h.2.2 i mark⟩
    · next room =>
      have room : s.ebc.noRoom = false := Bool.eq_false_iff.mpr room
      obtain ⟨due, closing, _⟩ := Ebc.unmarked_of_room room i
      refine State.enter_busBut (n := 0) ⟨Ebc.soundBut_more h.1 1, h.2⟩ (s.ebc.noRoom_false.mp room).1 ?_ _ fun _ _ => State.fits_of_other rfl
      exact ⟨by rw [due, closing]; rfl, absent⟩

/-- A gate MOTION that is taken enters (R97, R100). -/
theorem State.enterGate_busBut (h : s.busBut 0) {i : Index} (gate : (s.gateAt i).isSome = true) (asked : s.gateAsk i = .taken)
    (target : GateTarget) {origin : Origin} (outside : origin ≠ .internal) :
    (s.enter (some i) (.motion (.gate target)) .control origin).busBut 0 := by
  unfold State.gateAsk at asked
  split at asked
  · cases asked
  · next absent =>
    split at asked
    · cases asked
    · next room =>
      have room : s.ebc.noRoom = false := Bool.eq_false_iff.mpr room
      refine State.enter_busBut (n := 0) ⟨Ebc.soundBut_more h.1 1, h.2⟩ (s.ebc.noRoom_false.mp room).1 ?_ _
        fun _ _ m op => ?_
      · exact ⟨(Ebc.unmarked_of_room room i).2.2.2, Bool.eq_false_iff.mpr absent⟩
      · obtain rfl := BusOp.motion.inj op
        exact ⟨i, rfl, gate, outside⟩

/-! ## Freed places (R102) -/

theorem State.handOver_busBut {n : Nat} (h : s.busBut (n + 1)) : s.handOver.busBut n := by
  have ⟨⟨ordered, full, single, apart⟩, _, synced⟩ := h
  unfold State.handOver
  split
  · next none_ =>
    exact ⟨⟨ordered, fun _ => Nat.le_add_right_of_le (of_decide_eq_true (p := 31 ≤ s.ebc.ordinary) none_), single, apart⟩, h.2⟩
  · next room =>
    have room : s.ebc.ordinary < 31 :=
      Nat.lt_of_not_le (of_decide_eq_false (p := 31 ≤ s.ebc.ordinary) (Bool.eq_false_iff.mpr room))
    have serve {i : Index} {f : Sched → Sched} {op : BusOp} (cls : TxClass) (within : (f (s.sched i)).marksWithin (s.sched i))
        (takes : (s.modSched i f).ebc.takes i op)
        (fits : ∀ age at_, s.fits { age := age, enteredAt := at_, element := some i, op := op, cls := cls, origin := .internal }) :
        ((s.modSched i f).enter (some i) op cls .internal).busBut n :=
      State.enter_busBut (State.modSched_busBut h within) room takes cls fits
    have mark {i : Index} {f : Sched → Sched} : (s.modSched i f).ebc.sched[i.val] = f (s.sched i) := s.sched_modSched_self i f
    split
    · next i found =>
      have stands := List.find?_some found
      obtain ⟨polls, lamps, carriages⟩ := apart i
      split
      · next closing =>
        refine serve _ ⟨fun not => Bool.noConfusion not, id, id⟩ ⟨by rw [mark]; rfl, polls ?_⟩ fun _ _ => State.fits_of_other rfl
        rw [show s.ebc.sched[i.val].closingWanted = true from closing, Bool.or_true]
      · next closing =>
        have sync : (s.sched i).carriageSync = true := by simpa [closing] using stands
        refine serve _ ⟨id, id, fun not => Bool.noConfusion not⟩ ⟨by rw [mark], ?_⟩ fun _ _ m op => ?_
        · exact State.noMotion_of_noDrive h (synced i sync) (carriages sync)
        · obtain rfl := BusOp.motion.inj op
          exact ⟨i, rfl, synced i sync, rfl⟩
    · next calm =>
      have calm (i : Index) : (s.sched i).closingWanted = false ∧ (s.sched i).carriageSync = false := by
        simpa using List.find?_eq_none.mp calm i (List.mem_finRange i)
      split
      · next i found =>
        have due := List.find?_some found
        obtain ⟨polls, _, _⟩ := apart i
        refine serve _ ⟨fun other => ?_, id, id⟩ ⟨?_, polls ?_⟩ fun _ _ => State.fits_of_other rfl
        · rw [due]; rfl
        · rw [mark]; exact (calm i).1
        · rw [show s.ebc.sched[i.val].pollDue = true from due]; rfl
      · next quiet =>
        split
        · next i found =>
          have sync := List.find?_some found
          obtain ⟨_, lamps, _⟩ := apart i
          exact serve _ ⟨id, fun not => Bool.noConfusion not, id⟩ ⟨by rw [mark], lamps sync⟩ fun _ _ => State.fits_of_other rfl
        · next dark =>
          refine ⟨⟨ordered, fun marked => ?_, single, apart⟩, h.2⟩
          obtain ⟨i, marked⟩ := s.ebc.anyMark_iff.mp marked
          have quiet := List.find?_eq_none.mp quiet i (List.mem_finRange i)
          have dark := List.find?_eq_none.mp dark i (List.mem_finRange i)
          simp only [Sched.marked, Bool.or_eq_true] at marked
          rcases marked with ((poll | closing) | sync) | sync
          · exact absurd poll quiet
          · exact absurd closing (by rw [show s.ebc.sched[i.val].closingWanted = false from (calm i).1]; exact Bool.false_ne_true)
          · exact absurd sync dark
          · exact absurd sync (by rw [show s.ebc.sched[i.val].carriageSync = false from (calm i).2]; exact Bool.false_ne_true)

theorem State.handOverUpTo_busBut (n : Nat) : ∀ {s : State}, s.busBut n → (State.handOverUpTo n s).busBut 0 := by
  induction n with
  | zero => exact fun h => h
  | succ n ih => exact fun h => ih (State.handOver_busBut h)

end

end Sys2Proof.Machine

/-! Discards, STOP_ALL, removals, CLEAR-MATCH and selection keep the transaction queue and the pending marks sound. -/
namespace Sys2Proof.Machine

/-! ## Kinds that stay -/

theorem State.sameKinds_refl (s : State) : s.sameKinds s := fun _ => rfl

theorem State.sameKinds_trans {s t u : State} (first : s.sameKinds t) (then_ : t.sameKinds u) : s.sameKinds u :=
  fun i => (then_ i).trans (first i)

theorem State.setElem_sameKinds {s : State} {i : Index} {r q : ElementRecord} (stands : s.elem i = some r)
    (kind : q.part.kind = r.part.kind) : s.sameKinds (s.setElem i (some q)) := fun j => by
  rw [State.elem_setElem]
  split
  · next here => subst here; rw [stands]; exact congrArg some kind
  · rfl

theorem State.modElem_sameKinds (s : State) (i : Index) {f : ElementRecord → ElementRecord}
    (kind : ∀ r, (f r).part.kind = r.part.kind) : s.sameKinds (s.modElem i f) := fun j => by
  rw [State.elem_modElem]
  split
  · next here => subst here; rw [Option.map_map]; exact congrArg (fun g => Option.map g _) (funext kind)
  · rfl

theorem State.setPart_sameKinds {s : State} {i : Index} {part : KindPart}
    (kind : ∀ r, s.elem i = some r → part.kind = r.part.kind) : s.sameKinds (s.setPart i part) := by
  unfold State.setPart State.modElem
  split
  · next r stands => exact State.setElem_sameKinds stands (kind r stands)
  · exact s.sameKinds_refl

/-- A gate part in place of a gate part. -/
theorem State.setGate_sameKinds {s : State} {i : Index} {p : GatePart} (gate : s.gateAt i = some p) (q : GatePart) :
    s.sameKinds (s.setGate i q) := State.setPart_sameKinds fun r stands => by
  obtain ⟨r', stands', part⟩ := State.gate_some gate
  obtain rfl := Option.some.inj (stands.symm.trans stands')
  rw [part]; rfl

theorem State.setCarriage_sameKinds {s : State} {i : Index} {p : CarriagePart} (carriage : s.carriageAt i = some p)
    (q : CarriagePart) : s.sameKinds (s.setCarriage i q) := State.setPart_sameKinds fun r stands => by
  obtain ⟨r', stands', part⟩ := State.carriage_some carriage
  obtain rfl := Option.some.inj (stands.symm.trans stands')
  rw [part]; rfl

theorem State.gateIdle_sameKinds (s : State) (i : Index) : s.sameKinds (s.gateIdle i) := by
  unfold State.gateIdle
  split
  · next gate => exact State.setGate_sameKinds gate _
  · exact s.sameKinds_refl

theorem State.carriageDriveDiscarded_sameKinds (s : State) (i : Index) : s.sameKinds (s.carriageDriveDiscarded i) := by
  unfold State.carriageDriveDiscarded
  split
  · next carriage =>
    split
    · exact s.sameKinds_refl
    · exact State.setCarriage_sameKinds carriage _
  · exact s.sameKinds_refl

theorem State.motionDiscarded_sameKinds (byStopAll : Bool) (s : State) (e : Entry) :
    s.sameKinds (State.motionDiscarded byStopAll s e) := by
  unfold State.motionDiscarded
  dsimp only
  split
  · split
    · have kinds {k : Slot} {i : Index} {n : BitVec 4} {c : Answer} {d : Option Nat} : s.sameKinds (s.answerLater k i n c d) :=
        State.sameKinds_of_elems (by simp)
      split
      · exact State.sameKinds_trans kinds (State.gateIdle_sameKinds _ _)
      · exact kinds
    · have kinds {i : Index} {n : ElementNotice} : s.sameKinds (s.raiseElement i n) := State.sameKinds_of_elems (by simp)
      split
      · exact State.sameKinds_trans kinds (State.gateIdle_sameKinds _ _)
      · exact kinds
    · split
      · exact State.carriageDriveDiscarded_sameKinds _ _
      · exact s.sameKinds_refl
  · exact s.sameKinds_refl

theorem State.motionDiscarded_fold_sameKinds (byStopAll : Bool) (l : List Entry) :
    ∀ s : State, s.sameKinds (l.foldl (State.motionDiscarded byStopAll) s) := by
  induction l with
  | nil => exact State.sameKinds_refl
  | cons e rest ih => exact fun s => State.sameKinds_trans (State.motionDiscarded_sameKinds _ s e) (ih _)

/-! ## Discards -/

section
variable {s : State}

theorem State.busBut_sublist {n m : Nat} (h : s.busBut n) {queue : List Entry} (fewer : queue.Sublist s.ebc.queue)
    (places : s.ebc.ordinary ≤ queue.countP (fun x => !x.isStop) + m) {t : State}
    (ebc : t.ebc.queue = queue ∧ t.ebc.nextAge = s.ebc.nextAge ∧ t.ebc.sched = s.ebc.sched) (kinds : s.sameKinds t) :
    t.busBut (n + m) := by
  obtain ⟨same, age, sched⟩ := ebc
  refine State.busBut_of h (Ebc.soundBut_sublist h.1 (same ▸ fewer) age (fun i => ?_) ?_) kinds
    (fun e here => .inl (fewer.subset (same ▸ here))) fun i mark => .inl ?_
  · rw [sched]; exact Sched.marksWithin_refl _
  · rw [Ebc.ordinary, Ebc.ordinary, same]; exact places
  · rw [State.sched, sched] at mark; exact mark

theorem State.discard_busBut (h : s.busBut 0) (p : Entry → Bool) (byStopAll : Bool) : (s.discard p byStopAll).busBut 0 := by
  unfold State.discard
  refine State.handOverUpTo_busBut _ ?_
  have ⟨_, ebc, _⟩ := State.motionDiscarded_fold_frame byStopAll (s.ebc.queue.filter p)
    (s.setEbc { s.ebc with queue := s.ebc.queue.filter fun e => !p e })
  have places : s.ebc.ordinary
      ≤ (s.ebc.queue.filter fun e => !p e).countP (fun x => !x.isStop) + (s.ebc.queue.filter p).length := by
    have split := List.countP_eq_countP_filter_add s.ebc.queue (fun x => !x.isStop) p
    have most := List.countP_le_length (p := fun x : Entry => !x.isStop) (l := s.ebc.queue.filter p)
    rw [Ebc.ordinary]
    omega
  have kept := State.busBut_sublist h List.filter_sublist places
    (t := (s.ebc.queue.filter p).foldl (State.motionDiscarded byStopAll)
      (s.setEbc { s.ebc with queue := s.ebc.queue.filter fun e => !p e })) (by rw [ebc]; exact ⟨rfl, rfl, rfl⟩)
    (State.sameKinds_trans (State.sameKinds_of_elems rfl) (State.motionDiscarded_fold_sameKinds _ _ _))
  rwa [Nat.zero_add] at kept

/-! ## Ends of transactions -/

/-- Whatever leaves the queue, the ages, the marks and the records as they are. -/
theorem State.busBut_sameMarks {t : State} {n : Nat} (h : s.busBut n) (queue : t.ebc.queue = s.ebc.queue)
    (age : t.ebc.nextAge = s.ebc.nextAge) (sched : t.ebc.sched = s.ebc.sched) (elems : t.elems = s.elems) : t.busBut n :=
  State.busBut_congr h queue age (fun i => by rw [State.sched, sched]; exact Sched.marksWithin_refl _)
    (State.sameKinds_of_elems elems)

theorem State.endTransaction_busBut {n : Nat} (h : s.busBut n) : s.endTransaction.busBut n :=
  State.busBut_sameMarks h rfl rfl rfl rfl

theorem State.setDue_busBut {n : Nat} (h : s.busBut n) (i : Index) : (s.setDue i).busBut n := by
  unfold State.setDue
  split
  · exact State.modSched_busBut h ⟨id, id, id⟩
  · exact h

theorem State.abandonPoll_busBut (h : s.busBut 0) : s.abandonPoll.busBut 0 := by
  unfold State.abandonPoll
  split
  · split
    · split
      · next i _ _ =>
        have due := State.setDue_busBut (State.endTransaction_busBut h) i
        dsimp only
        split
        · exact State.askClosing_busBut due i
        · exact due
      · exact State.endTransaction_busBut h
    all_goals exact h
  · exact h

theorem State.enterStop_busBut {n : Nat} (h : s.busBut n) (none_ : s.ebc.queue.any Entry.isStop = false) :
    (s.enter none .stopAll .safety .internal).busBut n := by
  refine State.busBut_of h (Ebc.soundBut_stop h.1 none_ s.now) (fun _ => rfl) (fun e here => ?_) fun _ => .inl
  rcases List.mem_append.mp here with there | last
  · exact .inl there
  · rw [List.mem_singleton.mp last]; exact .inr (State.fits_of_other rfl)

theorem State.askStopAll_busBut (h : s.busBut 0) : s.askStopAll.busBut 0 := by
  refine State.discard_busBut ?_ _ _
  split
  · exact h
  · next stands =>
    rw [State.stopAllStands, Bool.or_eq_true, not_or] at stands
    exact State.abandonPoll_busBut (State.enterStop_busBut h (Bool.eq_false_iff.mpr stands.1))

/-! ## Removals and CLEAR-MATCH -/

theorem State.putAway_busBut (h : s.busBut 0) (i : Index) : (s.putAway i).busBut 0 := by
  have unmarked := State.modSched_busBut h (i := i)
    (f := fun c => { c with pollDue := false, closingWanted := false, lampSync := false, carriageSync := false })
    ⟨fun not => Bool.noConfusion not, fun not => Bool.noConfusion not, fun not => Bool.noConfusion not⟩
  have gone := State.discard_busBut unmarked (fun e => e.isFor i) false
  have bus (t : State) : (t.orphan i).ebc.queue = t.ebc.queue ∧ (t.orphan i).ebc.nextAge = t.ebc.nextAge
      ∧ (t.orphan i).ebc.sched = t.ebc.sched := by rw [State.orphan_ebc]; exact ⟨rfl, rfl, rfl⟩
  exact State.busBut_sameMarks gone (bus _).1 (bus _).2.1 (bus _).2.2 (State.orphan_frame _ i).2.2.1

theorem State.clearRoles_busBut (h : s.busBut 0) : s.clearRoles.busBut 0 := by
  unfold State.clearRoles
  refine State.eachIndex_keeps (P := fun t => t.busBut 0) (fun i t kept => ?_) ?_
  · refine State.modSched_busBut kept ?_
    unfold Sched.refreshMark
    split
    · next closing => exact ⟨fun _ => by rw [closing, Bool.or_true], id, id⟩
    · exact Sched.marksWithin_refl _
  · refine State.busBut_sameMarks (State.mapQueue_busBut h (f := s.refreshRole) (fun x => ?_) fun x fits => ?_) rfl rfl rfl rfl
    · unfold State.refreshRole
      split
      · next op => exact Entry.like_of_code (by rw [op]; rfl) _
      all_goals exact Entry.Like.refl x
    · unfold State.refreshRole
      split
      · exact State.fits_of_other rfl
      all_goals exact fits

/-- An element without queued MOTIONs and marks gets another record, or none. -/
theorem State.setElem_busBut (h : s.busBut 0) {i : Index} (x : Option ElementRecord) {c : Sched} (unmarked : c.marked = false)
    (idle : ∀ e ∈ s.ebc.queue, e.isMotion = true → e.element ≠ some i) : ((s.setElem i x).setSched i c).busBut 0 := by
  obtain ⟨sound, fits, synced⟩ := h
  have others {j : Index} (other : j ≠ i) : (s.setElem i x).elem j = s.elem j := by rw [State.elem_setElem, if_neg other]
  simp only [Sched.marked, Bool.or_eq_false_iff] at unmarked
  obtain ⟨⟨⟨due, closing⟩, lamp⟩, carriage⟩ := unmarked
  have sched (j : Index) : (s.ebc.sched.set i.val c)[j.val] = if j = i then c else s.sched j := getElem_set_fin ..
  refine ⟨Ebc.soundBut_sublist (m := 0) sound (List.Sublist.refl _) rfl (fun j => ?_) (Nat.le_refl _), fun e here m op => ?_,
    fun j mark => ?_⟩
  · show Sched.marksWithin (s.ebc.sched.set i.val c)[j.val] _
    rw [sched]
    split
    · exact ⟨by simp [due, closing], by simp [lamp], by simp [carriage]⟩
    · exact Sched.marksWithin_refl _
  · obtain ⟨j, element, kind⟩ := fits e here m op
    have other : j ≠ i := by
      rintro rfl
      exact idle e here (e.isMotion_iff.mpr ⟨m, op⟩) element
    refine ⟨j, element, ?_⟩
    cases m
    all_goals
      simp only [State.gateAt_eq, State.carriageAt_eq, State.elem_setSched, others other] at kind ⊢
      exact kind
  · have mark : (if j = i then c else s.sched j).carriageSync = true := by rw [← sched]; exact mark
    split at mark
    · rw [carriage] at mark; cases mark
    · next other =>
      have stands := synced j mark
      simpa only [State.carriageAt_eq, State.elem_setSched, others other] using stands

/-! ## Selection and the passing of time -/

theorem State.startOnBus_busBut (h : s.busBut 0) (e : Entry) :
    (s.startOnBus e).busBut (if e.isStop then 0 else 1) := by
  have kept := State.busBut_sublist (m := if e.isStop then 0 else 1) h (List.erase_sublist (a := e)) ?_ (t := s.startOnBus e)
    ⟨rfl, rfl, rfl⟩ (fun _ => rfl)
  · rwa [Nat.zero_add] at kept
  · rw [Ebc.ordinary, List.countP_erase]
    cases e.isStop
    · simp only [Bool.not_false, and_true, Bool.false_eq_true, if_false]
      split <;> omega
    · simp

theorem execTransactionSelect_busBut (h : s.busBut 0) : Leads (execTransactionSelect s) (fun t => t.busBut 0) := by
  refine leads_next ?_
  split
  · split
    · next e _ =>
      have started := State.startOnBus_busBut h e
      split
      · next stop => rwa [if_pos stop] at started
      · next other => rw [if_neg other] at started; exact State.handOver_busBut started
    · exact h
  · exact h

/-- A queued refresh poll becomes of class CONTROL (R95). -/
theorem State.overdue_busBut (h : s.busBut 0) (i : Index) :
    (s.mapQueue fun e => if s.overdueFor i e then { e with cls := .control } else e).busBut 0 := by
  refine State.mapQueue_busBut h (Entry.like_ite fun x _ => ⟨rfl, rfl, rfl, rfl, rfl, rfl, rfl⟩)
    (State.fits_ite fun x _ fits => fits)

end

end Sys2Proof.Machine

/-! The claims of the field stay sound, and every robot that holds or waits stays ACTIVE. -/
namespace Sys2Proof.Machine

/-! ## What the claims are made of -/

/-- Claim parts that stay. -/
def State.sameClaims (s t : State) : Prop := ∀ i, (t.elem i).map (·.claim) = (s.elem i).map (·.claim)

theorem State.holder_eq (s : State) (i : Index) : s.holder i = ((s.elem i).map (·.claim)).bind (·.holder) := by
  rw [State.holder, Option.bind_map]
  rfl

theorem State.waiters_eq (s : State) (i : Index) : s.waiters i = (((s.elem i).map (·.claim)).map (·.waiting)).getD [] := by
  rw [State.waiters]
  cases s.elem i <;> rfl

theorem State.claim_sound_eq (s : State) (i : Index) :
    (s.elem i).all (fun r => r.claim.sound) = ((s.elem i).map (·.claim)).all ClaimPart.sound := by
  rw [Option.all_map]

/-- A robot holds nothing and waits on nothing. -/
def State.claimless (s : State) (k : Slot) : Prop := ∀ i, s.holder i ≠ some k ∧ k ∉ s.waiters i

theorem ClaimPart.sound_iff (c : ClaimPart) : c.sound = true ↔ c.waiting.length ≤ 4 ∧ c.waiting.Nodup
    ∧ (∀ k, c.holder = some k → k ∉ c.waiting) ∧ (c.holder = none → c.waiting = []) := by
  unfold ClaimPart.sound
  cases c.holder <;> simp [and_assoc]

section
variable {s t : State}

/-- A robot holds no more than before, but for one element that it takes. -/
theorem State.heldBy_length {i : Index} (others : ∀ j, j ≠ i → t.holder j = s.holder j) (k : Slot) :
    (t.heldBy k).length ≤ (s.heldBy k).length + 1
      ∧ ((t.holder i = some k → s.holder i = some k) → (t.heldBy k).length ≤ (s.heldBy k).length) := by
  constructor
  · have within : t.heldBy k ⊆ i :: s.heldBy k := fun j held => by
      rw [State.mem_heldBy] at held
      by_cases here : j = i
      · rw [here]; exact List.mem_cons_self
      · rw [others j here] at held
        exact List.mem_cons_of_mem _ ((s.mem_heldBy k j).mpr held)
    exact ((t.heldBy_nodup k).subperm within).length_le
  · intro kept
    have within : t.heldBy k ⊆ s.heldBy k := fun j held => by
      rw [State.mem_heldBy] at held ⊢
      by_cases here : j = i
      · rw [here] at held ⊢; exact kept held
      · rwa [others j here] at held
    exact ((t.heldBy_nodup k).subperm within).length_le

/-- One claim part was changed: those who newly wait on it held at most one element and waited on none, and whoever newly holds
it held at most one, and none if he waits elsewhere. -/
theorem State.claimsSound_change (h : s.claimsSound) {i : Index}
    (others : ∀ j, j ≠ i → (t.elem j).map (·.claim) = (s.elem j).map (·.claim))
    (sound : (t.elem i).all (fun r => r.claim.sound) = true)
    (joins : ∀ k, k ∈ t.waiters i → k ∉ s.waiters i → s.waitsOn k = none ∧ (s.heldBy k).length ≤ 1)
    (takes : ∀ k, t.holder i = some k → s.holder i ≠ some k →
      (s.heldBy k).length ≤ 1 ∧ ∀ j, j ≠ i → k ∈ s.waiters j → (s.heldBy k).length = 0) : t.claimsSound := by
  obtain ⟨parts, robots⟩ := h
  have holder (j : Index) (other : j ≠ i) : t.holder j = s.holder j := by rw [State.holder_eq, State.holder_eq, others j other]
  have waiters (j : Index) (other : j ≠ i) : t.waiters j = s.waiters j := by
    rw [State.waiters_eq, State.waiters_eq, others j other]
  have noSelf {k : Slot} (held : t.holder i = some k) : k ∉ t.waiters i := by
    rw [State.holder_eq] at held
    rw [State.claim_sound_eq] at sound
    rw [State.waiters_eq]
    cases claim : (t.elem i).map (·.claim) with
    | none => rw [claim] at held; cases held
    | some c =>
      rw [claim] at held sound
      exact (c.sound_iff.mp sound).2.2.1 k held
  refine ⟨fun j => ?_, fun k => ?_⟩
  · by_cases here : j = i
    · rw [here]; exact sound
    · rw [State.claim_sound_eq, others j here, ← State.claim_sound_eq]; exact parts j
  · obtain ⟨holds, once, waits⟩ := robots k
    obtain ⟨atMost, noMore⟩ := State.heldBy_length holder k
    refine ⟨?_, fun a b first second => ?_, fun a first => ?_⟩
    · by_cases new : t.holder i = some k ∧ s.holder i ≠ some k
      · have := (takes k new.1 new.2).1; omega
      · exact (noMore fun held => Classical.byContradiction fun not => new ⟨held, not⟩).trans holds
    · by_cases old : k ∈ s.waiters i
      · have was (c : Index) (here : k ∈ t.waiters c) : k ∈ s.waiters c := by
          by_cases same : c = i
          · rw [same]; exact old
          · rwa [← waiters c same]
        exact once a b (was a first) (was b second)
      · have only (c : Index) (here : k ∈ t.waiters c) (new : k ∈ t.waiters i) : c = i := by
          by_cases same : c = i
          · exact same
          · exact absurd (waiters c same ▸ here) ((s.waitsOn_none k).mp (joins k new old).1 c)
        by_cases one : a = i
        · rw [one, only b second (one ▸ first)]
        · by_cases two : b = i
          · rw [two]; exact only a first (two ▸ second)
          · exact once a b (waiters a one ▸ first) (waiters b two ▸ second)
    · by_cases new : t.holder i = some k ∧ s.holder i ≠ some k
      · by_cases here : a = i
        · exact absurd (here ▸ first) (noSelf new.1)
        · have := (takes k new.1 new.2).2 a here (waiters a here ▸ first)
          omega
      · refine (noMore fun held => Classical.byContradiction fun not => new ⟨held, not⟩).trans ?_
        by_cases here : a = i
        · subst here
          by_cases old : k ∈ s.waiters a
          · exact waits a old
          · exact (joins k first old).2
        · exact waits a (waiters a here ▸ first)

theorem State.claimsSound_congr (h : s.claimsSound) (same : s.sameClaims t) : t.claimsSound := by
  obtain ⟨parts, robots⟩ := h
  have holder : t.holder = s.holder := funext fun j => by rw [State.holder_eq, State.holder_eq, same j]
  have waiters : t.waiters = s.waiters := funext fun j => by rw [State.waiters_eq, State.waiters_eq, same j]
  have held (k : Slot) : t.heldBy k = s.heldBy k := by unfold State.heldBy; rw [holder]
  refine ⟨fun j => ?_, fun k => ?_⟩
  · rw [State.claim_sound_eq, same j, ← State.claim_sound_eq]; exact parts j
  · obtain ⟨holds, once, waits⟩ := robots k
    rw [State.robotClaimsSound, held, waiters]
    exact ⟨holds, once, waits⟩

/-- Those who hold or wait held or waited before, or are ACTIVE in a match. -/
theorem State.claimantsActive_of (h : s.claimantsActive)
    (each : ∀ i k, t.holder i = some k ∨ k ∈ t.waiters i →
      (s.holder i = some k ∨ k ∈ s.waiters i) ∨ (s.robot k).state = .active ∧ s.mch.phase.inMatch = true)
    (stays : ∀ k, (s.robot k).state = .active → ¬ t.claimless k → (t.robot k).state = .active)
    (phase : s.mch.phase.inMatch = true → t.mch.phase.inMatch = true) : t.claimantsActive := by
  intro i k claims
  have claimant : ¬ t.claimless k := fun none_ => claims.elim (none_ i).1 (none_ i).2
  rcases each i k claims with before | ⟨active, playing⟩
  · obtain ⟨active, playing⟩ := h i k before
    exact ⟨stays k active claimant, phase playing⟩
  · exact ⟨stays k active claimant, phase playing⟩

theorem State.claimantsActive_congr (h : s.claimantsActive) (same : s.sameClaims t)
    (stays : ∀ k, (s.robot k).state = .active → ¬ t.claimless k → (t.robot k).state = .active)
    (phase : s.mch.phase.inMatch = true → t.mch.phase.inMatch = true) : t.claimantsActive := by
  refine State.claimantsActive_of h (fun i k claims => .inl ?_) stays phase
  rwa [State.holder_eq, State.waiters_eq, same i, ← State.holder_eq, ← State.waiters_eq] at claims

/-- Outside a match nobody holds or waits. -/
theorem State.claimless_of_phase (h : s.claimantsActive) (outside : s.mch.phase.inMatch = false) (k : Slot) : s.claimless k := by
  intro i
  constructor
  · intro held
    have := (h i k (.inl held)).2
    rw [outside] at this; cases this
  · intro waits
    have := (h i k (.inr waits)).2
    rw [outside] at this; cases this

theorem State.claimantsActive_of_none (none_ : ∀ k, t.claimless k) : t.claimantsActive :=
  fun i k claims => (claims.elim (none_ k i).1 (none_ k i).2).elim

theorem State.claimless_congr {k : Slot} (h : s.claimless k) (same : s.sameClaims t) : t.claimless k := fun i => by
  rw [State.holder_eq, State.waiters_eq, same i, ← State.holder_eq, ← State.waiters_eq]
  exact h i

/-- A claim part changed at one index. -/
theorem State.modClaim_claim (i : Index) (f : ClaimPart → ClaimPart) (j : Index) :
    ((s.modClaim i f).elem j).map (·.claim) = if j = i then ((s.elem i).map (·.claim)).map f else (s.elem j).map (·.claim) := by
  rw [State.elem_modClaim]
  split
  · rw [Option.map_map, Option.map_map]; rfl
  · rfl

/-! ## Departures, lists and grants -/

theorem ClaimPart.passOn_sound {c : ClaimPart} (h : c.sound = true) : c.passOn.sound = true := by
  obtain ⟨few, nodup, apart, free⟩ := c.sound_iff.mp h
  rw [ClaimPart.passOn_eq, ClaimPart.sound_iff]
  cases list : c.waiting with
  | nil => simp
  | cons head rest =>
    rw [list] at few nodup
    obtain ⟨fresh, nodup⟩ := List.nodup_cons.mp nodup
    refine ⟨Nat.le_of_succ_le few, nodup, fun k head => ?_, fun not => by cases not⟩
    obtain rfl := Option.some.inj head
    exact fresh

/-- The claim parts after a change of one of a defined record. -/
theorem State.modClaim_parts {i : Index} {r : ElementRecord} (stands : s.elem i = some r) (f : ClaimPart → ClaimPart) :
    (s.modClaim i f).holder i = (f r.claim).holder ∧ (s.modClaim i f).waiters i = (f r.claim).waiting
      ∧ s.holder i = r.claim.holder ∧ s.waiters i = r.claim.waiting
      ∧ ((s.modClaim i f).elem i).all (fun q => q.claim.sound) = (f r.claim).sound := by
  have claim := State.modClaim_claim (s := s) i f i
  rw [if_pos rfl, stands] at claim
  rw [State.claim_sound_eq, State.holder_eq, State.waiters_eq, State.holder_eq, State.waiters_eq, claim, stands]
  exact ⟨rfl, rfl, rfl, rfl, rfl⟩

/-- A change of one claim part of a defined record. -/
theorem State.modClaim_claimsSound (h : s.claimsSound) {i : Index} {r : ElementRecord} (stands : s.elem i = some r)
    {f : ClaimPart → ClaimPart} (sound : r.claim.sound = true → (f r.claim).sound = true)
    (joins : ∀ k, k ∈ (f r.claim).waiting → k ∉ r.claim.waiting → s.waitsOn k = none ∧ (s.heldBy k).length ≤ 1)
    (takes : ∀ k, (f r.claim).holder = some k → r.claim.holder ≠ some k →
      (s.heldBy k).length ≤ 1 ∧ ∀ j, j ≠ i → k ∈ s.waiters j → (s.heldBy k).length = 0) : (s.modClaim i f).claimsSound := by
  have before := h.1 i
  rw [stands] at before
  obtain ⟨holder, waiters, held, waited, part⟩ := State.modClaim_parts stands f
  refine State.claimsSound_change h (i := i) (fun j other => ?_) ?_ ?_ ?_
  · rw [State.modClaim_claim, if_neg other]
  · rw [part]; exact sound before
  · rw [waiters, waited]; exact joins
  · rw [holder, held]; exact takes

/-- A change that moves nobody to or from the element. -/
theorem State.modClaim_same (h : s.claimsSound) (i : Index) {f : ClaimPart → ClaimPart}
    (same : ∀ c, (f c).holder = c.holder ∧ (f c).waiting = c.waiting) : (s.modClaim i f).claimsSound := by
  cases stands : s.elem i with
  | none => exact State.claimsSound_congr h fun j => by rw [State.modClaim_claim]; split <;> simp_all
  | some r =>
    obtain ⟨holder, waiting⟩ := same r.claim
    refine State.modClaim_claimsSound h stands (fun sound => ?_) (fun k new old => ?_) fun k new old => ?_
    · rw [ClaimPart.sound_iff] at sound ⊢
      rwa [holder, waiting]
    · rw [waiting] at new; exact absurd new old
    · rw [holder] at new; exact absurd new old

theorem State.passOn_claimsSound (h : s.claimsSound) (i : Index) : (s.modClaim i ClaimPart.passOn).claimsSound := by
  cases stands : s.elem i with
  | none => exact State.claimsSound_congr h fun j => by rw [State.modClaim_claim]; split <;> simp_all
  | some r =>
    have waits {k : Slot} (waits : k ∈ r.claim.waiting) : k ∈ s.waiters i := by rw [State.waiters, stands]; exact waits
    refine State.modClaim_claimsSound h stands ClaimPart.passOn_sound (fun k new old => ?_) fun k new _ => ?_
    · rw [ClaimPart.passOn_eq] at new
      exact absurd (List.mem_of_mem_tail new) old
    · rw [ClaimPart.passOn_eq] at new
      have head := waits (List.mem_of_mem_head? (by rw [show r.claim.waiting.head? = some k from new]; rfl))
      obtain ⟨_, once, few⟩ := h.2 k
      exact ⟨few i head, fun j other there => absurd (once j i there head) other⟩

theorem State.leaveList_claimsSound (h : s.claimsSound) (i : Index) (k : Slot) : (s.leaveList i k).claimsSound := by
  unfold State.leaveList
  cases stands : s.elem i with
  | none => exact State.claimsSound_congr h fun j => by rw [State.modClaim_claim]; split <;> simp_all
  | some r =>
    refine State.modClaim_claimsSound h stands (fun sound => ?_) (fun j new old => ?_) fun j new old => absurd new old
    · obtain ⟨few, nodup, apart, free⟩ := r.claim.sound_iff.mp sound
      rw [ClaimPart.sound_iff]
      refine ⟨List.length_erase_le.trans few, nodup.erase k, fun j held waits => apart j held (List.mem_of_mem_erase waits),
        fun none_ => ?_⟩
      show r.claim.waiting.erase k = []
      rw [free none_]; rfl
    · exact absurd (List.mem_of_mem_erase new) old

/-- Who waits on an element after one robot left its list. -/
theorem State.waiters_leaveList (i : Index) (k : Slot) (j : Index) :
    (s.leaveList i k).waiters j = if j = i then (s.waiters i).erase k else s.waiters j := by
  rw [State.leaveList, State.waiters_eq, State.modClaim_claim]
  split
  · rw [State.waiters_eq]
    cases (s.elem i).map (·.claim) <;> rfl
  · rw [State.waiters_eq]

theorem State.holder_leaveList (i : Index) (k : Slot) (j : Index) : (s.leaveList i k).holder j = s.holder j := by
  rw [State.leaveList, State.holder_eq, State.modClaim_claim, State.holder_eq]
  split
  · next here => subst here; cases (s.elem j).map (·.claim) <;> rfl
  · rfl

theorem State.heldBy_leaveList (i : Index) (k j : Slot) : (s.leaveList i k).heldBy j = s.heldBy j := by
  unfold State.heldBy
  simp only [State.holder_leaveList]

/-- A robot with fewer than two elements is made the holder of a free one: with the wait withdrawn when it holds one (R25, R26). -/
theorem State.hold_claimsSound (h : s.claimsSound) {k : Slot} {i : Index} {r : ElementRecord} (stands : s.elem i = some r)
    (free : r.claim.holder = none) (few : (s.heldBy k).length ≤ 1)
    (withdrawn : (s.heldBy k).length = 1 → s.waitsOn k = none) :
    (s.modClaim i fun c => { c with holder := some k, heldFor := 0 }).claimsSound := by
  refine State.modClaim_claimsSound h stands (fun sound => ?_) (fun j new old => absurd new old) fun j new _ => ?_
  · obtain ⟨short, nodup, _, empty⟩ := r.claim.sound_iff.mp sound
    rw [ClaimPart.sound_iff]
    refine ⟨short, nodup, fun j _ => ?_, fun not => by cases not⟩
    show j ∉ r.claim.waiting
    rw [empty free]
    exact List.not_mem_nil
  · obtain rfl := Option.some.inj new
    refine ⟨few, fun j _ waits => ?_⟩
    by_cases one : (s.heldBy k).length = 1
    · exact absurd waits ((s.waitsOn_none k).mp (withdrawn one) j)
    · omega

/-- A robot that waits on no other element waits on none once it has left that list. -/
theorem State.waitsOn_leaveList (h : s.claimsSound) {k : Slot} {i : Index} (waits : s.waitsOn k = some i) :
    (s.leaveList i k).waitsOn k = none := by
  rw [State.waitsOn_none]
  intro j here
  rw [State.waiters_leaveList] at here
  have there := s.waitsOn_some k i waits
  split at here
  · have nodup : (s.waiters i).Nodup := by
      have part := h.1 i
      rw [State.claim_sound_eq] at part
      rw [State.waiters_eq]
      cases claim : (s.elem i).map (·.claim) with
      | none => exact List.nodup_nil
      | some c => rw [claim] at part; exact (c.sound_iff.mp part).2.1
    exact absurd here nodup.not_mem_erase
  · next other => exact other ((h.2 k).2.1 j i here there)

/-- A vacated robot holds nothing and waits on nothing (R37). -/
theorem State.vacate_claimless (h : s.claimsSound) (k : Slot) (cause : VacateCause) : (s.vacate k cause).claimless k := by
  obtain ⟨elem, _⟩ := State.vacate_spec s k cause h
  intro i
  rw [State.holder_eq, State.waiters_eq, elem i]
  cases stands : s.elem i with
  | none => exact ⟨nofun, List.not_mem_nil⟩
  | some r =>
    have sound := h.1 i
    rw [stands] at sound
    obtain ⟨_, nodup, apart, _⟩ := r.claim.sound_iff.mp sound
    have claim : (r.withoutRobot k).claim = r.claim.without k := by unfold ElementRecord.withoutRobot; split <;> rfl
    show (r.withoutRobot k).claim.holder ≠ some k ∧ k ∉ (r.withoutRobot k).claim.waiting
    rw [claim, ClaimPart.without]
    split
    · next mine =>
      have away := apart k mine
      exact ⟨fun head => away (List.mem_of_mem_head? (by rw [show r.claim.waiting.head? = some k from head]; rfl)),
        fun waits => away (List.mem_of_mem_tail waits)⟩
    · next other => exact ⟨other, nodup.not_mem_erase⟩

end

end Sys2Proof.Machine

/-! The outbound queue keeps its limits, the tally its ranges, and every alliance total stays the sum of its rows. -/
namespace Sys2Proof.Machine

/-! ## The outbound queue -/

/-- At most 22 notices, and at most so many replies. -/
def Hlp.within (h : Hlp) (replies : Nat) : Prop := h.notices ≤ 22 ∧ h.replies ≤ replies

theorem Hlp.sound_iff (h : Hlp) : h.sound ↔ h.within 2 := Iff.rfl

theorem Hlp.within_congr {h g : Hlp} {n : Nat} (within : h.within n) (same : g.out = h.out) : g.within n := by
  unfold Hlp.within Hlp.notices Hlp.replies at *
  rwa [same]

theorem Hlp.raise_within {h : Hlp} {n : Nat} (within : h.within n) (notice : Notice) : (h.raise notice).within n := by
  rw [Hlp.raise_eq]
  split
  · split
    · exact Hlp.within_congr within rfl
    · next room =>
      obtain ⟨_, replies⟩ := within
      refine ⟨?_, ?_⟩
      · have more : List.countP (fun f => !f.isReply) (h.out ++ [.notice h.lost notice]) = h.notices + 1 := by
          simp [OutFrame.isReply, Hlp.notices]
        exact more.trans_le (Nat.lt_of_not_le room)
      · have same : List.countP OutFrame.isReply (h.out ++ [.notice h.lost notice]) = h.replies := by
          simp [OutFrame.isReply, Hlp.replies]
        exact same.trans_le replies
  · exact within

theorem Hlp.reply_within {h : Hlp} {n : Nat} (within : h.within n) (kind tag : Byte) (status : Status) (body : ReplyBody) :
    Hlp.within { h with out := h.out ++ [.reply kind tag status body] } (n + 1) := by
  obtain ⟨notices, replies⟩ := within
  simp only [Hlp.within, Hlp.notices, Hlp.replies, List.countP_append] at *
  simpa [OutFrame.isReply] using ⟨notices, replies⟩

/-- The head frame leaves. -/
theorem Hlp.tail_within {h g : Hlp} {n : Nat} (within : h.within n) {head : OutFrame} {rest : List OutFrame}
    (out : h.out = head :: rest) (left : g.out = rest) : g.within n := by
  have fewer : rest.Sublist h.out := out ▸ List.sublist_cons_self head rest
  unfold Hlp.within Hlp.notices Hlp.replies at *
  rw [left]
  exact ⟨fewer.countP_le.trans within.1, fewer.countP_le.trans within.2⟩

/-! ## Sums over rows and columns -/

/-- A list of values over all indices of which one changes. -/
theorem sum_finRange_change {n : Nat} {f g : Fin n → Int} {a : Fin n} {d : Int} (each : ∀ i, f i = g i + if i = a then d else 0) :
    ((List.finRange n).map f).sum = ((List.finRange n).map g).sum + d := by
  rw [← Fin.sum_univ_def, ← Fin.sum_univ_def, Finset.sum_congr rfl fun i _ => each i, Finset.sum_add_distrib]
  simp

theorem Totals.add_of (f : Alliance → Int) (side : Alliance) (d : Int) :
    Totals.add { a := f .a, b := f .b, c := f .c, d := f .d } side d
      = { a := f .a + if side = .a then d else 0, b := f .b + if side = .b then d else 0,
          c := f .c + if side = .c then d else 0, d := f .d + if side = .d then d else 0 } := by
  cases side <;> simp [Totals.add]

/-- The alliances that own the rows stay. -/
def State.sameRows (s t : State) : Prop := ∀ row, t.rowAlliance row = s.rowAlliance row

theorem State.sameRows_of_robots {s t : State} (vacant : ∀ k, (t.robot k).state = .vacant ↔ (s.robot k).state = .vacant)
    (alliance : ∀ k, (t.robot k).alliance = (s.robot k).alliance) : s.sameRows t := fun row => by
  unfold State.rowAlliance
  split
  · dsimp only
    rw [alliance]
    simp only [vacant]
  · rfl

/-- Every alliance total is the sum of its rows. -/
def State.sums (s : State) : Prop := s.tu.totals = { a := s.sumOf .a, b := s.sumOf .b, c := s.sumOf .c, d := s.sumOf .d }

section
variable {s t : State}

theorem State.sumOf_congr (rows : s.sameRows t) (cells : t.tu.cells = s.tu.cells) (side : Alliance) : t.sumOf side = s.sumOf side := by
  have owns (row : Fin 28) : t.owns side row = s.owns side row := by rw [State.owns, State.owns, rows row]
  have cell (row : Fin 28) (i : Index) : t.tu.cell row i = s.tu.cell row i := by rw [Tu.cell, Tu.cell]; simp [cells]
  simp only [State.sumOf, owns, cell]

theorem State.sums_congr (h : s.sums) (rows : s.sameRows t) (cells : t.tu.cells = s.tu.cells)
    (totals : t.tu.totals = s.tu.totals) : t.sums := by
  unfold State.sums at *
  simp only [State.sumOf_congr rows cells, totals, h]

/-- Points change a cell and the total of the row's alliance by the same amount (R172). -/
theorem State.sums_addPoints (h : s.sums) (row : Fin 28) (column : Index) (points : Int) : (s.addPoints row column points).sums := by
  obtain ⟨d, change⟩ : ∃ d, d = ((s.tu.cell row column).add points).value - (s.tu.cell row column).value := ⟨_, rfl⟩
  have inRow (r : Fin 28) : (indices.map fun i => ((s.addPoints row column points).tu.cell r i).value).sum
      = (indices.map fun i => (s.tu.cell r i).value).sum + if r = row then d else 0 := by
    by_cases here : r = row
    · rw [if_pos here]
      refine sum_finRange_change (a := column) fun i => ?_
      rw [State.cell_addPoints]
      by_cases there : i = column
      · rw [if_pos ⟨here, there⟩, if_pos there, here, there, change]; omega
      · rw [if_neg fun both => there both.2, if_neg there]; omega
    · rw [if_neg here]
      have same (i : Index) : (s.addPoints row column points).tu.cell r i = s.tu.cell r i := by
        rw [State.cell_addPoints, if_neg fun both => here both.1]
      simp only [same, Int.add_zero]
  have sum (side : Alliance) : (s.addPoints row column points).sumOf side
      = s.sumOf side + if s.owns side row then d else 0 := by
    refine sum_finRange_change (a := row) fun r => ?_
    show (if s.owns side r then _ else 0) = _
    by_cases owns : s.owns side r = true
    · rw [if_pos owns, if_pos owns, inRow]
      split
      · next here => rw [← here, if_pos owns]
      · rfl
    · rw [if_neg owns, if_neg owns]
      split
      · next here => rw [← here, if_neg owns]; rfl
      · rfl
  unfold State.sums at *
  rw [sum, sum, sum, sum]
  show (match s.rowAlliance row with
    | some alliance => s.tu.totals.add alliance (((s.tu.cell row column).add points).value - (s.tu.cell row column).value)
    | none => s.tu.totals) = _
  cases owner : s.rowAlliance row with
  | none => simp [State.owns, owner, h]
  | some side =>
    dsimp only
    rw [← change, h, Totals.add_of s.sumOf]
    simp [State.owns, owner]

/-! ## Before a match -/

/-- SETUP or STAGED. -/
def Phase.early (p : Phase) : Prop := p = .setup ∨ p = .staged

theorem Phase.not_early_of_inMatch {p : Phase} (playing : p.inMatch = true) : ¬ p.early := by
  rintro (rfl | rfl) <;> cases playing

/-- A goal that closes counts for no match. -/
def ElementRecord.settled (r : ElementRecord) : Prop := ∀ p, r.part = .goal p → p.window = .closing → p.closingInMatch = false

/-- Every cell is 0. -/
def State.blank (s : State) : Prop := ∀ row i, (s.tu.cell row i).value = 0

/-- No goal that closes counts for a match. -/
def State.settled (s : State) : Prop := ∀ i r, s.elem i = some r → r.settled

theorem State.totalsSound_iff (s : State) : s.totalsSound ↔ s.sums ∧ (s.mch.phase.early → s.blank ∧ s.settled) := by
  refine and_congr_right fun _ => imp_congr_right fun _ => and_congr_right fun _ => ⟨fun h i r stands p part => ?_, fun h i p goal => ?_⟩
  · exact h i p (State.goal_of stands part)
  · obtain ⟨r, stands, part⟩ := State.goal_some goal
    exact h i r stands p part

/-- Whatever keeps the rows, the cells and the totals, and settles goals that were settled. -/
theorem State.totalsSound_congr (h : s.totalsSound) (rows : s.sameRows t) (cells : t.tu.cells = s.tu.cells)
    (totals : t.tu.totals = s.tu.totals) (phase : t.mch.phase.early → s.mch.phase.early)
    (settled : t.mch.phase.early → s.settled → t.settled) : t.totalsSound := by
  rw [State.totalsSound_iff] at *
  obtain ⟨sums, quiet⟩ := h
  refine ⟨State.sums_congr sums rows cells totals, fun early => ?_⟩
  obtain ⟨blank, before⟩ := quiet (phase early)
  refine ⟨fun row i => ?_, settled early before⟩
  have same : t.tu.cell row i = s.tu.cell row i := by rw [Tu.cell, Tu.cell]; simp [cells]
  rw [same]
  exact blank row i

theorem State.settled_of_elems (elems : t.elems = s.elems) (h : s.settled) : t.settled := fun i r stands =>
  h i r (by rw [← State.elem_congr elems]; exact stands)

/-- Points in a phase that is not early. -/
theorem State.totalsSound_addPoints (h : s.totalsSound) (late : ¬ s.mch.phase.early) (row : Fin 28) (column : Index) (points : Int) :
    (s.addPoints row column points).totalsSound := by
  rw [State.totalsSound_iff] at *
  exact ⟨State.sums_addPoints h.1 row column points, fun early => absurd early late⟩

/-! ## The ranges of the tally -/

theorem Cell.add_range (c : Cell) (points : Int) : -32767 ≤ (c.add points).value ∧ (c.add points).value ≤ 32767 := by
  simp only [Cell.add, clampCell]
  omega

theorem State.addPoints_tuSound (h : s.tu.sound) (row : Fin 28) (column : Index) (points : Int) :
    (s.addPoints row column points).tu.sound := by
  obtain ⟨range, sending⟩ := h
  refine ⟨fun c => ?_, sending⟩
  show -32767 ≤ (s.tu.cells.set _ _)[c.val].value ∧ _
  rw [Vector.getElem_set]
  split
  · next here =>
    have same : (s.addPoints row column points).tu.cells[c.val] = (s.tu.cell row column).add points := by
      show (s.tu.cells.set _ _)[c.val] = _
      rw [Vector.getElem_set, if_pos here]
    rw [same]
    exact Cell.add_range _ _
  · next other =>
    have same : (s.addPoints row column points).tu.cells[c.val] = s.tu.cells[c.val] := by
      show (s.tu.cells.set _ _)[c.val] = _
      rw [Vector.getElem_set, if_neg other]
    rw [same]
    exact range c

/-- The same cells, and a send that has its image and its parts. -/
theorem Tu.sound_of {u v : Tu} (h : u.sound) (cells : v.cells = u.cells) (image : v.sending.isSome → v.image.isSome)
    (parts : v.sending.all (fun d => decide (d.parts ≤ 84)) = true) : v.sound := by
  refine ⟨fun c => ?_, image, parts⟩
  rw [cells]
  exact h.1 c

end

end Sys2Proof.Machine

/-! What the operations of the owners keep: the limits of the outbound queue, the tally, the element bus, the claims, the alliance
totals, and the claimants ACTIVE in a match. -/
namespace Sys2Proof.Machine

/-- `s` has come from `o` by operations that keep every safety property of the part; with `tot` the alliance totals as well, and
with `act` that every robot that holds or waits is ACTIVE in a match. -/
structure State.Evolves (o : State) (tot act : Bool) (s : State) : Prop where
  queue : ∀ n, o.hlp.within n → s.hlp.within n
  tally : o.tu.sound → s.tu.sound
  bus : o.busBut 0 → s.busBut 0
  claims : o.claimsSound → s.claimsSound
  totals : tot = true → o.totalsSound → s.totalsSound
  active : act = true → o.claimsSound → o.claimantsActive → s.claimantsActive

namespace State.Evolves

theorem refl (s : State) (tot act : Bool) : s.Evolves tot act s := ⟨fun _ => id, id, id, id, fun _ => id, fun _ _ => id⟩

theorem trans {o s t : State} {tot act : Bool} (h : o.Evolves tot act s) (g : s.Evolves tot act t) : o.Evolves tot act t :=
  ⟨fun n k => g.queue n (h.queue n k), fun k => g.tally (h.tally k), fun k => g.bus (h.bus k), fun k => g.claims (h.claims k),
    fun w k => g.totals w (h.totals w k), fun w c k => g.active w (h.claims c) (h.active w c k)⟩

/-- With fewer properties asked for. -/
theorem weaken {o s : State} {tot act : Bool} (h : o.Evolves tot act s) {tot' act' : Bool} (fewer : tot' = true → tot = true)
    (less : act' = true → act = true) : o.Evolves tot' act' s :=
  ⟨h.queue, h.tally, h.bus, h.claims, fun w => h.totals (fewer w), fun w => h.active (less w)⟩

end State.Evolves

section
variable {o s : State} {tot act : Bool} (h : o.Evolves tot act s)
include h

/-! ## Whole blocks -/

/-- A change that touches none of what the properties speak of. -/
theorem State.Evolves.congr {t : State} (hlp : t.hlp.out = s.hlp.out) (tu : t.tu = s.tu) (ebc : t.ebc = s.ebc)
    (elems : t.elems = s.elems) (roster : ∀ k, t.robot k = s.robot k) (phase : t.mch.phase = s.mch.phase) :
    o.Evolves tot act t := by
  have claims : s.sameClaims t := fun i => by rw [State.elem_congr elems]
  refine h.trans ⟨fun n k => Hlp.within_congr k hlp, fun k => tu ▸ k, fun k => ?_, fun k => State.claimsSound_congr k claims,
    fun _ k => ?_, fun _ _ k => ?_⟩
  · exact State.busBut_sameMarks k (by rw [ebc]) (by rw [ebc]) (by rw [ebc]) elems
  · exact State.totalsSound_congr k (State.sameRows_of_robots (fun k => by rw [roster]) fun k => by rw [roster]) (by rw [tu])
      (by rw [tu]) (by rw [phase]; exact id) fun _ => State.settled_of_elems elems
  · exact State.claimantsActive_congr k claims (fun k active _ => by rw [roster]; exact active) (by rw [phase]; exact id)

@[simp] theorem State.setRcc_evolves (r : Rcc) : o.Evolves tot act (s.setRcc r) := h.congr rfl rfl rfl rfl (fun _ => rfl) rfl

theorem State.setMch_evolves {m : Mch} (phase : m.phase = s.mch.phase) : o.Evolves tot act (s.setMch m) :=
  h.congr rfl rfl rfl rfl (fun _ => rfl) phase

/-- A phase is entered: a match phase or a later one leaves what is said of SETUP and STAGED, and a phase outside the match is
entered from one. -/
theorem State.setMch_evolves' {m : Mch} (early : tot = true → m.phase.early → s.mch.phase.early)
    (playing : act = true → s.mch.phase.inMatch = true → m.phase.inMatch = true) : o.Evolves tot act (s.setMch m) :=
  h.trans ⟨fun _ => id, id, id, id,
    fun w k => State.totalsSound_congr k (fun _ => rfl) rfl rfl (early w) fun _ => State.settled_of_elems rfl,
    fun w _ k => State.claimantsActive_congr k (fun _ => rfl) (fun _ active _ => active) (playing w)⟩

@[simp] theorem State.raise_evolves (n : Notice) : o.Evolves tot act (s.raise n) :=
  h.trans ⟨fun _ k => Hlp.raise_within k n, id, fun k => k, fun k => k, fun _ k => k, fun _ _ k => k⟩

@[simp] theorem State.raiseHold_evolves (w : HoldNotice) : o.Evolves tot act (s.raiseHold w) := State.raise_evolves h _
@[simp] theorem State.raiseRobot_evolves (k : Slot) (w : RobotNotice) : o.Evolves tot act (s.raiseRobot k w) := State.raise_evolves h _
@[simp] theorem State.raiseClaim_evolves (w : ClaimNotice) : o.Evolves tot act (s.raiseClaim w) := State.raise_evolves h _
@[simp] theorem State.raiseElement_evolves (i : Index) (w : ElementNotice) : o.Evolves tot act (s.raiseElement i w) :=
  State.raise_evolves h _

@[simp] theorem State.raiseElement?_evolves (i : Index) (w : Option ElementNotice) : o.Evolves tot act (s.raiseElement? i w) := by
  unfold State.raiseElement?
  split <;> simp [h]

@[simp] theorem State.promotionNotice_evolves (i : Index) (c : ClaimPart) : o.Evolves tot act (s.promotionNotice i c) := by
  unfold State.promotionNotice
  split <;> simp [h]

/-! ## The element bus -/

/-- An operation of the element bus alone. -/
theorem State.Evolves.busOp {t : State} (bus : s.busBut 0 → t.busBut 0) (hlp : t.hlp = s.hlp) (tu : t.tu = s.tu)
    (elems : t.elems = s.elems) (roster : t.roster = s.roster) (phase : t.mch = s.mch) : o.Evolves tot act t := by
  have claims : s.sameClaims t := fun i => by rw [State.elem_congr elems]
  refine h.trans ⟨fun n k => hlp ▸ k, fun k => tu ▸ k, bus, fun k => State.claimsSound_congr k claims, fun _ k => ?_, fun _ _ k => ?_⟩
  · exact State.totalsSound_congr k (State.sameRows_of_robots (fun k => by rw [State.robot_congr roster])
      fun k => by rw [State.robot_congr roster]) (by rw [tu]) (by rw [tu]) (by rw [phase]; exact id)
      fun _ => State.settled_of_elems elems
  · exact State.claimantsActive_congr k claims (fun k active _ => by rw [State.robot_congr roster]; exact active)
      (by rw [phase]; exact id)

@[simp] theorem State.askLamp_evolves (i : Index) (on : Bool) : o.Evolves tot act (s.askLamp i on) :=
  h.busOp (fun k => State.askLamp_busBut k i on) (by simp) (by simp) (by simp) (by simp) (by simp)

theorem State.askCarriage_evolves {i : Index} (carriage : (s.carriageAt i).isSome = true) (speed : Int) :
    o.Evolves tot act (s.askCarriage i speed) :=
  h.busOp (fun k => State.askCarriage_busBut k carriage speed) (by simp) (by simp) (by simp) (by simp) (by simp)

@[simp] theorem State.askClosing_evolves (i : Index) : o.Evolves tot act (s.askClosing i) :=
  h.busOp (fun k => State.askClosing_busBut k i) (by simp) (by simp) (by simp) (by simp) (by simp)

@[simp] theorem State.askRefresh_evolves (i : Index) : o.Evolves tot act (s.askRefresh i) :=
  h.busOp (fun k => State.askRefresh_busBut k i) (by simp) (by simp) (by simp) (by simp) (by simp)

@[simp] theorem State.endTransaction_evolves : o.Evolves tot act s.endTransaction :=
  h.busOp State.endTransaction_busBut (by simp) (by simp) (by simp) (by simp) (by simp)

@[simp] theorem State.setDue_evolves (i : Index) : o.Evolves tot act (s.setDue i) :=
  h.busOp (fun k => State.setDue_busBut k i) (by simp) (by simp) (by simp) (by simp) (by simp)

@[simp] theorem State.clearRoles_evolves : o.Evolves tot act s.clearRoles :=
  h.busOp State.clearRoles_busBut (by simp) (by simp) (by simp) (by simp) (by simp)

/-! ## Records -/

/-- A record takes the place of another with the same kind and claim part. -/
theorem State.setElem_evolves {i : Index} {r q : ElementRecord} (stands : s.elem i = some r) (kind : q.part.kind = r.part.kind)
    (claim : q.claim = r.claim) (settles : tot = true → s.mch.phase.early → r.settled → q.settled) :
    o.Evolves tot act (s.setElem i (some q)) := by
  have claims : s.sameClaims (s.setElem i (some q)) := fun j => by
    rw [State.elem_setElem]
    split
    · next here => subst here; rw [stands]; exact congrArg some claim
    · rfl
  refine h.trans ⟨fun _ => id, id, fun k => ?_, fun k => State.claimsSound_congr k claims, fun w k => ?_, fun _ _ k => ?_⟩
  · exact State.busBut_congr k rfl rfl (fun _ => Sched.marksWithin_refl _) (State.setElem_sameKinds stands kind)
  · refine State.totalsSound_congr k (fun _ => rfl) rfl rfl id fun early settled j r' stands' => ?_
    rw [State.elem_setElem] at stands'
    split at stands'
    · obtain rfl := Option.some.inj stands'
      exact settles w early (settled i r stands)
    · exact settled j r' stands'
  · exact State.claimantsActive_congr k claims (fun _ active _ => active) id

/-- A change of a defined record that leaves its kind and claim part. -/
theorem State.modElem_evolves (i : Index) {f : ElementRecord → ElementRecord}
    (same : ∀ r, s.elem i = some r → (f r).part.kind = r.part.kind ∧ (f r).claim = r.claim)
    (settles : tot = true → s.mch.phase.early → ∀ r, s.elem i = some r → r.settled → (f r).settled) :
    o.Evolves tot act (s.modElem i f) := by
  unfold State.modElem
  split
  · next r stands =>
    exact State.setElem_evolves h stands (same r stands).1 (same r stands).2 fun w early => settles w early r stands
  · exact h

@[simp] theorem State.modSticky_evolves (i : Index) (f : Sticky → Sticky) : o.Evolves tot act (s.modSticky i f) :=
  State.modElem_evolves h i (fun _ _ => ⟨rfl, rfl⟩) fun _ _ _ _ settled => settled

theorem State.setPart_evolves {i : Index} {part : KindPart} (kind : ∀ r, s.elem i = some r → part.kind = r.part.kind)
    (settles : tot = true → s.mch.phase.early → ∀ r, s.elem i = some r → r.settled →
      ∀ p, part = .goal p → p.window = .closing → p.closingInMatch = false) : o.Evolves tot act (s.setPart i part) :=
  State.modElem_evolves h i (fun r stands => ⟨kind r stands, rfl⟩) settles

theorem State.setGate_evolves {i : Index} {p : GatePart} (gate : s.gateAt i = some p) (q : GatePart) :
    o.Evolves tot act (s.setGate i q) := by
  obtain ⟨r, stands, part⟩ := State.gate_some gate
  refine State.setPart_evolves h (fun r' stands' => ?_) fun _ _ _ _ _ _ => nofun
  obtain rfl := Option.some.inj (stands.symm.trans stands')
  rw [part]; rfl

theorem State.setCarriage_evolves {i : Index} {p : CarriagePart} (carriage : s.carriageAt i = some p) (q : CarriagePart) :
    o.Evolves tot act (s.setCarriage i q) := by
  obtain ⟨r, stands, part⟩ := State.carriage_some carriage
  refine State.setPart_evolves h (fun r' stands' => ?_) fun _ _ _ _ _ _ => nofun
  obtain rfl := Option.some.inj (stands.symm.trans stands')
  rw [part]; rfl

theorem State.setStation_evolves {i : Index} {p : StationPart} (station : s.stationAt i = some p) (q : StationPart) :
    o.Evolves tot act (s.setStation i q) := by
  obtain ⟨r, stands, part⟩ := State.station_some station
  refine State.setPart_evolves h (fun r' stands' => ?_) fun _ _ _ _ _ _ => nofun
  obtain rfl := Option.some.inj (stands.symm.trans stands')
  rw [part]; rfl

/-- A goal part in place of another, closing for no match if the other did. -/
theorem State.setGoal_evolves {i : Index} {p : GoalPart} (goal : s.goalAt i = some p) {q : GoalPart}
    (settles : tot = true → s.mch.phase.early → (p.window = .closing → p.closingInMatch = false) →
      q.window = .closing → q.closingInMatch = false) : o.Evolves tot act (s.setGoal i q) := by
  obtain ⟨r, stands, part⟩ := State.goal_some goal
  refine State.setPart_evolves h (fun r' stands' => ?_) fun w early r' stands' settled q' same => ?_
  · obtain rfl := Option.some.inj (stands.symm.trans stands')
    rw [part]; rfl
  · obtain rfl := Option.some.inj (stands.symm.trans stands')
    obtain rfl := KindPart.goal.inj same
    exact settles w early (settled p part)

/-- A goal part that closes as before. -/
theorem State.setGoal_evolves_same {i : Index} {p : GoalPart} (goal : s.goalAt i = some p) {q : GoalPart}
    (window : q.window = p.window) (closes : q.closingInMatch = p.closingInMatch) : o.Evolves tot act (s.setGoal i q) :=
  State.setGoal_evolves h goal fun _ _ settled closing => by rw [closes]; exact settled (window ▸ closing)

/-! ## Robots -/

/-- A robot record takes the place of another with the same alliance, VACANT as before; a robot that leaves ACTIVE has no claims. -/
theorem State.setRobot_evolves {k : Slot} {q : RobotRecord} (vacant : q.state = .vacant ↔ (s.robot k).state = .vacant)
    (alliance : q.alliance = (s.robot k).alliance)
    (leaves : act = true → (s.robot k).state = .active → q.state ≠ .active → o.claimsSound → o.claimantsActive → s.claimless k) :
    o.Evolves tot act (s.setRobot k q) := by
  refine ⟨h.queue, h.tally, h.bus, h.claims, fun w sound => ?_, fun w claims active => ?_⟩
  · refine State.totalsSound_congr (h.totals w sound) (State.sameRows_of_robots (fun j => ?_) fun j => ?_) rfl rfl id fun _ => id
    · rw [State.robot_setRobot]
      split
      · next here => rw [here]; exact vacant
      · rfl
    · rw [State.robot_setRobot]
      split
      · next here => rw [here]; exact alliance
      · rfl
  · refine State.claimantsActive_congr (h.active w claims active) (fun _ => rfl) (fun j before claimant => ?_) id
    rw [State.robot_setRobot]
    split
    · next here =>
      subst here
      exact Classical.byContradiction fun left => claimant (leaves w before left claims active)
    · exact before

/-- A robot record that keeps its state. -/
theorem State.setRobot_evolves_same {k : Slot} {q : RobotRecord} (state : q.state = (s.robot k).state)
    (alliance : q.alliance = (s.robot k).alliance) : o.Evolves tot act (s.setRobot k q) :=
  State.setRobot_evolves h (by rw [state]) alliance fun _ active left => absurd (state.trans active) left

@[simp] theorem State.answerNow_evolves (k : Slot) (code : Answer) (detail : Option Nat) :
    o.Evolves tot act (s.answerNow k code detail) := State.setRobot_evolves_same h rfl rfl

@[simp] theorem State.answerLater_evolves (k : Slot) (i : Index) (number : BitVec 4) (code : Answer) (detail : Option Nat) :
    o.Evolves tot act (s.answerLater k i number code detail) := by
  unfold State.answerLater
  repeat' split
  all_goals simp [h]

/-! ## Claims -/

/-- A claim part changed: the claims stay sound, and whoever newly holds or waits is ACTIVE in a match. -/
theorem State.modClaim_evolves (i : Index) {f : ClaimPart → ClaimPart} (claims : o.claimsSound → (s.modClaim i f).claimsSound)
    (newcomers : act = true → ∀ r, s.elem i = some r → ∀ k, (f r.claim).holder = some k ∨ k ∈ (f r.claim).waiting →
      (r.claim.holder = some k ∨ k ∈ r.claim.waiting) ∨ (s.robot k).state = .active ∧ s.mch.phase.inMatch = true) :
    o.Evolves tot act (s.modClaim i f) := by
  have robots (k : Slot) : (s.modClaim i f).robot k = s.robot k := State.robot_congr (by simp) k
  refine ⟨fun n k => by simpa using h.queue n k, fun k => by simpa using h.tally k, fun k => ?_, claims, fun w k => ?_,
    fun w c active => ?_⟩
  · refine State.busBut_congr (h.bus k) (by simp) (by simp) (fun j => ?_) (State.modElem_sameKinds s i fun _ => rfl)
    rw [State.sched_congr (s := s) (by simp)]
    exact Sched.marksWithin_refl _
  · refine State.totalsSound_congr (h.totals w k) (State.sameRows_of_robots (fun j => by rw [robots]) fun j => by rw [robots]) (by simp) (by simp) (by simp) fun _ settled j r stands => ?_
    rw [State.elem_modClaim] at stands
    split at stands
    · obtain ⟨q, before, rfl⟩ := Option.map_eq_some_iff.mp stands
      exact settled i q before
    · exact settled j r stands
  · refine State.claimantsActive_of (h.active w c active) (fun j k claims => ?_) (fun j before _ => by rw [robots]; exact before) (by simp)
    by_cases here : j = i
    · subst here
      cases stands : s.elem j with
      | none =>
        rw [State.holder_eq, State.waiters_eq, State.modClaim_claim, if_pos rfl, stands] at claims
        rcases claims with held | waits
        · cases held
        · cases waits
      | some r =>
        obtain ⟨holder, waiters, held, waited, _⟩ := State.modClaim_parts stands f
        rw [holder, waiters] at claims
        rw [held, waited]
        exact newcomers w r stands k claims
    · refine .inl ?_
      rwa [State.holder_eq, State.waiters_eq, State.modClaim_claim, if_neg here, ← State.holder_eq, ← State.waiters_eq] at claims

/-! ## The tally -/

/-- The same cells and totals. -/
theorem State.setTu_evolves {u : Tu} (sound : s.tu.sound → u.sound) (cells : u.cells = s.tu.cells) (totals : u.totals = s.tu.totals) :
    o.Evolves tot act (s.setTu u) :=
  h.trans ⟨fun _ => id, sound, fun k => k, fun k => k,
    fun _ k => State.totalsSound_congr k (fun _ => rfl) cells totals id fun _ => id, fun _ _ k => k⟩

/-- Points are added in a phase that is not early. -/
theorem State.addPoints_evolves (late : tot = true → o.totalsSound → ¬ s.mch.phase.early) (row : Fin 28) (column : Index) (points : Int) :
    o.Evolves tot act (s.addPoints row column points) :=
  ⟨h.queue, fun k => State.addPoints_tuSound (h.tally k) row column points, h.bus, h.claims,
    fun w k => State.totalsSound_addPoints (h.totals w k) (late w k) row column points, h.active⟩

theorem State.credit_evolves (late : tot = true → o.totalsSound → ¬ s.mch.phase.early) (row : Fin 28) (column : Index) (points : Nat) :
    o.Evolves tot act (s.credit row column points) := by
  unfold State.credit
  split
  · exact h
  · exact State.addPoints_evolves h late row column points

@[simp] theorem State.snapshot_evolves (isFinal : Bool) : o.Evolves tot act (s.snapshot isFinal) :=
  State.setTu_evolves h (fun sound => Tu.sound_of sound rfl (fun _ => rfl) sound.2.2) rfl rfl

theorem State.setWait_evolves (wait : Option (List Index)) : o.Evolves tot act (s.setTu { s.tu with finalWait := wait }) :=
  State.setTu_evolves h (fun sound => Tu.sound_of sound rfl sound.2.1 sound.2.2) rfl rfl

@[simp] theorem State.finalCheck_evolves : o.Evolves tot act s.finalCheck := by
  unfold State.finalCheck
  split
  · exact State.raise_evolves (State.setWait_evolves (State.snapshot_evolves h true) none) _
  · exact h

@[simp] theorem State.captured_evolves (i : Index) : o.Evolves tot act (s.captured i) := by
  unfold State.captured
  split
  · split
    · exact State.finalCheck_evolves (State.setWait_evolves h _)
    · exact h
  · exact h

@[simp] theorem State.awaitFinal_evolves (l : List Index) : o.Evolves tot act (s.awaitFinal l) :=
  State.finalCheck_evolves (State.setWait_evolves h _)

theorem State.stopSending_evolves : o.Evolves tot act (s.setTu { s.tu with sending := none }) :=
  State.setTu_evolves h (fun sound => Tu.sound_of sound rfl nofun rfl) rfl rfl

@[simp] theorem State.endSend_evolves (stopped : Bool) : o.Evolves tot act (s.endSend stopped) := by
  unfold State.endSend
  split
  · exact State.setTu_evolves (State.raise_evolves h _) (fun sound => Tu.sound_of sound rfl nofun rfl) rfl rfl
  · exact State.stopSending_evolves h
  · exact h

@[simp] theorem State.pumpOne_evolves : o.Evolves tot act s.pumpOne := by
  unfold State.pumpOne
  split
  · next d m sending image =>
    split
    · split
      · next more =>
        refine State.setTu_evolves (State.raise_evolves h _) (fun sound => Tu.sound_of sound rfl (fun _ => ?_) ?_) rfl rfl
        · simp [image]
        · exact decide_eq_true (Nat.succ_le_of_lt more)
      · simp [h]
    · exact h
  · exact h

@[simp] theorem State.pump_evolves : o.Evolves tot act s.pump := by
  have records (n : Nat) : ∀ {t : State}, o.Evolves tot act t → o.Evolves tot act (State.pumpUpTo n t) := by
    induction n with
    | zero => exact fun k => k
    | succ n ih => exact fun k => ih (State.pumpOne_evolves k)
  exact records _ h

theorem State.beginSend_evolves (image : s.tu.image.isSome = true) (order : SheetOrder) : o.Evolves tot act (s.beginSend order) :=
  State.setTu_evolves h (fun sound => Tu.sound_of sound rfl (fun _ => image) rfl) rfl rfl

@[simp] theorem State.hostSnapshot_evolves : o.Evolves tot act s.hostSnapshot :=
  State.raise_evolves (State.snapshot_evolves h false) _

omit h in
theorem Tu.cell_zero {u : Tu} (cells : u.cells = Vector.replicate 1344 Cell.zero) (row : Fin 28) (i : Index) :
    u.cell row i = Cell.zero := by
  rw [Tu.cell]
  simp [cells]

omit h in
/-- A tally zeroed is the sum of its rows. -/
theorem State.sums_zero {t : State} (cells : t.tu.cells = Vector.replicate 1344 Cell.zero) (totals : t.tu.totals = Totals.zero) :
    t.sums := by
  have sum (side : Alliance) : t.sumOf side = 0 := by
    simp [State.sumOf, Tu.cell_zero cells, Cell.zero]
  unfold State.sums
  rw [sum, sum, sum, sum, totals]
  rfl

@[simp] theorem State.clearTally_evolves : o.Evolves tot act s.clearTally := by
  have stopped : (s.endSend true).tu.sending = none := by
    unfold State.endSend
    split
    · rfl
    · rfl
    · assumption
  have ended := State.endSend_evolves h true
  refine ended.trans ⟨fun _ => id, fun _ => ?_, fun k => k, fun k => k, fun _ sound => ?_, fun _ _ k => k⟩
  · refine ⟨fun c => ?_, fun sending => ?_, ?_⟩
    · simp [State.clearTally, Cell.zero]
    · rw [State.clearTally, State.setTu_tu, stopped] at sending; cases sending
    · rw [State.clearTally, State.setTu_tu, stopped]; rfl
  · rw [State.totalsSound_iff] at *
    refine ⟨State.sums_zero rfl rfl, fun early => ⟨fun row i => ?_, (sound.2 early).2⟩⟩
    rw [Tu.cell_zero rfl]
    rfl

end

end Sys2Proof.Machine

/-! What the handlers of gates, carriages, goals and stations keep. -/
namespace Sys2Proof.Machine

theorem State.gate_of {s : State} {i : Index} {r : ElementRecord} {p : GatePart} (stands : s.elem i = some r)
    (part : r.part = .gate p) : s.gateAt i = some p := by
  rw [State.gateAt_eq]; simp [stands, part]

theorem State.carriage_of {s : State} {i : Index} {r : ElementRecord} {p : CarriagePart} (stands : s.elem i = some r)
    (part : r.part = .carriage p) : s.carriageAt i = some p := by
  rw [State.carriageAt_eq]; simp [stands, part]

theorem State.station_of {s : State} {i : Index} {r : ElementRecord} {p : StationPart} (stands : s.elem i = some r)
    (part : r.part = .station p) : s.stationAt i = some p := by
  rw [State.stationAt_eq]; simp [stands, part]

/-- The goal part that was put in the place of another. -/
theorem State.goalAt_setGoal {s : State} {i : Index} {p : GoalPart} (goal : s.goalAt i = some p) (q : GoalPart) :
    (s.setGoal i q).goalAt i = some q := by
  obtain ⟨r, stands, _⟩ := State.goal_some goal
  refine State.goal_of (r := r.setPart (.goal q)) ?_ rfl
  rw [State.elem_setGoal, if_pos rfl, stands]
  rfl

theorem State.stationAt_setStation {s : State} {i : Index} {p : StationPart} (station : s.stationAt i = some p) (q : StationPart) :
    (s.setStation i q).stationAt i = some q := by
  obtain ⟨r, stands, _⟩ := State.station_some station
  refine State.station_of (r := r.setPart (.station q)) ?_ rfl
  rw [State.setStation, State.elem_setPart, if_pos rfl, stands]
  rfl

theorem State.goalAt_congr {s t : State} (elems : t.elems = s.elems) (i : Index) : t.goalAt i = s.goalAt i := by
  rw [State.goalAt_eq, State.goalAt_eq, State.elem_congr elems]

/-- A state that differs from another in the element bus alone. -/
theorem State.eq_setEbc {t u : State} (hlp : t.hlp = u.hlp) (rcc : t.rcc = u.rcc) (roster : t.roster = u.roster)
    (elems : t.elems = u.elems) (mch : t.mch = u.mch) (tu : t.tu = u.tu) (now : t.now = u.now) (pending : t.pending = u.pending) :
    t = u.setEbc t.ebc := by
  cases t
  cases u
  simp_all [State.setEbc]

/-- Operations around which the element bus was set aside. -/
theorem State.Evolves.aside {s t u : State} {tot act : Bool} {e : Ebc} (h : (s.setEbc e).Evolves tot act u)
    (same : t = u.setEbc t.ebc) (bus : s.busBut 0 → t.busBut 0) : s.Evolves tot act t := by
  obtain ⟨e', left⟩ : ∃ e', t = u.setEbc e' := ⟨_, same⟩
  subst left
  exact ⟨h.queue, h.tally, bus, h.claims, h.totals, h.active⟩

section
variable {o s : State} {tot act : Bool} (h : o.Evolves tot act s)
include h

/-! ## Discarded motions -/

@[simp] theorem State.gateIdle_evolves (i : Index) : o.Evolves tot act (s.gateIdle i) := by
  unfold State.gateIdle
  split
  · next gate => exact State.setGate_evolves h gate _
  · exact h

@[simp] theorem State.carriageDriveDiscarded_evolves (i : Index) : o.Evolves tot act (s.carriageDriveDiscarded i) := by
  unfold State.carriageDriveDiscarded
  split
  · next carriage =>
    split
    · exact h
    · exact State.setCarriage_evolves h carriage _
  · exact h

@[simp] theorem State.motionDiscarded_evolves (byStopAll : Bool) (e : Entry) :
    o.Evolves tot act (State.motionDiscarded byStopAll s e) := by
  unfold State.motionDiscarded
  dsimp only
  repeat' split
  all_goals simp [h]

/-- The places of discarded entries are handed on after their origins were dealt with. -/
@[simp] theorem State.discard_evolves (p : Entry → Bool) (byStopAll : Bool) : o.Evolves tot act (s.discard p byStopAll) := by
  have dealt : (s.setEbc { s.ebc with queue := s.ebc.queue.filter fun e => !p e }).Evolves tot act
      ((s.ebc.queue.filter p).foldl (State.motionDiscarded byStopAll)
        (s.setEbc { s.ebc with queue := s.ebc.queue.filter fun e => !p e })) :=
    List.foldlRecOn (motive := fun t : State => State.Evolves _ tot act t) _ _ (State.Evolves.refl _ _ _)
      fun t kept e _ => State.motionDiscarded_evolves kept byStopAll e
  obtain ⟨hlp, rcc, roster, elems, mch, tu, now, waiting⟩ := State.handOverUpTo_blocks (s.ebc.queue.filter p).length
    ((s.ebc.queue.filter p).foldl (State.motionDiscarded byStopAll)
      (s.setEbc { s.ebc with queue := s.ebc.queue.filter fun e => !p e }))
  exact h.trans (dealt.aside (State.eq_setEbc hlp rcc roster elems mch tu now waiting) fun k => State.discard_busBut k p byStopAll)

@[simp] theorem State.abandonPoll_evolves : o.Evolves tot act s.abandonPoll :=
  h.busOp State.abandonPoll_busBut (by simp) (by simp) (by simp) (by simp) (by simp)

@[simp] theorem State.askStopAll_evolves : o.Evolves tot act s.askStopAll := by
  refine State.discard_evolves ?_ _ _
  split
  · exact h
  · next stands =>
    rw [State.stopAllStands, Bool.or_eq_true, not_or] at stands
    exact State.abandonPoll_evolves (h.busOp (fun k => State.enterStop_busBut k (Bool.eq_false_iff.mpr stands.1)) rfl rfl rfl rfl rfl)

@[simp] theorem State.orphan_evolves (i : Index) : o.Evolves tot act (s.orphan i) := by
  have flight {t : State} (k : o.Evolves tot act t) (f : Option InFlight) : o.Evolves tot act (t.setEbc { t.ebc with inFlight := f }) :=
    k.busOp (fun b => State.busBut_sameMarks b rfl rfl rfl rfl) rfl rfl rfl rfl rfl
  unfold State.orphan State.motionOrphaned
  dsimp only
  split
  · split
    · refine flight ?_ _
      split
      · exact h
      · split <;> simp [h]
    · exact h
  · exact h

@[simp] theorem State.putAway_evolves (i : Index) : o.Evolves tot act (s.putAway i) := by
  refine State.orphan_evolves (State.discard_evolves ?_ _ _) i
  exact h.busOp (fun k => State.modSched_busBut k ⟨fun not => Bool.noConfusion not, fun not => Bool.noConfusion not,
    fun not => Bool.noConfusion not⟩) rfl rfl rfl rfl rfl

/-! ## Gates -/

@[simp] theorem State.gateDone_evolves (i : Index) (target : GateTarget) (origin : Origin) (position : Option GatePosition) :
    o.Evolves tot act (s.gateDone i target origin position) := by
  unfold State.gateDone
  split <;> simp [h]

@[simp] theorem State.gateFails_evolves (i : Index) (target : GateTarget) (origin : Origin) (position : Option GatePosition)
    (cause : GateFailure) : o.Evolves tot act (s.gateFails i target origin position cause) := by
  unfold State.gateFails
  split <;> simp [h]

@[simp] theorem State.gatePolled_evolves (i : Index) (position : GatePosition) : o.Evolves tot act (s.gatePolled i position) := by
  unfold State.gatePolled
  split
  · next gate =>
    have set := State.setGate_evolves h gate
    dsimp only
    repeat' split
    all_goals simp [set]
  · exact h

@[simp] theorem State.gateDriven_evolves (i : Index) : o.Evolves tot act (s.gateDriven i) := by
  unfold State.gateDriven
  split
  · next gate =>
    split
    · exact State.setGate_evolves h gate _
    all_goals exact h
  · exact h

@[simp] theorem State.gateFailed_evolves (i : Index) (op : BusOp) : o.Evolves tot act (s.gateFailed i op) := by
  unfold State.gateFailed
  repeat' split
  all_goals simp [h]

/-- A gate MOTION that is taken is sent. -/
theorem State.sendGate_evolves {i : Index} {p : GatePart} (gate : s.gateAt i = some p) (asked : s.gateAsk i = .taken)
    (target : GateTarget) {origin : Origin} (outside : origin ≠ .internal) : o.Evolves tot act (s.sendGate i p target origin) :=
  State.setGate_evolves (h.busOp (fun k => State.enterGate_busBut k (by rw [gate]; rfl) asked target outside) rfl rfl rfl rfl rfl)
    (p := p) gate _

@[simp] theorem State.actOn_evolves (k : Slot) (number : BitVec 4) (element : Byte) (target : GateTarget) :
    o.Evolves tot act (s.actOn k number element target) := by
  unfold State.actOn
  split
  · simp [h]
  · split
    · simp [h]
    · split
      · simp [h]
      · next stands =>
        split
        · next part =>
          repeat' split
          case h_3 asked => exact State.sendGate_evolves h (State.gate_of stands part) asked _ nofun
          all_goals simp [h]
        all_goals simp [h]

end

end Sys2Proof.Machine

/-! What the handlers of carriages, goals and stations keep. -/
namespace Sys2Proof.Machine

section
variable {o s : State} {tot act : Bool} (h : o.Evolves tot act s)
include h

/-! ## Carriages -/

theorem State.driveCarriage_evolves {i : Index} {p : CarriagePart} (carriage : s.carriageAt i = some p) (q : CarriagePart) :
    o.Evolves tot act (s.driveCarriage i q) := by
  refine State.askCarriage_evolves (State.setCarriage_evolves h carriage q) ?_ _
  rw [State.sameKinds_carriage (State.setCarriage_sameKinds carriage q), carriage]
  rfl

@[simp] theorem State.carriageFault_evolves (i : Index) (cause : CarriageStop) : o.Evolves tot act (s.carriageFault i cause) := by
  unfold State.carriageFault
  split
  · next carriage =>
    split
    · exact State.raiseElement_evolves (State.driveCarriage_evolves h carriage _) _ _
    · exact h
  · exact h

@[simp] theorem State.wantSpeed_evolves (i : Index) : o.Evolves tot act (s.wantSpeed i) := by
  unfold State.wantSpeed
  split
  · next carriage => exact State.setCarriage_evolves h carriage _
  · exact h

@[simp] theorem State.resyncCarriage_evolves (i : Index) : o.Evolves tot act (s.resyncCarriage i) := by
  unfold State.resyncCarriage
  split
  · next carriage =>
    split
    · split
      · exact State.setCarriage_evolves h carriage _
      · exact State.driveCarriage_evolves h carriage _
    · exact h
  · exact h

theorem State.carriageStep_evolves {i : Index} {p : CarriagePart} (carriage : s.carriageAt i = some p) (zone : Fin 8) (front rear : Bool) :
    o.Evolves tot act (s.carriageStep i p zone front rear) := by
  have drive (q : CarriagePart) := State.driveCarriage_evolves h carriage q
  unfold State.carriageStep
  split
  · split
    · exact State.raiseElement_evolves (drive _) _ _
    · exact drive _
  · split
    · exact h
    · exact drive _

@[simp] theorem State.carriagePolled_evolves (i : Index) (zone : Fin 8) (front rear encoderFault restarted : Bool) :
    o.Evolves tot act (s.carriagePolled i zone front rear encoderFault restarted) := by
  obtain ⟨t, same, wanted⟩ : ∃ t, t = (if restarted then s.wantSpeed i else s) ∧ o.Evolves tot act t := by
    refine ⟨_, rfl, ?_⟩
    split <;> simp [h]
  unfold State.carriagePolled
  dsimp only
  rw [← same]
  split
  · simp [wanted]
  · split
    · next carriage =>
      refine State.resyncCarriage_evolves ?_ i
      split
      · exact State.carriageStep_evolves wanted carriage _ _ _
      · exact wanted
    · exact wanted

@[simp] theorem State.carriageFailed_evolves (i : Index) (op : BusOp) : o.Evolves tot act (s.carriageFailed i op) := by
  have fault {t : State} (k : o.Evolves tot act t) :
      o.Evolves tot act (if t.missing i then t.carriageFault i .missing else t) := by
    split <;> simp [k]
  cases op with
  | motion _ => exact fault (State.wantSpeed_evolves h i)
  | _ => exact fault h

@[simp] theorem State.haltCarriage_evolves (i : Index) : o.Evolves tot act (s.haltCarriage i) := by
  unfold State.haltCarriage
  split
  · next carriage =>
    split
    · exact State.setCarriage_evolves h carriage _
    · exact h
  · exact h

@[simp] theorem State.restartCarriage_evolves (i : Index) : o.Evolves tot act (s.restartCarriage i) := by
  unfold State.restartCarriage
  split
  · next carriage =>
    split
    · split
      · exact State.driveCarriage_evolves h carriage _
      · exact State.driveCarriage_evolves h carriage _
    · exact h
  · exact h

@[simp] theorem State.stopHalted_evolves (i : Index) : o.Evolves tot act (s.stopHalted i) := by
  unfold State.stopHalted
  split
  · next carriage =>
    split
    · exact State.setCarriage_evolves h carriage _
    · exact h
  · exact h

/-! ## Goals -/

theorem State.modGoal_evolves (i : Index) {f : GoalPart → GoalPart}
    (settles : tot = true → s.mch.phase.early → ∀ p, (p.window = .closing → p.closingInMatch = false) →
      (f p).window = .closing → (f p).closingInMatch = false) : o.Evolves tot act (s.modGoal i f) := by
  unfold State.modGoal
  split
  · next p goal => exact State.setGoal_evolves h goal fun w early => settles w early p
  · exact h

@[simp] theorem State.relightGoal_evolves (i : Index) : o.Evolves tot act (s.relightGoal i) := by
  unfold State.relightGoal
  split
  · next goal =>
    dsimp only
    split
    · exact h
    · refine State.askLamp_evolves (State.setGoal_evolves_same h goal ?_ ?_) _ _ <;> rfl
  · exact h

@[simp] theorem State.resyncGoalLamp_evolves (i : Index) : o.Evolves tot act (s.resyncGoalLamp i) := by
  unfold State.resyncGoalLamp
  split
  · next goal =>
    split
    · refine State.askLamp_evolves (State.setGoal_evolves_same h goal ?_ ?_) _ _ <;> rfl
    · exact h
  · exact h

@[simp] theorem State.openWindow_evolves (i : Index) : o.Evolves tot act (s.openWindow i) := by
  unfold State.openWindow
  split
  · next goal =>
    exact State.raise_evolves (State.relightGoal_evolves
      (State.setGoal_evolves h goal fun _ _ _ closing => WindowState.noConfusion closing) _) _
  · exact h

@[simp] theorem State.beginClose_evolves (i : Index) : o.Evolves tot act (s.beginClose i) := by
  refine State.askClosing_evolves (State.modGoal_evolves h i fun _ early _ _ _ => ?_) i
  show (s.mch.phase.inMatch || s.mch.phase == .ended) = false
  rcases early with phase | phase <;> rw [phase] <;> rfl

@[simp] theorem State.evaluateGoal_evolves (i : Index) : o.Evolves tot act (s.evaluateGoal i) := by
  unfold State.evaluateGoal
  split
  · next goal =>
    dsimp only
    split
    · simp [h]
    · exact h
    · exact h
    · simp [h]
    · exact State.setGoal_evolves_same h goal rfl rfl
  · exact h

@[simp] theorem State.endClosing_evolves (i : Index) (failed : Bool) : o.Evolves tot act (s.endClosing i failed) := by
  unfold State.endClosing
  split
  · next goal =>
    have finish {t : State} (k : o.Evolves tot act t) (reopens : Bool) : o.Evolves tot act
        (if reopens then (t.modGoal i fun q => { q with window := .closed, closingInMatch := false, reopenWanted := false }).openWindow i
        else t.modGoal i fun q => { q with window := .closed, closingInMatch := false, reopenWanted := false }) := by
      have closed := State.modGoal_evolves k i (f := fun q => { q with window := .closed, closingInMatch := false, reopenWanted := false })
        fun _ _ _ _ _ => rfl
      split
      · exact State.openWindow_evolves closed i
      · exact closed
    refine finish (State.captured_evolves (State.raise_evolves (State.modSticky_evolves
      (State.setGoal_evolves_same h goal ?_ ?_) i _) _) i) _ <;> rfl
  · exact h

omit h in
/-- Pieces count only in a match, or for a closing that counts for one (R121). -/
theorem State.late_of_creditable {i : Index} {p : GoalPart} (goal : s.goalAt i = some p)
    (credits : p.creditable s.mch.phase = true) (sound : s.totalsSound) : ¬ s.mch.phase.early := by
  unfold GoalPart.creditable at credits
  split at credits
  · exact Phase.not_early_of_inMatch credits
  · next closing =>
    intro early
    have settled := (sound.2 early).2 i p goal closing
    rw [credits] at settled
    cases settled
  · cases credits

/-- A goal part changed behind operations that left the records as they were. -/
theorem State.setGoal_evolves_kept {u : State} {i : Index} {p : GoalPart} (goal : u.goalAt i = some p) (elems : s.elems = u.elems)
    {q : GoalPart} (window : q.window = p.window) (closes : q.closingInMatch = p.closingInMatch) : o.Evolves tot act (s.setGoal i q) :=
  State.setGoal_evolves_same h ((State.goalAt_congr elems i).trans goal) window closes

theorem State.creditRow_evolves {row : Option (Fin 28)} (late : ∀ ρ, row = some ρ → tot = true → o.totalsSound → ¬ s.mch.phase.early)
    (i : Index) (points : Nat) : o.Evolves tot act (s.creditRow row i points) := by
  cases row with
  | some ρ => exact State.credit_evolves h (late ρ rfl) ρ i points
  | none => exact h

omit h in
@[simp] theorem State.creditRow_frame (row : Option (Fin 28)) (i : Index) (points : Nat) :
    (s.creditRow row i points).elems = s.elems ∧ (s.creditRow row i points).mch = s.mch := by
  cases row with
  | some ρ => exact ⟨by simp [State.creditRow], by simp [State.creditRow]⟩
  | none => exact ⟨rfl, rfl⟩

@[simp] theorem State.countPiece_evolves (i : Index) : o.Evolves tot act (s.countPiece i) := by
  cases goal : s.goalAt i with
  | none => unfold State.countPiece; rw [goal]; exact h
  | some p =>
    have late (ρ : Fin 28) (credited : (if p.creditable s.mch.phase then s.pieceRow i else none) = some ρ)
        (w : tot = true) (sound : o.totalsSound) : ¬ s.mch.phase.early := by
      cases credits : p.creditable s.mch.phase with
      | true => exact State.late_of_creditable goal credits (h.totals w sound)
      | false => rw [credits] at credited; cases credited
    have same := State.countPiece_eq goal
    generalize (if p.creditable s.mch.phase then s.pieceRow i else none) = row at late same
    rw [same]
    obtain ⟨q, part⟩ : ∃ q, q = p.tallied (p.creditable s.mch.phase && row.isNone) := ⟨_, rfl⟩
    rw [← part]
    have piece : o.Evolves tot act (s.setGoal i q) := State.setGoal_evolves_same h goal (by rw [part]; rfl) (by rw [part]; rfl)
    have credited := State.creditRow_evolves piece (row := row) (by simpa using late) i p.pointsPerPiece
    have next {q' : GoalPart} (window : q'.window = q.window) (closes : q'.closingInMatch = q.closingInMatch) :=
      State.setGoal_evolves_kept credited (State.goalAt_setGoal goal q) (State.creditRow_frame row i _).1 window closes
    split
    · split
      · exact credited
      · refine State.raise_evolves (State.modSticky_evolves (next ?_ ?_) _ _) _ <;> rfl
    · split
      · refine State.raise_evolves (State.relightGoal_evolves (State.creditRow_evolves (next ?_ ?_) ?_ _ _) _) _
        · rfl
        · rfl
        · simpa using late
      · exact next rfl rfl

@[simp] theorem State.goalPolled_evolves (i : Index) (role : PollRole) (delta : Nat) (restarted : Bool) :
    o.Evolves tot act (s.goalPolled i role delta restarted) := by
  cases goal : s.goalAt i with
  | none => rw [State.goalPolled_none goal]; exact h
  | some p =>
    rw [State.goalPolled_eq goal]
    have pieces (n : Nat) : ∀ {t : State}, o.Evolves tot act t → o.Evolves tot act (State.countPieces i n t) := by
      induction n with
      | zero => exact fun k => k
      | succ n ih => exact fun k => ih (State.countPiece_evolves k i)
    have counted := pieces (p.counting s.held delta) (State.setGoal_evolves_same h goal (q := p.attributed s.held delta) rfl rfl)
    unfold State.goalEnded State.closingEnded
    dsimp only
    refine State.resyncGoalLamp_evolves ?_ i
    have ended {t : State} (k : o.Evolves tot act t) : o.Evolves tot act (match role, t.goalAt i with
        | .closing, some p => if p.window = WindowState.closing then t.endClosing i false else t
        | _, _ => t) := by
      split
      · split <;> simp [k]
      · exact k
    split
    · exact State.modGoal_evolves (ended counted) i fun _ _ _ settled => settled
    · exact ended counted

@[simp] theorem State.goalFailed_evolves (i : Index) (op : BusOp) : o.Evolves tot act (s.goalFailed i op) := by
  unfold State.goalFailed
  split
  · exact State.modGoal_evolves h i fun _ _ _ settled => settled
  · repeat' split
    all_goals simp [h]
  all_goals exact h

@[simp] theorem State.clearGoal_evolves (i : Index) : o.Evolves tot act (s.clearGoal i) :=
  State.relightGoal_evolves (State.modGoal_evolves h i fun _ _ _ _ _ => rfl) i

/-! ## Stations -/

@[simp] theorem State.modStation_evolves (i : Index) (f : StationPart → StationPart) : o.Evolves tot act (s.modStation i f) := by
  unfold State.modStation
  split
  · next station => exact State.setStation_evolves h station _
  · exact h

@[simp] theorem State.relightStation_evolves (i : Index) : o.Evolves tot act (s.relightStation i) := by
  unfold State.relightStation
  split
  · next station =>
    dsimp only
    split
    · exact h
    · exact State.askLamp_evolves (State.setStation_evolves h station _) _ _
  · exact h

@[simp] theorem State.holderChanged_evolves (i : Index) : o.Evolves tot act (s.holderChanged i) :=
  State.relightStation_evolves (State.modStation_evolves h i _) i

@[simp] theorem State.resyncStationLamp_evolves (i : Index) : o.Evolves tot act (s.resyncStationLamp i) := by
  unfold State.resyncStationLamp
  split
  · next station =>
    split
    · exact State.askLamp_evolves (State.setStation_evolves h station _) _ _
    · exact h
  · exact h

@[simp] theorem State.evaluateStation_evolves (i : Index) : o.Evolves tot act (s.evaluateStation i) := by
  unfold State.evaluateStation
  split
  · next station =>
    dsimp only
    split
    · exact h
    · exact State.setStation_evolves h station _
  · exact h

@[simp] theorem State.evaluateWindows_evolves : o.Evolves tot act s.evaluateWindows :=
  State.eachIndex_keeps (P := o.Evolves tot act) (fun i _ kept => State.evaluateStation_evolves kept i)
    (State.eachIndex_keeps (P := o.Evolves tot act) (fun i _ kept => State.evaluateGoal_evolves kept i) h)

@[simp] theorem State.trespassTest_evolves (i : Index) : o.Evolves tot act (s.trespassTest i) := by
  unfold State.trespassTest
  split
  · next station =>
    split
    · exact State.raiseElement_evolves (State.modSticky_evolves (State.setStation_evolves h station _) i _) _ _
    · exact h
  · exact h

/-- A station accrues in a match phase. -/
theorem State.accrue_evolves (playing : s.mch.phase.inMatch = true) (i : Index) : o.Evolves tot act (s.accrue i) := by
  unfold State.accrue
  split
  · next station _ =>
    split
    · split
      · refine State.credit_evolves (State.setStation_evolves h station _) (fun _ _ => ?_) _ _ _
        simpa using Phase.not_early_of_inMatch playing
      · exact State.setStation_evolves h station _
    · exact h
  · exact h

theorem State.stationTenth_evolves (playing : s.mch.phase.inMatch = true) (i : Index) : o.Evolves tot act (s.stationTenth i) :=
  State.accrue_evolves (State.trespassTest_evolves h i) (by simpa using playing) i

@[simp] theorem State.stationPolled_evolves (i : Index) (occupied restarted : Bool) :
    o.Evolves tot act (s.stationPolled i occupied restarted) :=
  State.resyncStationLamp_evolves (State.trespassTest_evolves (State.modStation_evolves h i _) i) i

@[simp] theorem State.stationFailed_evolves (i : Index) (op : BusOp) : o.Evolves tot act (s.stationFailed i op) := by
  unfold State.stationFailed
  split <;> simp [h]

@[simp] theorem State.clearStation_evolves (i : Index) : o.Evolves tot act (s.clearStation i) := State.modStation_evolves h i _

end

end Sys2Proof.Machine

/-! What the claim arbiter and the robot roster keep. -/
namespace Sys2Proof.Machine

section
variable {o s : State} {tot act : Bool} (h : o.Evolves tot act s)
include h

/-! ## Claims -/

@[simp] theorem State.leaveList_evolves (i : Index) (k : Slot) : o.Evolves tot act (s.leaveList i k) :=
  State.modClaim_evolves h i (fun sound => State.leaveList_claimsSound (h.claims sound) i k) fun _ _ _ _ claims =>
    .inl (claims.imp id List.mem_of_mem_erase)

/-- Who holds or waits once the holder has left is the head waiter and those behind it. -/
theorem State.passOn_evolves (i : Index) : o.Evolves tot act (s.modClaim i ClaimPart.passOn) := by
  refine State.modClaim_evolves h i (fun sound => State.passOn_claimsSound (h.claims sound) i) fun _ r _ k claims => .inl (.inr ?_)
  rw [ClaimPart.passOn_eq] at claims
  rcases claims with head | tail
  · exact List.mem_of_mem_head? (by rw [show r.claim.waiting.head? = some k from head]; rfl)
  · exact List.mem_of_mem_tail tail

@[simp] theorem State.depart_evolves (i : Index) (notice : ClaimNotice) : o.Evolves tot act (s.depart i notice) := by
  unfold State.depart
  split
  · exact State.holderChanged_evolves (State.promotionNotice_evolves (State.raiseClaim_evolves (State.passOn_evolves h i) _) i _) i
  · exact h

@[simp] theorem State.vacate_evolves (k : Slot) (cause : VacateCause) : o.Evolves tot act (s.vacate k cause) := by
  unfold State.vacate
  refine List.foldlRecOn (motive := o.Evolves tot act) _ _ ?_ fun t kept i _ => State.depart_evolves kept i _
  split <;> simp [h]

/-- A grant to an ACTIVE robot with fewer than two elements, in a match (R25, R26). -/
theorem State.grant_evolves {k : Slot} {i : Index} {r : ElementRecord} (stands : s.elem i = some r) (free : r.claim.holder = none)
    (few : (s.heldBy k).length < 2) (active : (s.robot k).state = .active) (playing : s.mch.phase.inMatch = true) :
    o.Evolves tot act (s.grant k i) := by
  unfold State.grant
  simp only []
  refine State.answerNow_evolves (State.holderChanged_evolves (State.raiseClaim_evolves ?_ _) i) _ _ _
  have newcomer {f : ClaimPart → ClaimPart} (same : ∀ c, (f c).holder = some k ∧ (f c).waiting = c.waiting) (r' : ElementRecord) (j : Slot)
      (claims : (f r'.claim).holder = some j ∨ j ∈ (f r'.claim).waiting) :
      (r'.claim.holder = some j ∨ j ∈ r'.claim.waiting) ∨ j = k := by
    rw [(same _).1, (same _).2] at claims
    exact claims.elim (fun new => .inr (Option.some.inj new).symm) fun waits => .inl (.inr waits)
  split
  · next j left =>
    have one : (s.heldBy k).length = 1 := by
      split at left
      · assumption
      · cases left
    rw [if_pos one] at left
    have stands' : ∃ r', (s.leaveList j k).elem i = some r' ∧ r'.claim.holder = none := by
      rw [State.leaveList, State.elem_modClaim]
      split
      · next here => subst here; exact ⟨{ r with claim := { r.claim with waiting := r.claim.waiting.erase k } }, by rw [stands]; rfl, free⟩
      · exact ⟨r, stands, free⟩
    obtain ⟨r', stands', free'⟩ := stands'
    refine State.modClaim_evolves (State.leaveList_evolves h j k) i (fun sound => ?_) fun _ r'' _ j' claims => ?_
    · refine State.hold_claimsSound (State.leaveList_claimsSound (h.claims sound) j k) stands' free' ?_ fun _ => ?_
      · rw [State.heldBy_leaveList]; exact Nat.le_of_eq one
      · exact State.waitsOn_leaveList (h.claims sound) left
    · refine (newcomer (f := fun c => { c with holder := some k, heldFor := 0 }) (fun _ => ⟨rfl, rfl⟩) r'' j' claims).imp id ?_
      rintro rfl
      rw [State.robot_congr (s := s) (by simp)]
      exact ⟨active, by simpa using playing⟩
  · next stays =>
    refine State.modClaim_evolves h i (fun sound => ?_) fun _ r'' _ j' claims => ?_
    · refine State.hold_claimsSound (h.claims sound) stands free (Nat.le_of_lt_succ few) fun one => ?_
      rw [if_pos one] at stays
      exact stays
    · refine (newcomer (f := fun c => { c with holder := some k, heldFor := 0 }) (fun _ => ⟨rfl, rfl⟩) r'' j' claims).imp id ?_
      rintro rfl
      exact ⟨active, playing⟩

/-- CLAIM on a held element by an ACTIVE robot in a match (R27). -/
theorem State.claimHeld_evolves {k : Slot} {i : Index} {r : ElementRecord} (stands : s.elem i = some r) (held : r.claim.holder ≠ none)
    (other : r.claim.holder ≠ some k) (absent : k ∉ r.claim.waiting) (active : (s.robot k).state = .active)
    (playing : s.mch.phase.inMatch = true) : o.Evolves tot act (s.claimHeld k i r.claim) := by
  unfold State.claimHeld
  split
  · simp [h]
  · next idle =>
    split
    · simp [h]
    · next few =>
      split
      · simp [h]
      · next short =>
        have idle : s.waitsOn k = none := by simpa using idle
        have few : (s.heldBy k).length ≤ 1 := Nat.le_of_lt_succ (Nat.lt_of_not_le few)
        refine State.answerNow_evolves (State.modClaim_evolves h i (fun sound => ?_) fun _ r' stands' j claims => ?_) _ _ _
        · refine State.modClaim_claimsSound (h.claims sound) stands (fun sound => ?_) (fun j new old => ?_) fun j new old => absurd new old
          · obtain ⟨_, nodup, apart, free⟩ := r.claim.sound_iff.mp sound
            rw [ClaimPart.sound_iff]
            refine ⟨?_, ?_, fun j holds waits => ?_, fun none_ => absurd none_ held⟩
            · have short : r.claim.waiting.length < 4 := Nat.lt_of_not_le short
              simpa using short
            · exact List.nodup_append.mpr ⟨nodup, List.nodup_singleton k, fun a here b last => by
                rw [List.mem_singleton.mp last]; rintro rfl; exact absent here⟩
            · rcases List.mem_append.mp waits with there | last
              · exact apart j holds there
              · rw [List.mem_singleton.mp last] at holds; exact other holds
          · rcases List.mem_append.mp new with there | last
            · exact absurd there old
            · rw [List.mem_singleton.mp last]; exact ⟨idle, few⟩
        · obtain rfl := Option.some.inj (stands.symm.trans stands')
          rcases claims with holds | waits
          · exact .inl (.inl holds)
          · rcases List.mem_append.mp waits with there | last
            · exact .inl (.inr there)
            · rw [List.mem_singleton.mp last]; exact .inr ⟨active, playing⟩

theorem State.claimRelation_evolves {k : Slot} {i : Index} {r : ElementRecord} (stands : s.elem i = some r)
    (active : (s.robot k).state = .active) (playing : s.mch.phase.inMatch = true) : o.Evolves tot act (s.claimRelation k i r) := by
  unfold State.claimRelation
  split
  · simp [h]
  · next other =>
    split
    · simp [h]
    · next absent =>
      have absent : k ∉ r.claim.waiting := by simpa using absent
      split
      · simp [h]
      · split
        · simp [h]
        · split
          · simp [h]
          · split
            · next free =>
              unfold State.claimFree
              split
              · simp [h]
              · next few => exact State.grant_evolves h stands free (Nat.lt_of_not_le few) active playing
            · next held => exact State.claimHeld_evolves h stands held other absent active playing

@[simp] theorem State.claimOn_evolves (k : Slot) (element : Byte) : o.Evolves tot act (s.claimOn k element) := by
  unfold State.claimOn
  split
  · simp [h]
  · next playing =>
    split
    · simp [h]
    · split
      · simp [h]
      · next active =>
        split
        · simp [h]
        · split
          · simp [h]
          · next stands =>
            split
            · exact State.claimRelation_evolves h stands (Classical.not_not.mp active) (by simpa using playing)
            · simp [h]

@[simp] theorem State.releaseOn_evolves (k : Slot) (element : Byte) : o.Evolves tot act (s.releaseOn k element) := by
  unfold State.releaseOn
  repeat' split
  all_goals simp [h]

@[simp] theorem State.cancelOn_evolves (k : Slot) : o.Evolves tot act (s.cancelOn k) := by
  unfold State.cancelOn
  repeat' split
  all_goals simp [h]

/-- A claim part with other times: nobody moves. -/
theorem State.modClaim_evolves_same (i : Index) {f : ClaimPart → ClaimPart}
    (same : ∀ c, (f c).holder = c.holder ∧ (f c).waiting = c.waiting) : o.Evolves tot act (s.modClaim i f) :=
  State.modClaim_evolves h i (fun sound => State.modClaim_same (h.claims sound) i same) fun _ r _ k claims => .inl (by
    rwa [(same _).1, (same _).2] at claims)

@[simp] theorem State.expire_evolves (i : Index) : o.Evolves tot act (s.expire i) := by
  unfold State.expire
  split
  · split
    · refine State.depart_evolves ?_ i _
      split
      · exact h
      · exact State.modClaim_evolves_same h i fun _ => ⟨rfl, rfl⟩
    · exact h
  · exact h

@[simp] theorem State.claimTenth_evolves (i : Index) : o.Evolves tot act (s.claimTenth i) := by
  unfold State.claimTenth
  split
  · next r _ =>
    have tenth (n : Nat) := State.modClaim_evolves_same h i
      (f := fun c => { c with heldFor := n, guardRecord := guardTenth c.guardRecord }) fun _ => ⟨rfl, rfl⟩
    have expires {t : State} (kept : o.Evolves tot act t) (p : Prop) [Decidable p] : o.Evolves tot act (if p then t.expire i else t) := by
      split <;> simp [kept]
    exact expires (tenth _) _
  · exact h

@[simp] theorem State.emptyClaim_evolves (i : Index) : o.Evolves tot act (s.emptyClaim i) := by
  have emptied : o.Evolves tot act (s.modClaim i fun _ => ClaimPart.empty) := by
    refine State.modClaim_evolves h i (fun sound => ?_) fun _ _ _ _ claims => ?_
    · cases stands : s.elem i with
      | none => exact State.claimsSound_congr (h.claims sound) fun j => by rw [State.modClaim_claim]; split <;> simp_all
      | some r => exact State.modClaim_claimsSound (h.claims sound) stands (fun _ => rfl) (fun _ => nofun) fun _ => nofun
    · rcases claims with holds | waits
      · cases holds
      · cases waits
  unfold State.emptyClaim
  dsimp only
  split
  · exact State.holderChanged_evolves emptied i
  · exact emptied

@[simp] theorem State.emptyClaims_evolves : o.Evolves tot act s.emptyClaims :=
  State.raiseClaim_evolves (State.eachIndex_keeps (P := o.Evolves tot act) (fun i _ kept => State.emptyClaim_evolves kept i) h) _

/-! ## Robots -/

/-- A robot that is not VACANT moves to another state that is not, without leaving ACTIVE. -/
theorem State.setRobot_evolves_move {k : Slot} {q : RobotRecord} (from_ : (s.robot k).state ≠ .vacant) (filled : q.state ≠ .vacant)
    (alliance : q.alliance = (s.robot k).alliance) (stays : (s.robot k).state = .active → q.state = .active) :
    o.Evolves tot act (s.setRobot k q) :=
  State.setRobot_evolves h (iff_of_false filled from_) alliance fun _ active left => absurd (stays active) left

@[simp] theorem State.openNew_evolves (k : Slot) (number : BitVec 4) (q : RobotRequest) : o.Evolves tot act (s.openNew k number q) := by
  refine State.setRobot_evolves_same h ?_ ?_ <;> rfl

@[simp] theorem State.ackOn_evolves (k : Slot) (mask : Byte) : o.Evolves tot act (s.ackOn k mask) := by
  refine State.raiseRobot_evolves (State.answerNow_evolves (State.setRobot_evolves_same h ?_ ?_) k _ _) k _ <;> rfl

theorem State.handOn_evolves (k : Slot) (number : BitVec 4) (q : RobotRequest) {owner : State → State}
    (owned : ∀ {t : State}, o.Evolves tot act t → o.Evolves tot act (owner t)) : o.Evolves tot act (s.handOn k number q owner) := by
  unfold State.handOn
  split
  · exact owned (State.openNew_evolves h k number q)
  · exact h

@[simp] theorem State.passRequest_evolves (k : Slot) (number : BitVec 4) (q : RobotRequest) :
    o.Evolves tot act (s.passRequest k number q) := by
  refine State.handOn_evolves h k number q fun kept => ?_
  split <;> simp [kept]

@[simp] theorem State.hear_evolves (k : Slot) : o.Evolves tot act (s.hear k) := by
  have heard := State.setRobot_evolves_same h (k := k) (q := { s.robot k with unheard := 0, silent := false }) rfl rfl
  unfold State.hear
  dsimp only
  split <;> simp [heard]

@[simp] theorem State.readyFlag_evolves (k : Slot) (ready : Bool) : o.Evolves tot act (s.readyFlag k ready) := by
  have move {from_ : RobotState} (new : RobotState) (state : (s.robot k).state = from_) (filled : from_ ≠ .vacant) (other : from_ ≠ .active)
      (stays : new ≠ .vacant) : o.Evolves tot act (s.setRobot k { s.robot k with state := new }) :=
    State.setRobot_evolves_move h (state ▸ filled) stays rfl fun active => absurd (state.symm.trans active) other
  unfold State.readyFlag
  dsimp only
  split
  · next state =>
    split
    · split
      · exact h
      · exact State.raiseRobot_evolves (move .active state nofun nofun nofun) _ _
    · exact State.raiseRobot_evolves (move .ready state nofun nofun nofun) _ _
  · next state => exact State.raiseRobot_evolves (move .linked state nofun nofun nofun) _ _
  all_goals exact h

@[simp] theorem State.countCycle_evolves : o.Evolves tot act s.countCycle := by
  refine State.eachSlot_keeps (P := o.Evolves tot act) (fun k t kept => ?_) h
  split
  · exact State.setRobot_evolves_same kept rfl rfl
  · exact kept

@[simp] theorem State.fallSilent_evolves (k : Slot) : o.Evolves tot act (s.fallSilent k) := by
  refine State.raiseRobot_evolves (State.setRobot_evolves_same h ?_ ?_) k _ <;> rfl

/-- A robot that leaves ACTIVE is vacated before. -/
theorem State.leave_evolves {k : Slot} {cause : VacateCause} {q : RobotRecord} (active : (s.robot k).state = .active)
    (filled : q.state ≠ .vacant) (alliance : q.alliance = (s.robot k).alliance) :
    o.Evolves tot act ((s.vacate k cause).setRobot k q) := by
  refine State.setRobot_evolves (State.vacate_evolves h k cause) ?_ ?_ fun _ _ _ sound _ => ?_
  · rw [State.robot_vacate]
    exact iff_of_false filled (by rw [active]; nofun)
  · rw [State.robot_vacate]; exact alliance
  · exact State.vacate_claimless (h.claims sound) k cause

theorem State.dropRobot_evolves {k : Slot} (linked : (s.robot k).state.isLinked = true) : o.Evolves tot act (s.dropRobot k) := by
  unfold State.dropRobot
  dsimp only
  refine State.raiseRobot_evolves ?_ k _
  split
  · next active =>
    refine State.leave_evolves h active ?_ ?_
    · nofun
    · rw [State.robot_vacate]
  · next other =>
    exact State.setRobot_evolves_move h (RobotState.ne_vacant_of_isLinked linked) nofun rfl fun active => absurd active other

@[simp] theorem State.rosterCycle_evolves : o.Evolves tot act s.rosterCycle := by
  refine State.eachSlot_keeps (P := o.Evolves tot act) (fun k t kept => ?_) (State.countCycle_evolves h)
  have silenced : o.Evolves tot act (t.checkSilence k) := by
    unfold State.checkSilence
    dsimp only
    split <;> simp [kept]
  unfold State.checkDrop
  dsimp only
  split
  · next drops => exact State.dropRobot_evolves silenced drops.1
  · exact silenced

theorem State.benchRobot_evolves {k : Slot} (benched : (s.robot k).state = .benched) (tenths : Nat) :
    o.Evolves tot act (s.benchRobot k tenths) := by
  refine State.raiseRobot_evolves (State.setRobot_evolves_move h ?_ ?_ ?_ fun active => ?_) k _
  · rw [benched]; nofun
  · nofun
  · rfl
  · rw [benched] at active; cases active

theorem State.unbench_evolves {k : Slot} (benched : (s.robot k).state = .benched) (notice : RobotNotice) :
    o.Evolves tot act (s.unbench k notice) := by
  refine State.raiseRobot_evolves (State.setRobot_evolves_move h ?_ ?_ ?_ fun _ => ?_) k _
  · rw [benched]; nofun
  · nofun
  · rfl
  · rfl

theorem State.ejectRobot_evolves {k : Slot} (benched : (s.robot k).state = .benched) (former : RobotState) :
    o.Evolves tot act (s.ejectRobot k former) := by
  refine State.raiseRobot_evolves (State.setRobot_evolves_move h ?_ ?_ ?_ fun active => ?_) k _
  · rw [benched]; nofun
  · nofun
  · rfl
  · rw [benched] at active; cases active

@[simp] theorem State.benchTenth_evolves (k : Slot) : o.Evolves tot act (s.benchTenth k) := by
  unfold State.benchTenth
  split
  · next benched _ =>
    split
    · exact State.unbench_evolves h benched _
    · exact State.setRobot_evolves_same h rfl rfl
  · exact h

@[simp] theorem State.activateReady_evolves : o.Evolves tot act s.activateReady := by
  refine State.eachSlot_keeps (P := o.Evolves tot act) (fun k t kept => ?_) h
  split
  · next ready => exact State.setRobot_evolves_move kept (by rw [ready]; nofun) nofun rfl fun _ => rfl
  · exact kept

/-- Outside a match nobody has claims to lose. -/
theorem State.robotsToReady_evolves (outside : s.mch.phase.inMatch = false) : o.Evolves tot act s.robotsToReady := by
  refine (State.eachSlot_keeps (P := fun t => o.Evolves tot act t ∧ t.mch.phase.inMatch = false) (fun k t kept => ?_)
    ⟨h, outside⟩).1
  obtain ⟨kept, out⟩ := kept
  split
  · next played =>
    refine ⟨State.setRobot_evolves kept (iff_of_false nofun fun vacant => ?_) rfl fun w _ _ sound active => ?_, out⟩
    · rcases played with state | state <;> rw [state] at vacant <;> cases vacant
    · exact State.claimless_of_phase (kept.active w sound active) out k
  · exact ⟨kept, out⟩

@[simp] theorem State.clearEjections_evolves : o.Evolves tot act s.clearEjections := by
  refine State.eachSlot_keeps (P := o.Evolves tot act) (fun k t kept => ?_) h
  by_cases ejected : (t.robot k).state = .ejected
  · refine State.setRobot_evolves_move kept (by rw [ejected]; nofun) (by simp [ejected]) rfl fun active => ?_
    rw [ejected] at active; cases active
  · exact State.setRobot_evolves_same kept (by simp [ejected]) rfl

/-- A JOIN is answered; a linked robot's record has its binding (R48, R49). -/
theorem State.joinOn_evolves (bound : act = true → ∀ k, (s.robot k).state.isLinked = true → (s.robot k).robotId.isSome = true)
    (team robotId : Half) (kit : Byte) : o.Evolves tot act (s.joinOn team robotId kit).1 := by
  unfold State.joinOn
  split
  · exact h
  · next k found =>
    have filled : (s.robot k).state ≠ .vacant := (State.slotOfTeam_some found).1
    have link {q : RobotRecord} (state : q.state = .linked) (alliance : q.alliance = (s.robot k).alliance)
        (not : act = true → (s.robot k).state ≠ .active) : o.Evolves tot act (s.setRobot k q) :=
      State.setRobot_evolves h (iff_of_false (by rw [state]; nofun) filled) alliance fun w active => absurd active (not w)
    dsimp only
    split
    · split
      · split
        · refine State.raiseRobot_evolves (State.setRobot_evolves_same h ?_ ?_) k _ <;> rfl
        · next unlinked =>
          refine State.raiseRobot_evolves (link ?_ ?_ fun _ active => unlinked ?_) k _
          · rfl
          · rfl
          · rw [active]; rfl
      · simp [h]
    · next unbound =>
      refine State.raiseRobot_evolves (link ?_ ?_ fun w active => ?_) k _
      · rfl
      · rfl
      · have known := bound w k (by rw [active]; rfl)
        rw [unbound] at known
        cases known

end

end Sys2Proof.Machine

/-! What holds, results of the bus, definitions and phases keep. -/
namespace Sys2Proof.Machine

/-- What each step of a walk establishes at its index and keeps at the others holds at every index behind the walk. -/
theorem State.eachIndex_settles {Q : Index → State → Prop} {f : Index → State → State} (makes : ∀ i t, Q i (f i t))
    (keeps : ∀ i j t, Q i t → Q i (f j t)) (s : State) (i : Index) : Q i (s.eachIndex f) := by
  have walk (l : List Index) : ∀ t : State, i ∈ l ∨ Q i t → Q i (l.foldl (fun t j => f j t) t) := by
    induction l with
    | nil => exact fun t done => done.elim (fun here => absurd here (List.not_mem_nil)) id
    | cons j l ih =>
      intro t done
      refine ih _ ?_
      rcases done with here | holds
      · rcases List.mem_cons.mp here with rfl | later
        · exact .inr (makes i t)
        · exact .inl later
      · exact .inr (keeps i j t holds)
  exact walk indices s (.inl (List.mem_finRange i))

section
variable {o s : State} {tot act : Bool} (h : o.Evolves tot act s)
include h

/-! ## Holds -/

@[simp] theorem State.pushHold_evolves (cause : HoldCause) (detail : Option Byte) : o.Evolves tot act (s.pushHold cause detail) := by
  refine State.askStopAll_evolves (State.eachIndex_keeps (P := o.Evolves tot act) (fun i _ kept => State.haltCarriage_evolves kept i) ?_)
  refine State.raiseHold_evolves (State.setMch_evolves h ?_) _
  rfl

@[simp] theorem State.requestPush_evolves (q : PushRequest) : o.Evolves tot act (s.requestPush q) := by
  unfold State.requestPush
  split
  · simp [h]
  · split
    · split
      · simp [h]
      · refine State.raiseHold_evolves (State.setMch_evolves h ?_) _
        rfl
    · simp [h]

@[simp] theorem State.popHold_evolves (top : Hold) (rest : List Hold) : o.Evolves tot act (s.popHold top rest) := by
  refine State.raiseHold_evolves (State.setMch_evolves h ?_) _
  rfl

@[simp] theorem State.pushPending_evolves : o.Evolves tot act s.pushPending := by
  unfold State.pushPending
  split
  · refine State.pushHold_evolves (State.setMch_evolves h ?_) _ _
    rfl
  · exact h

@[simp] theorem State.stackEmptied_evolves : o.Evolves tot act s.stackEmptied := by
  unfold State.stackEmptied
  split
  · exact h
  · exact State.eachIndex_keeps (P := o.Evolves tot act) (fun i _ kept => State.restartCarriage_evolves kept i) h

@[simp] theorem State.holdForFault_evolves (i : Index) (asks : Bool) : o.Evolves tot act (s.holdForFault i asks) := by
  unfold State.holdForFault
  split <;> simp [h]

/-! ## Results of the bus -/

@[simp] theorem State.handReading_evolves (i : Index) (role : PollRole) (reading : Reading) (delta : Nat) (restarted : Bool) :
    o.Evolves tot act (s.handReading i role reading delta restarted) := by
  unfold State.handReading
  split <;> simp [h]

@[simp] theorem State.pollCompleted_evolves (i : Index) (role : PollRole) (epoch : Byte) (reading : Reading) :
    o.Evolves tot act (s.pollCompleted i role epoch reading) := by
  unfold State.pollCompleted
  split
  · next r stands =>
    refine State.holdForFault_evolves (State.setDue_evolves (State.handReading_evolves (State.raiseElement?_evolves
      (State.raiseElement?_evolves (State.setElem_evolves h stands ?_ ?_ fun _ _ settled => ?_) _ _) _ _) _ _ _ _ _) _) _ _
    · rfl
    · rfl
    · exact settled
  · exact h

@[simp] theorem State.driveCompleted_evolves (i : Index) (op : BusOp) : o.Evolves tot act (s.driveCompleted i op) := by
  have counted : o.Evolves tot act (s.modElem i fun r => { r with failures := 0 }) :=
    State.modElem_evolves h i (fun _ _ => ⟨rfl, rfl⟩) fun _ _ _ _ settled => settled
  unfold State.driveCompleted
  dsimp only
  split
  · exact State.gateDriven_evolves counted i
  all_goals exact counted

@[simp] theorem State.handFailure_evolves (i : Index) (k : Kind) (op : BusOp) : o.Evolves tot act (s.handFailure i k op) := by
  cases k
  · exact State.goalFailed_evolves h i op
  · exact State.gateFailed_evolves h i op
  · exact State.stationFailed_evolves h i op
  · exact State.carriageFailed_evolves h i op

@[simp] theorem State.transactionFailed_evolves (i : Index) (op : BusOp) : o.Evolves tot act (s.transactionFailed i op) := by
  unfold State.transactionFailed
  split
  · next r stands =>
    have failed : o.Evolves tot act (s.setElem i (some r.failed)) :=
      State.setElem_evolves h stands rfl rfl fun _ _ settled => settled
    have handled := State.handFailure_evolves (State.raiseElement?_evolves failed i
      (failureNotice r.state (oneMoreFailure r.failures))) i r.part.kind op
    refine State.holdForFault_evolves ?_ _ _
    split
    · exact State.setDue_evolves handled i
    all_goals exact handled
  · exact h

@[simp] theorem State.endWith_evolves (i : Index) (op : BusOp) (result : BusResult) : o.Evolves tot act (s.endWith i op result) := by
  unfold State.endWith
  split
  · split
    · exact State.pollCompleted_evolves h _ _ _ _
    all_goals exact h
  · exact State.driveCompleted_evolves h _ _
  · exact State.transactionFailed_evolves h _ _

@[simp] theorem State.replied_evolves (f : InFlight) (frame : List Byte) : o.Evolves tot act (s.replied f frame) := by
  unfold State.replied
  repeat' split
  all_goals simp [h]

@[simp] theorem State.timedOut_evolves (f : InFlight) : o.Evolves tot act (s.timedOut f) := by
  unfold State.timedOut
  repeat' split
  all_goals simp [h]

/-! ## Definitions (R4 to R6) -/

/-- A record without claims, or none, takes the place of a record whose entries and marks were put away. -/
theorem State.replaceElem_evolves {i : Index} (x : Option ElementRecord) {c : Sched} (unmarked : c.marked = false)
    (idle : s.busBut 0 → ∀ e ∈ s.ebc.queue, e.isMotion = true → e.element ≠ some i) (free : ∀ r, x = some r → r.claim = ClaimPart.empty)
    (settled : ∀ r, x = some r → r.settled) : o.Evolves tot act ((s.setElem i x).setSched i c) := by
  have claim (j : Index) : ((((s.setElem i x).setSched i c).elem j).map (·.claim))
      = if j = i then x.map (·.claim) else (s.elem j).map (·.claim) := by
    rw [State.elem_congr (s := s.setElem i x) (by simp), State.elem_setElem]
    split <;> rfl
  have nobody (k : Slot) : ((s.setElem i x).setSched i c).holder i ≠ some k ∧ k ∉ ((s.setElem i x).setSched i c).waiters i := by
    rw [State.holder_eq, State.waiters_eq, claim, if_pos rfl]
    cases new : x with
    | none => simp
    | some r => simp [free r new, ClaimPart.empty]
  have others (j : Index) (other : j ≠ i) : ((((s.setElem i x).setSched i c).elem j).map (·.claim)) = (s.elem j).map (·.claim) := by
    rw [claim, if_neg other]
  refine h.trans ⟨fun _ => id, id, fun k => State.setElem_busBut k x unmarked (idle k), fun k => ?_, fun _ k => ?_, fun _ _ k => ?_⟩
  · refine State.claimsSound_change k others ?_ (fun j here => absurd here (nobody j).2) fun j here => absurd here (nobody j).1
    rw [State.claim_sound_eq, claim, if_pos rfl]
    cases new : x with
    | none => rfl
    | some r => rw [Option.map_some, free r new]; rfl
  · refine State.totalsSound_congr k (fun _ => rfl) rfl rfl id fun _ old j r stands => ?_
    rw [State.elem_congr (s := s.setElem i x) (by simp), State.elem_setElem] at stands
    split at stands
    · exact settled r stands
    · exact old j r stands
  · refine State.claimantsActive_of k (fun j k claims => .inl ?_) (fun _ active _ => active) id
    by_cases here : j = i
    · subst here; exact absurd claims (not_or.mpr (nobody k))
    · rwa [State.holder_eq, State.waiters_eq, others j here, ← State.holder_eq, ← State.waiters_eq] at claims

omit h in
/-- No entry of an element that was put away is queued. -/
theorem State.putAway_idle (s : State) (i : Index) : ∀ e ∈ (s.putAway i).ebc.queue, e.element ≠ some i := by
  obtain ⟨_, _, _, _, _, _, _, _, _, empty, _⟩ := State.putAway_spec s i
  intro e here same
  exact List.filter_eq_nil_iff.mp empty e here (by simp [Entry.isFor, same])

@[simp] theorem State.undefine_evolves (i : Index) : o.Evolves tot act (s.undefine i) := by
  have unmarked : Sched.clear.marked = false := rfl
  exact State.raiseElement_evolves (State.replaceElem_evolves (State.putAway_evolves h i) none unmarked
    (fun _ e here _ => State.putAway_idle s i e here) (fun _ => nofun) fun _ => nofun) _ _

@[simp] theorem State.askFirstLamp_evolves (i : Index) (part : KindPart) : o.Evolves tot act (s.askFirstLamp i part) := by
  unfold State.askFirstLamp
  split <;> simp [h]

omit h in
/-- No MOTION is queued of an index without a record. -/
theorem State.idle_of_undefined (bus : s.busBut 0) {i : Index} (undefined : s.elem i = none) :
    ∀ e ∈ s.ebc.queue, e.isMotion = true → e.element ≠ some i := by
  intro e here motion same
  obtain ⟨m, op⟩ := e.isMotion_iff.mp motion
  obtain ⟨j, element, kind⟩ := (s.motionsFit_iff.mp bus.2).1 e here m op
  obtain rfl := Option.some.inj (element.symm.trans same)
  cases m <;> simp [State.gateAt_eq, State.carriageAt_eq, undefined] at kind

theorem State.define_evolves (i : Index) {r : ElementRecord} (free : r.claim = ClaimPart.empty) (settled : r.settled) :
    o.Evolves tot act (s.define i r) := by
  have unmarked : s.schedNew.marked = false := rfl
  have put : ∃ t, t = (if (s.elem i).isSome then s.putAway i else s) ∧ o.Evolves tot act t
      ∧ (t.busBut 0 → ∀ e ∈ t.ebc.queue, e.isMotion = true → e.element ≠ some i) := by
    refine ⟨_, rfl, ?_⟩
    split
    · exact ⟨State.putAway_evolves h i, fun _ e here _ => State.putAway_idle s i e here⟩
    · next undefined => exact ⟨h, fun bus => State.idle_of_undefined bus (by simpa using undefined)⟩
  obtain ⟨t, same, kept, idle⟩ := put
  unfold State.define
  rw [← same]
  exact State.raiseElement_evolves (State.askFirstLamp_evolves (State.askRefresh_evolves
    (State.replaceElem_evolves kept (some r) unmarked idle (fun _ new => Option.some.inj new ▸ free)
      fun _ new => Option.some.inj new ▸ settled) i) i _) _ _

omit h in
theorem kindPartOf_settled {k : Kind} {bytes : List Byte} {part : KindPart} (coded : kindPartOf k bytes = some part) {p : GoalPart}
    (goal : part = .goal p) : p.window = .closed := by
  subst goal
  unfold kindPartOf at coded
  repeat' split at coded
  all_goals simp only [Option.some.injEq, KindPart.goal.injEq, reduceCtorEq] at coded
  subst coded
  rfl

omit h in
/-- The record of a DEFINE-ELEMENT has no claims, and no window of it closes. -/
theorem recordOf_fresh {f : ElementFields} {i : Index} {r : ElementRecord} (coded : recordOf f = some (i, r)) :
    r.claim = ClaimPart.empty ∧ r.settled := by
  unfold recordOf at coded
  repeat' split at coded
  all_goals simp only [Option.some.injEq, Prod.mk.injEq, reduceCtorEq] at coded
  next part =>
    obtain ⟨_, rfl⟩ := coded
    exact ⟨rfl, fun p goal closing => absurd (closing.symm.trans (kindPartOf_settled part goal)) (by decide)⟩

/-! ## Rows that change hands (R46, R47) -/

omit h in
theorem State.sumOf_blank (blank : s.blank) (side : Alliance) : s.sumOf side = 0 := by
  have row (r : Fin 28) : (indices.map fun i => (s.tu.cell r i).value).sum = 0 := by simp [blank r]
  simp [State.sumOf, row]

/-- In SETUP and STAGED nobody has claims, and a row counts for nothing. -/
theorem State.replaceRobot_evolves (early : s.mch.phase.early) (k : Slot) (q : RobotRecord) : o.Evolves tot act (s.setRobot k q) := by
  have outside : s.mch.phase.inMatch = false := by rcases early with phase | phase <;> rw [phase] <;> rfl
  refine ⟨h.queue, h.tally, h.bus, h.claims, fun w sound => ?_, fun w claims active => ?_⟩
  · have kept := h.totals w sound
    rw [State.totalsSound_iff] at kept ⊢
    obtain ⟨sums, quiet⟩ := kept
    obtain ⟨blank, settled⟩ := quiet early
    have zero (t : State) (tu : t.tu = s.tu) (side : Alliance) : t.sumOf side = 0 :=
      State.sumOf_blank (s := t) (fun row i => by rw [tu]; exact blank row i) side
    refine ⟨?_, fun _ => ⟨blank, settled⟩⟩
    unfold State.sums at sums ⊢
    simp only [zero s rfl, zero (s.setRobot k q) rfl] at sums ⊢
    exact sums
  · exact State.claimantsActive_of_none fun j => State.claimless_of_phase (h.active w claims active) outside j

/-! ## Phases -/

omit h in
theorem State.emptyClaims_claimless (s : State) (k : Slot) : s.emptyClaims.claimless k := by
  have emptied (i : Index) : ((s.eachIndex fun i t => t.emptyClaim i).elem i).map (·.claim) = none
      ∨ ((s.eachIndex fun i t => t.emptyClaim i).elem i).map (·.claim) = some ClaimPart.empty := by
    have claim (t : State) (i j : Index) : ((t.emptyClaim i).elem j).map (·.claim)
        = if j = i then ((t.elem i).map (·.claim)).map fun _ => ClaimPart.empty else (t.elem j).map (·.claim) := by
      rw [← State.modClaim_claim]
      unfold State.emptyClaim
      dsimp only
      split
      · rw [State.elem_holderChanged]
        split
        · next here => subst here; rw [Option.map_map]; rfl
        · rfl
      · rfl
    refine State.eachIndex_settles (Q := fun i t => (t.elem i).map (·.claim) = none ∨ (t.elem i).map (·.claim) = some ClaimPart.empty)
      (fun i t => ?_) (fun i j t kept => ?_) s i
    · rw [claim, if_pos rfl]
      cases (t.elem i).map (·.claim) <;> simp
    · rw [claim]
      split
      · cases (t.elem j).map (·.claim) <;> simp
      · exact kept
  intro i
  rw [State.holder_eq, State.waiters_eq, State.elem_congr (s := s.eachIndex fun i t => t.emptyClaim i) (t := s.emptyClaims)
    (by rw [State.emptyClaims]; simp only [State.raiseClaim_frame])]
  rcases emptied i with none_ | empty
  · simp [none_]
  · simp [empty, ClaimPart.empty]

/-- A phase that is not SETUP or STAGED and, if the match goes on, is in it. -/
theorem State.setPhase_evolves {p : Phase} (early : tot = true → p.early → s.mch.phase.early)
    (playing : act = true → s.mch.phase.inMatch = true → p.inMatch = true) (cause : PhaseCause) (remaining : Nat) :
    o.Evolves tot act (s.setPhase p cause remaining) :=
  State.raise_evolves (State.setMch_evolves' h early playing) _

/-- Nobody has claims once ENDED is entered. -/
@[simp] theorem State.enterEnded_evolves (cause : PhaseCause) : o.Evolves tot act (s.enterEnded cause) := by
  have ended := State.emptyClaims_evolves (State.setPhase_evolves (p := .ended) (h.weaken id nofun : o.Evolves tot false s)
    (fun _ early => by rcases early with e | e <;> cases e) nofun cause 0)
  have entered : o.Evolves tot act ((s.setPhase .ended cause 0).emptyClaims) :=
    { ended with active := fun _ _ _ => State.claimantsActive_of_none (State.emptyClaims_claimless _) }
  have outside : (s.setPhase .ended cause 0).emptyClaims.mch.phase.inMatch = false := by simp [State.setPhase, Phase.inMatch]
  exact State.awaitFinal_evolves (State.evaluateWindows_evolves (State.robotsToReady_evolves entered outside)) _

theorem State.enterNext_evolves {p : Phase} (playing : p.inMatch = true) (remaining : Nat) :
    o.Evolves tot act (s.enterNext p remaining) :=
  State.evaluateWindows_evolves (State.setPhase_evolves h (fun _ early => absurd early (Phase.not_early_of_inMatch playing))
    (fun _ _ => playing) _ _)

omit h in
theorem Durations.after_inMatch {d : Durations} {p : Phase} {q : Phase × Nat} (later : q ∈ d.after p) : q.1.inMatch = true := by
  cases p <;> simp [Durations.after] at later
  case opening => rcases later with rfl | rfl | rfl <;> rfl
  case transition => rcases later with rfl | rfl <;> rfl
  case play => subst later; rfl

@[simp] theorem State.runOut_evolves : o.Evolves tot act s.runOut := by
  unfold State.runOut
  split
  · next found => exact State.enterNext_evolves h (Durations.after_inMatch (List.mem_of_find?_eq_some found)) _
  · exact State.enterEnded_evolves h _

theorem State.handTenth_evolves (playing : s.mch.phase.inMatch = true) : o.Evolves tot act s.handTenth := by
  have claims := State.eachIndex_keeps (P := fun t => o.Evolves tot act t ∧ t.mch.phase.inMatch = true)
    (f := fun i u => u.claimTenth i) (fun i _ kept => ⟨State.claimTenth_evolves kept.1 i, by simpa using kept.2⟩) ⟨h, playing⟩
  have benches := State.eachSlot_keeps (P := fun t => o.Evolves tot act t ∧ t.mch.phase.inMatch = true)
    (f := fun k u => u.benchTenth k) (fun k _ kept => ⟨State.benchTenth_evolves kept.1 k, by simpa using kept.2⟩) claims
  exact (State.eachIndex_keeps (P := fun t => o.Evolves tot act t ∧ t.mch.phase.inMatch = true)
    (f := fun i u => u.stationTenth i) (fun i _ kept => ⟨State.stationTenth_evolves kept.1 kept.2 i, by simpa using kept.2⟩) benches).1

theorem State.matchTenth_evolves (playing : s.mch.phase.inMatch = true) : o.Evolves tot act s.matchTenth := by
  have ticked : o.Evolves tot act (s.setMch s.mch.tenth) := State.setMch_evolves h rfl
  have handed := State.handTenth_evolves ticked playing
  unfold State.matchTenth
  dsimp only
  split
  · exact State.runOut_evolves handed
  · exact handed

omit h in
theorem Durations.firstPhase_inMatch (d : Durations) : d.firstPhase.1.inMatch = true := by
  unfold Durations.firstPhase
  repeat' split
  all_goals rfl

@[simp] theorem State.startMatch_evolves : o.Evolves tot act s.startMatch := by
  have zeroed : o.Evolves tot act (s.setMch { s.mch with matchTime := 0, tenthTimer := 0 }) := State.setMch_evolves h rfl
  have playing := s.mch.durations.firstPhase_inMatch
  exact State.evaluateWindows_evolves (State.activateReady_evolves (State.setPhase_evolves zeroed
    (fun _ early => absurd early (Phase.not_early_of_inMatch playing)) (fun _ _ => playing) _ _))

theorem State.toStaged_evolves (setup : s.mch.phase = .setup) (remaining : Nat) :
    o.Evolves tot act (((s.setMch s.mch.startSilence).setPhase .staged .arm remaining).evaluateWindows) := by
  have phase : s.mch.startSilence.phase = s.mch.phase := by
    unfold Mch.startSilence
    split <;> rfl
  have silent : o.Evolves tot act (s.setMch s.mch.startSilence) := State.setMch_evolves h phase
  refine State.evaluateWindows_evolves (State.setPhase_evolves silent (fun _ _ => .inl ?_) (fun _ playing => ?_) _ _)
  · exact phase.trans setup
  · rw [State.setMch_mch, phase, setup] at playing; cases playing

/-! ## CLEAR-MATCH (R160) -/

omit h in
theorem ElementRecord.onGoal_settled {f : GoalPart → GoalPart} {r : ElementRecord} (closed : ∀ p, r.part = .goal p → (f p).window ≠ .closing) :
    (r.onGoal f).settled := by
  intro p part closing
  unfold ElementRecord.onGoal at part
  split at part
  · next goal =>
    obtain rfl := KindPart.goal.inj part
    exact absurd closing (closed _ goal)
  · next other => exact absurd part (other p)

omit h in
/-- No goal closes once every goal is cleared. -/
theorem State.clearGoals_settled (s : State) : (s.eachIndex fun i u => u.clearGoal i).settled := by
  have relit (p : GoalPart) : p.relit.window = p.window := by unfold GoalPart.relit; rfl
  have elem (t : State) (i j : Index) : (t.clearGoal i).elem j
      = if j = i then ((t.elem i).map (ElementRecord.onGoal GoalPart.cleared)).map (ElementRecord.onGoal GoalPart.relit) else t.elem j := by
    rw [State.clearGoal, State.elem_relightGoal, State.elem_modGoal, State.elem_modGoal, if_pos rfl]
    split <;> rfl
  have cleared (t : State) (i : Index) (r : ElementRecord)
      (stands : ((t.elem i).map (ElementRecord.onGoal GoalPart.cleared)).map (ElementRecord.onGoal GoalPart.relit) = some r) : r.settled := by
    rw [Option.map_map] at stands
    obtain ⟨q, _, rfl⟩ := Option.map_eq_some_iff.mp stands
    refine ElementRecord.onGoal_settled fun p part => ?_
    rw [relit]
    unfold ElementRecord.onGoal at part
    split at part
    · obtain rfl := KindPart.goal.inj part
      exact WindowState.noConfusion
    · next other => exact absurd part (other p)
  intro i r
  refine State.eachIndex_settles (Q := fun i t => ∀ r, t.elem i = some r → r.settled) (fun i t r stands => ?_)
    (fun i j t kept r stands => ?_) s i r
  · rw [elem, if_pos rfl] at stands
    exact cleared t i r stands
  · rw [elem] at stands
    split at stands
    · exact cleared t j r stands
    · exact kept r stands

@[simp] theorem State.noticeCleared_evolves (before : Mch) : o.Evolves tot act (s.noticeCleared before) := by
  unfold State.noticeCleared
  split <;> simp [h]

/-- The totals are the sums of their rows again once the tally and the goals are cleared. -/
theorem State.reportClear_evolves {tot' : Bool} : o.Evolves tot' act s.reportClear := by
  have tally := State.eachIndex_keeps (P := o.Evolves false act) (f := fun i u => u.clearGoal i)
    (fun i _ kept => State.clearGoal_evolves kept i) (State.clearTally_evolves (h.weaken nofun id))
  have tu : (s.clearTally.eachIndex fun i u => u.clearGoal i).tu = s.clearTally.tu :=
    State.eachIndex_keeps (P := fun t => t.tu = s.clearTally.tu) (fun i t kept => by simpa using kept) rfl
  have cells : (s.clearTally.eachIndex fun i u => u.clearGoal i).tu.cells = Vector.replicate 1344 Cell.zero := by rw [tu]; rfl
  have cleared : o.Evolves tot' act (s.clearTally.eachIndex fun i u => u.clearGoal i) := by
    refine { tally with totals := fun _ _ => (State.totalsSound_iff _).mpr ⟨State.sums_zero cells ?_, fun _ => ⟨?_, ?_⟩⟩ }
    · rw [tu]; rfl
    · intro row i; rw [Tu.cell_zero cells]; rfl
    · exact State.clearGoals_settled _
  refine State.eachIndex_keeps (P := o.Evolves tot' act) (fun i _ kept => State.stopHalted_evolves kept i) (State.clearRoles_evolves
    (State.eachIndex_keeps (P := o.Evolves tot' act) (fun i _ kept => State.modSticky_evolves kept i _) (State.clearEjections_evolves
      (State.eachIndex_keeps (P := o.Evolves tot' act) (fun i _ kept => State.clearStation_evolves kept i) cleared))))

theorem State.clearMatch_evolves (outside : s.mch.phase.inMatch = false) : o.Evolves tot act s.clearMatch := by
  have before : o.Evolves false act s := h.weaken nofun id
  have cleared : o.Evolves false act (s.setMch s.mch.cleared) :=
    State.setMch_evolves' before (fun not => Bool.noConfusion not) fun _ playing => by rw [outside] at playing; cases playing
  exact State.reportClear_evolves (State.raise_evolves (State.noticeCleared_evolves cleared _) _)

end

end Sys2Proof.Machine

/-! What the owners of the host requests and the other commands keep. -/
namespace Sys2Proof.Machine

section
variable {o s : State} {tot act : Bool} (h : o.Evolves tot act s)
include h

/-! ## Host requests -/

theorem defineOwner_evolves (fields : ElementFields) : o.Evolves tot act (defineOwner fields s).state := by
  unfold defineOwner
  split
  · exact h
  · split
    · exact h
    · split
      · exact h
      · next coded =>
        obtain ⟨free, settled⟩ := recordOf_fresh coded
        split
        · exact h
        · exact State.define_evolves h _ free settled

theorem armOwner_evolves : o.Evolves tot act (armOwner s).state := by
  unfold armOwner
  split
  · exact h
  · next setup =>
    split
    · exact h
    · rw [taken_state]; exact State.toStaged_evolves h (Classical.not_not.mp setup) _

theorem clearMatchOwner_evolves : o.Evolves tot act (clearMatchOwner s).state := by
  unfold clearMatchOwner
  split
  · exact h
  · next outside =>
    split
    · exact h
    · rw [taken_state]; exact State.clearMatch_evolves h (Bool.eq_false_iff.mpr outside)

omit h in
theorem Phase.early_of_assignable {p : Phase} (assignable : p.assignable = true) : p.early := by
  cases p <;> simp_all [Phase.assignable, Phase.early]

theorem assignOwner_evolves (slot : Byte) (team : Half) (alliance : Byte) : o.Evolves tot act (assignOwner slot team alliance s).state := by
  unfold assignOwner
  split
  · exact h
  · split
    · exact h
    · next early =>
      have early := Phase.early_of_assignable (by simpa using early)
      repeat' split
      case h_1.isFalse.isFalse.isFalse => exact State.replaceRobot_evolves h early _ _
      all_goals exact h

theorem unassignOwner_evolves (slot : Byte) : o.Evolves tot act (unassignOwner slot s).state := by
  unfold unassignOwner
  split
  · exact h
  · next early =>
    have early := Phase.early_of_assignable (by simpa using early)
    split
    · exact h
    · split
      · exact h
      · exact State.replaceRobot_evolves h early _ _

theorem setTimingOwner_evolves (fields : TimingFields) : o.Evolves tot act (setTimingOwner fields s).state := by
  unfold setTimingOwner
  split
  · exact h
  · split
    · exact h.congr rfl rfl rfl rfl (fun _ => rfl) rfl
    · exact h

theorem benchOwner_evolves (slot seconds : Byte) : o.Evolves tot act (benchOwner slot seconds s).state := by
  unfold benchOwner
  split
  · exact h
  · split
    · next active =>
      refine State.raiseRobot_evolves (State.leave_evolves h active ?_ ?_) _ _
      · nofun
      · rw [State.robot_vacate]
    · next benched => exact State.benchRobot_evolves h benched _
    all_goals exact h

theorem reinstateOwner_evolves (slot : Byte) : o.Evolves tot act (reinstateOwner slot s).state := by
  unfold reinstateOwner
  split
  · exact h
  · split
    · next benched => exact State.unbench_evolves h benched _
    · exact h

theorem ejectOwner_evolves (slot : Byte) : o.Evolves tot act (ejectOwner slot s).state := by
  unfold ejectOwner
  split
  · exact h
  · split
    · next active =>
      refine State.raiseRobot_evolves (State.leave_evolves h active ?_ ?_) _ _
      · nofun
      · rw [State.robot_vacate]
    · next benched => exact State.ejectRobot_evolves h benched _
    all_goals exact h

theorem signalOwner_evolves (slot setMask clearMask : Byte) : o.Evolves tot act (signalOwner slot setMask clearMask s).state := by
  unfold signalOwner
  split
  · exact h
  · split
    · exact h
    · refine State.setRobot_evolves_same h ?_ ?_ <;> rfl

theorem setWindowOwner_evolves (index control : Byte) : o.Evolves tot act (setWindowOwner index control s).state := by
  unfold setWindowOwner
  split
  · split
    · exact h
    · next stands =>
      split
      · next part =>
        refine State.evaluateGoal_evolves (State.setGoal_evolves_same h (State.goal_of stands part) ?_ ?_) _ <;> rfl
      · next part => exact State.evaluateStation_evolves (State.setStation_evolves h (State.station_of stands part) _) _
      all_goals exact h
  · exact h

theorem setQuotaOwner_evolves (index quota : Byte) : o.Evolves tot act (setQuotaOwner index quota s).state := by
  unfold setQuotaOwner
  split
  · exact h
  · split
    · exact h
    · next stands =>
      split
      · next p part =>
        have same : (p.withQuota quota.toNat).window = p.window ∧ (p.withQuota quota.toNat).closingInMatch = p.closingInMatch := by
          unfold GoalPart.withQuota
          split <;> exact ⟨rfl, rfl⟩
        exact State.setGoal_evolves_same h (State.goal_of stands part) same.1 same.2
      all_goals exact h

theorem setLampOwner_evolves (index mode : Byte) : o.Evolves tot act (setLampOwner index mode s).state := by
  unfold setLampOwner
  split
  · split
    · exact h
    · next stands =>
      split
      · next part =>
        split
        · exact h
        · refine State.relightGoal_evolves (State.setGoal_evolves_same h (State.goal_of stands part) ?_ ?_) _ <;> rfl
      · next part =>
        split
        · exact h
        · exact State.relightStation_evolves (State.setStation_evolves h (State.station_of stands part) _) _
      all_goals exact h
  · exact h

theorem setGateOwner_evolves (tag index setpoint : Byte) : o.Evolves tot act (setGateOwner tag index setpoint s).state := by
  unfold setGateOwner
  split
  · split
    · exact h
    · next stands =>
      split
      · next part =>
        have gate := State.gate_of stands part
        split
        · exact h
        · split
          · exact h
          · split
            · exact h
            · split
              · exact h
              · split
                · exact h
                · exact h
                · next asked => exact State.sendGate_evolves h gate asked _ nofun
      all_goals exact h
  · exact h

theorem State.setGoing_evolves {i : Index} {p : CarriagePart} (carriage : s.carriageAt i = some p) (q : CarriagePart) (zone : Fin 8) :
    o.Evolves tot act (s.setGoing i q zone).state := by
  unfold State.setGoing
  split
  · exact State.setCarriage_evolves h carriage _
  · exact State.driveCarriage_evolves h carriage _

theorem driveCarriageOwner_evolves (index command direction : Byte) :
    o.Evolves tot act (driveCarriageOwner index command direction s).state := by
  unfold driveCarriageOwner
  split
  · split
    · exact h
    · split
      · exact h
      · next stands =>
        split
        · next part =>
          have carriage := State.carriage_of stands part
          split
          · exact State.driveCarriage_evolves h carriage _
          · split
            · exact h
            · split
              · exact h
              · exact State.setGoing_evolves h carriage _ _
          · split
            · exact h
            · split
              · exact h
              · dsimp only
                split
                · exact State.driveCarriage_evolves h carriage _
                · exact State.setGoing_evolves h carriage _ _
        all_goals exact h
  · exact h

theorem adjustOwner_evolves (row column : Byte) (points : Half) : o.Evolves tot act (adjustOwner row column points s).state := by
  unfold adjustOwner
  split
  · exact h
  · split
    · next late =>
      split
      · split
        · split
          · exact h
          · refine State.addPoints_evolves h (fun _ _ early => ?_) _ _ _
            rcases early with phase | phase <;> rw [phase] at late <;> cases late
        · exact h
      · exact h
    · exact h

theorem State.sheetReply_evolves (parts : Option Nat) : o.Evolves tot act (s.sheetReply parts).state := by
  unfold State.sheetReply
  split <;> exact h

theorem sheetOwner_evolves (mode order : Byte) : o.Evolves tot act (sheetOwner mode order s).state := by
  have snapped := State.hostSnapshot_evolves h
  unfold sheetOwner
  split
  · split
    · exact h
    · split
      · exact State.sheetReply_evolves snapped _
      · split
        · next image => exact State.sheetReply_evolves (State.beginSend_evolves h image _) _
        · exact h
      · exact State.sheetReply_evolves (State.beginSend_evolves snapped rfl _) _
  · exact h

end

theorem owner_evolves {i : Instr} {owner : State → Answered} (request : ownerOf i = some owner) (s : State) :
    s.Evolves true true (owner s).state := by
  have h := State.Evolves.refl s true true
  cases i
  all_goals simp only [ownerOf, Option.some.injEq, reduceCtorEq] at request
  all_goals subst request
  case setTiming => exact setTimingOwner_evolves h _
  case defineElement => exact defineOwner_evolves h _
  case assignRobot => exact assignOwner_evolves h _ _ _
  case unassignRobot => exact unassignOwner_evolves h _
  case arm => exact armOwner_evolves h
  case clearMatch => exact clearMatchOwner_evolves h
  case bench => exact benchOwner_evolves h _ _
  case reinstate => exact reinstateOwner_evolves h _
  case eject => exact ejectOwner_evolves h _
  case signal => exact signalOwner_evolves h _ _ _
  case setWindow => exact setWindowOwner_evolves h _ _
  case setQuota => exact setQuotaOwner_evolves h _ _
  case setLamp => exact setLampOwner_evolves h _ _
  case setGate => exact setGateOwner_evolves h _ _ _
  case driveCarriage => exact driveCarriageOwner_evolves h _ _ _
  case adjust => exact adjustOwner_evolves h _ _ _
  case sheet => exact sheetOwner_evolves h _ _
  case identify | readMatch => exact h
  case resetPart => exact h.congr rfl rfl rfl rfl (fun _ => rfl) rfl
  case setNotices =>
    unfold setNoticesOwner
    split
    · exact h.congr rfl rfl rfl rfl (fun _ => rfl) rfl
    · exact h
  all_goals
    dsimp only [removeOwner, startOwner, endMatchOwner, holdOwner, resumeOwner, readElementOwner, readRobotOwner, sheetStopOwner]
    repeat' split
    all_goals simp (maxDischargeDepth := 4) [h]

end Sys2Proof.Machine

/-! Settles O56 and O57: what every command and the passing of time keep of the element bus and of the claims. -/
namespace Sys2Proof.Machine

section
variable {o s : State} {tot act : Bool} (h : o.Evolves tot act s)
include h

/-! ## Time -/

omit h in
theorem State.elem_slice (s : State) (i : Index) : s.slice.elem i = (s.elem i).map ElementRecord.tick := by
  simp [State.slice, State.elem]

omit h in
/-- The passing of time leaves a record's kind and claim, and its goal part. -/
theorem ElementRecord.tick_same (r : ElementRecord) :
    r.tick.part.kind = r.part.kind ∧ r.tick.claim = r.claim ∧ (r.settled → r.tick.settled) := by
  unfold ElementRecord.tick
  split
  · next p part =>
    have same : (r.setPart (.gate { p with motion := p.motion.tick })).part = .gate { p with motion := p.motion.tick } := rfl
    refine ⟨by rw [same, part]; rfl, rfl, fun _ q goal => ?_⟩
    rw [same] at goal
    cases goal
  all_goals exact ⟨rfl, rfl, id⟩

@[simp] theorem State.slice_evolves : o.Evolves tot act s.slice := by
  have claims : s.sameClaims s.slice := fun i => by
    rw [State.elem_slice, Option.map_map]
    exact congrArg (Option.map · _) (funext fun r => r.tick_same.2.1)
  refine h.trans ⟨fun n k => Hlp.within_congr k rfl, id, fun k => ?_, fun k => State.claimsSound_congr k claims, fun _ k => ?_,
    fun _ _ k => ?_⟩
  · refine State.busBut_congr k rfl rfl (fun _ => Sched.marksWithin_refl _) fun i => ?_
    rw [State.elem_slice, Option.map_map]
    exact congrArg (Option.map · _) (funext fun r => r.tick_same.1)
  · refine State.totalsSound_congr k (fun _ => rfl) rfl rfl id fun _ settled i r stands => ?_
    rw [State.elem_slice] at stands
    obtain ⟨q, before, rfl⟩ := Option.map_eq_some_iff.mp stands
    exact q.tick_same.2.2 (settled i q before)
  · exact State.claimantsActive_congr k claims (fun _ active _ => active) id

/-! ## The radio -/

@[simp] theorem State.takeSlotFrame_evolves (k : Slot) (f : SlotFields) : o.Evolves tot act (s.takeSlotFrame k f) := by
  have heard (c : Rcc) := State.readyFlag_evolves (State.hear_evolves (State.setRcc_evolves h c) k) k f.ready
  unfold State.takeSlotFrame
  split
  · dsimp only
    split
    · exact State.passRequest_evolves (heard _) k _ _
    · exact heard _
  · exact h

theorem State.deliver_evolves (bound : act = true → ∀ k, (s.robot k).state.isLinked = true → (s.robot k).robotId.isSome = true)
    (window : Window) (frame : List Byte) : o.Evolves tot act (s.deliver window frame) := by
  unfold State.deliver
  split
  · exact State.takeSlotFrame_evolves h _ _
  · unfold State.takeJoin
    split
    · exact h
    · exact State.setRcc_evolves (State.joinOn_evolves h bound _ _ _) _
  · exact h

end

/-! ## Commands that are no host request -/

/-- The state at the end of a reset. -/
def State.isReset (t : State) : Prop := ∃ cause raw pending, t = State.afterReset cause raw pending

theorem State.isReset_resetBy (s : State) (cause : ResetCause) : (s.resetBy cause).isReset := ⟨cause, s.mch.raw, s.pending, rfl⟩

theorem State.playing_of_matchRuns {s : State} (runs : s.matchRuns = true) : s.mch.phase.inMatch = true :=
  (Bool.and_eq_true_iff.mp runs).1

/-- The head frame leaves the queue, which a send in flight may fill again. -/
theorem State.headSent_evolves {s : State} {tot act : Bool} {head : OutFrame} {rest : List OutFrame} (out : s.hlp.out = head :: rest) :
    s.Evolves tot act (s.headSent head rest) := by
  refine State.pump_evolves (s := s.setHlp { s.hlp with out := rest, txBits := 0, hostTx := head.bytes }) ?_
  exact ⟨fun n k => Hlp.tail_within k out rfl, id, id, id, fun _ => id, fun _ _ => id⟩

theorem execTransactionSelect_evolves {s : State} {tot act : Bool} : Leads (execTransactionSelect s) (s.Evolves tot act) := by
  refine leads_next ((State.Evolves.refl s tot act).busOp (fun bus => leads_next_iff.mp (execTransactionSelect_busBut bus)) ?_ ?_ ?_ ?_ ?_)
  all_goals
    repeat' split
    all_goals simp

/-- A command that is no host request, and no HOST_FRAME that may carry one, keeps what the owners keep, or resets the part. -/
theorem exec_evolves {i : Instr} (s : State) (act : Bool)
    (bound : act = true → ∀ k, (s.robot k).state.isLinked = true → (s.robot k).robotId.isSome = true)
    (frame : isHostFrame i = false) (plain : ownerOf i = none) :
    Leads (exec i s) (fun t => t.isReset ∨ s.Evolves true act t) := by
  have h := State.Evolves.refl s true act
  have evolves {t : State} (k : s.Evolves true act t) : t.isReset ∨ s.Evolves true act t := .inr k
  cases i
  case hostFrame => exact Bool.noConfusion frame
  case transactionSelect =>
    obtain ⟨t, run, k⟩ := execTransactionSelect_evolves (s := s) (tot := true) (act := act)
    exact ⟨t, run, .inr k⟩
  all_goals simp only [ownerOf, reduceCtorEq] at plain
  all_goals refine leads_next ?_
  case powerOnReset => exact .inl (s.isReset_resetBy _)
  case lineReset => exact .inl (s.isReset_resetBy _)
  case resetPartEffect =>
    split
    · exact .inl (s.isReset_resetBy _)
    · exact .inr h
  case outboundFrameSent =>
    split
    · next out =>
      split
      · exact .inl (s.isReset_resetBy _)
      · exact .inr (State.headSent_evolves out)
    · exact .inr h
  all_goals refine evolves ?_
  case claim => exact State.handOn_evolves h _ _ _ fun k => State.claimOn_evolves k _ _
  case release => exact State.handOn_evolves h _ _ _ fun k => State.releaseOn_evolves k _ _
  case cancel => exact State.handOn_evolves h _ _ _ fun k => State.cancelOn_evolves k _
  case act => exact State.handOn_evolves h _ _ _ fun k => State.actOn_evolves k _ _ _ _
  case ackSignal => exact State.handOn_evolves h _ _ _ fun k => State.ackOn_evolves k _ _
  case hostFrameGapTimeout => exact h.congr rfl rfl rfl rfl (fun _ => rfl) rfl
  case frameInAssemblyDiscarded =>
    split
    · exact h.congr rfl rfl rfl rfl (fun _ => rfl) rfl
    · exact h
  case slotFrame => exact State.deliver_evolves h bound _ _
  case join => exact State.deliver_evolves h bound _ _
  case cycleStart => exact State.setRcc_evolves (State.rosterCycle_evolves (State.setRcc_evolves h _)) _
  case robotSilent k =>
    dsimp only
    split
    · refine State.fallSilent_evolves (State.setRobot_evolves_same h ?_ ?_) k <;> rfl
    · exact h
  case drop k =>
    dsimp only
    split
    · next drops => exact State.dropRobot_evolves h drops.1
    · exact h
  case benchEnded k =>
    split
    · next benched _ =>
      split
      · exact State.unbench_evolves h benched _
      · exact h
    · exact h
  case turnaroundExpiry => exact h.busOp (fun k => State.busBut_sameMarks k rfl rfl rfl rfl) rfl rfl rfl rfl rfl
  case busQuietTimeEnd => exact h.busOp (fun k => State.busBut_sameMarks k rfl rfl rfl rfl) rfl rfl rfl rfl rfl
  case refreshDue i =>
    split
    · have owed : s.Evolves true act (s.modSched i fun c => { c with owed := true }) :=
        h.busOp (fun k => State.modSched_busBut k (Sched.marksWithin_refl _)) rfl rfl rfl rfl rfl
      exact State.askRefresh_evolves owed i
    · exact h
  case refreshPollOverdue i =>
    exact h.busOp (fun k => State.overdue_busBut k i) (by simp) (by simp) (by simp) (by simp) (by simp)
  case guardRunOut i =>
    repeat' split
    case h_1.isTrue => exact State.modClaim_evolves_same h i fun _ => ⟨rfl, rfl⟩
    all_goals exact h
  case matchTenth =>
    split
    · next runs => exact State.matchTenth_evolves h (State.playing_of_matchRuns runs)
    · exact h
  case stationAccrualSecond =>
    split
    · split
      · next now => exact State.accrue_evolves h (State.playing_of_matchRuns (Bool.and_eq_true_iff.mp now).1) _
      · exact h
    · exact h
  case hostSilenceExpiry =>
    split
    · have out : s.Evolves true act (s.setMch s.mch.silenceOut) := State.setMch_evolves h rfl
      exact State.requestPush_evolves out _
    · exact h
  case fieldStopLineChange =>
    split
    · exact h
    · exact State.setMch_evolves h rfl
  case fieldStopAsserted =>
    split
    · have filtered : s.Evolves true act (s.setMch { s.mch with filtered := true }) := State.setMch_evolves h rfl
      exact State.requestPush_evolves filtered _
    · exact h
  case fieldStopReleased =>
    split
    · exact State.setMch_evolves h rfl
    · exact h
  all_goals
    repeat' split
    all_goals simp [h]

/-! ## What every step keeps -/

@[simp] theorem State.restartSilence_evolves {o s : State} {tot act : Bool} (h : o.Evolves tot act s) :
    o.Evolves tot act s.restartSilence := by
  unfold State.restartSilence
  split
  · exact State.setMch_evolves h rfl
  · exact h

/-- What a state that has evolved keeps of another, with a sound roster in both. -/
structure State.Follows (act : Bool) (s t : State) : Prop where
  evolves : s.Evolves true act t
  roster : s.roster.sound → t.roster.sound

theorem State.Follows.trans {act : Bool} {s t u : State} (h : s.Follows act t) (g : t.Follows act u) : s.Follows act u :=
  ⟨h.evolves.trans g.evolves, g.roster ∘ h.roster⟩

theorem owner_follows {i : Instr} {owner : State → Answered} (request : ownerOf i = some owner) (act : Bool) (s : State) :
    s.Follows act (owner s).state :=
  ⟨(owner_evolves request s).weaken id fun _ => rfl, owner_keepsRoster request⟩

theorem State.restartSilence_follows (act : Bool) (s : State) : s.Follows act s.restartSilence :=
  ⟨State.restartSilence_evolves (State.Evolves.refl s true act), fun k => by simpa using k⟩

theorem State.pump_follows (act : Bool) (s : State) : s.Follows act s.pump :=
  ⟨State.pump_evolves (State.Evolves.refl s true act), fun k => by simpa using k⟩

section
variable {P : State → Prop} {act : Bool} (follows : ∀ {s t : State}, s.Follows act t → P s → P t)
  (reply : ∀ {s t : State} (kind tag : Byte) (status : Status) (body : ReplyBody), s.accepts = true → s.Follows act t → P s →
    P (t.queueReply kind tag status body))
include follows reply

/-- What evolving and the reply to an accepted request keep, a good frame keeps. -/
theorem goodFrameThen_follows {owner : State → Answered} (owned : ∀ s : State, s.Follows act (owner s).state)
    {behind : State → State} (after : behind = id ∨ behind = State.pump) (kind tag : Byte) {s : State} (h : P s) :
    P (s.goodFrameThen kind tag owner behind) := by
  cases accepted : s.accepts with
  | true =>
    have sent := reply kind tag (owner s.restartSilence).status (owner s.restartSilence).body accepted
      ((s.restartSilence_follows act).trans (owned _)) h
    rw [State.goodFrameThen_eq accepted, Answered.sendThen]
    split
    · rcases after with rfl | rfl
      · exact sent
      · exact follows (State.pump_follows act _) sent
    · exact sent
  | false =>
    rw [State.goodFrameThen_turnedAway accepted]
    split
    · exact follows (s.restartSilence_follows act) h
    · exact h

/-- What evolving, the reply to an accepted request and a reset keep, every command but HOST_FRAME keeps. -/
theorem exec_follows (reset : ∀ t : State, t.isReset → P t) (bound : act = true → ∀ s, P s → s.roster.sound) (i : Instr)
    (s : State) (frame : isHostFrame i = false) (h : P s) : Leads (exec i s) P := by
  cases request : ownerOf i with
  | some owner =>
    obtain ⟨kind, tag, behind, after, run⟩ := exec_ownerOf request s
    rw [run]
    exact leads_next (goodFrameThen_follows follows reply (owner_follows request act) after kind tag h)
  | none =>
    have named (w : act = true) (k : Slot) (linked : (s.robot k).state.isLinked = true) : (s.robot k).robotId.isSome = true := by
      obtain ⟨_, _, known, _⟩ := (bound w s h).1 k
      exact known linked
    obtain ⟨t, run, done⟩ := exec_evolves s act named frame request
    rw [run]
    refine leads_next ?_
    rcases done with isReset | evolves
    · exact reset t isReset
    · refine follows ⟨evolves, fun k => ?_⟩ h
      have kept := exec_keepsRoster i s frame k
      rw [run] at kept
      exact leads_next_iff.mp kept

/-- What evolving, the reply to an accepted request and a reset keep, every step keeps. -/
theorem step_follows (reset : ∀ t : State, t.isReset → P t) (bound : act = true → ∀ s, P s → s.roster.sound)
    {s t : State} (h : P s) (stepped : step s = .next t) : P t := by
  have refl (s : State) := State.Evolves.refl s true act
  refine step_keeps (fun s rx k => follows ⟨(refl s).congr rfl rfl rfl rfl (fun _ => rfl) rfl, id⟩ k) (fun s kind tag status k => ?_)
    (exec_follows follows reply reset bound) (fun s l k => follows ⟨(refl s).congr rfl rfl rfl rfl (fun _ => rfl) rfl, id⟩ k)
    (fun s k => follows ⟨State.slice_evolves (refl s), id⟩ k) h stepped
  exact goodFrameThen_follows follows reply (fun s => ⟨refl s, id⟩) (.inl rfl) kind tag k

end

/-! ## The element bus and the claims -/

theorem State.motionsFit_reset : State.reset.motionsFit := resetIsSound.2.2.2.2.2.1

/-- Settles O56: the owners and every other command keep the limits of the queue, its marks and the motions' kinds. -/
theorem stepKeepsTheBusQueue : Obligations.StepKeepsTheBusQueue := fun s t sound fits stepped =>
  (State.bus_iff t).mpr (step_follows (P := fun t => t.busBut 0) (act := false) (fun follows => follows.evolves.bus)
    (fun _ _ _ _ _ follows => follows.evolves.bus) (fun _ ⟨_, _, _, same⟩ => same ▸ (State.bus_iff _).mp ⟨ebc_reset_sound, State.motionsFit_reset⟩)
    nofun ((State.bus_iff s).mp ⟨sound, fits⟩) stepped)

/-- The claims are sound, and with a sound roster every claimant is ACTIVE in a match. -/
def State.claimsKept (s : State) : Prop := s.roster.sound ∧ s.claimsSound ∧ s.claimantsActive

/-- Settles O57: the owners and every other command keep the claims. A robot's record has to be sound for a JOIN of an unbound
robot to find it without claims. -/
theorem stepKeepsTheClaims : Obligations.StepKeepsTheClaims := by
  intro s t claims stepped
  refine ⟨step_follows (P := State.claimsSound) (act := false) (fun follows => follows.evolves.claims)
    (fun _ _ _ _ _ follows => follows.evolves.claims) (fun _ ⟨_, _, _, same⟩ => same ▸ claims_reset_sound) nofun claims stepped,
    fun roster active => ?_⟩
  have kept {s t : State} (follows : s.Follows true t) (k : s.claimsKept) : t.claimsKept := by
    obtain ⟨roster, claims, active⟩ := k
    exact ⟨follows.roster roster, follows.evolves.claims claims, follows.evolves.active rfl claims active⟩
  have after : t.claimsKept := step_follows (P := State.claimsKept) (act := true) kept
    (@fun _ t _ _ _ _ _ follows k => (kept follows k : t.claimsKept))
    (fun _ ⟨_, _, _, same⟩ => same ▸ ⟨roster_reset_sound, claims_reset_sound, resetIsSound.2.2.2.2.2.2.2.1⟩) (fun _ _ k => k.1)
    ⟨roster, claims, active⟩ stepped
  exact after.2.2

end Sys2Proof.Machine

/-! Settles O55: the hold stack, and with it the outbound queue, the tally and the alliance totals. -/
namespace Sys2Proof.Machine

/-! ## The hold number source (R161) -/

theorem toNat_nextNumber (n : Byte) : (nextNumber n).toNat = n.toNat % 255 + 1 := by
  have last := n.isLt
  unfold nextNumber
  split
  · next same => rw [same]; rfl
  · next other =>
    have below : n.toNat ≠ 255 := fun same => other (BitVec.eq_of_toNat_eq same)
    rw [BitVec.toNat_add]
    simp
    omega

theorem nextNumber_ne_zero (n : Byte) : nextNumber n ≠ 0 := fun zero => by
  have := toNat_nextNumber n
  rw [zero] at this
  simp at this

/-- The number `k` steps further on. -/
theorem toNat_nextNumber_iterate (n : Byte) (nonzero : n ≠ 0) (k : Nat) : (nextNumber^[k] n).toNat = (n.toNat - 1 + k) % 255 + 1 := by
  have last := n.isLt
  have first : n.toNat ≠ 0 := fun zero => nonzero (BitVec.eq_of_toNat_eq zero)
  induction k with
  | zero => simp; omega
  | succ k ih => rw [Function.iterate_succ_apply', toNat_nextNumber, ih]; omega

theorem freeNumber_ne_zero (stack : List Hold) (n : Nat) : ∀ number, number ≠ 0 → freeNumber stack n number ≠ 0 := by
  induction n with
  | zero => exact fun _ nonzero => nonzero
  | succ n ih =>
    intro number nonzero
    unfold freeNumber
    split
    · exact ih _ (nextNumber_ne_zero number)
    · exact nonzero

/-- A number that is taken all the same was reached past numbers that are all taken. -/
theorem freeNumber_taken (stack : List Hold) (n : Nat) : ∀ number, freeNumber stack n number ∈ stack.map Hold.number →
    ∀ k ≤ n, nextNumber^[k] number ∈ stack.map Hold.number := by
  induction n with
  | zero => intro number taken k least; obtain rfl := Nat.le_zero.mp least; exact taken
  | succ n ih =>
    intro number taken k least
    unfold freeNumber at taken
    split at taken
    · next here =>
      cases k with
      | zero =>
        obtain ⟨h, there, same⟩ := List.any_eq_true.mp here
        exact List.mem_map.mpr ⟨h, there, eq_of_beq same⟩
      | succ k => exact ih _ taken k (Nat.le_of_succ_le_succ least)
    · next free =>
      obtain ⟨h, there, same⟩ := List.mem_map.mp taken
      refine absurd (List.any_eq_true.mpr ⟨h, there, ?_⟩) free
      exact beq_iff_eq.mpr same

/-- A stack of at most 6 leaves one of 8 numbers in turn free. -/
theorem freeNumber_free {stack : List Hold} (few : stack.length ≤ 6) {number : Byte} (nonzero : number ≠ 0) :
    freeNumber stack (Config.stackPlaces + 1) number ∉ stack.map Hold.number := by
  intro taken
  have all := freeNumber_taken stack _ number taken
  have within : (List.range 8).map (fun k => nextNumber^[k] number) ⊆ stack.map Hold.number := fun x here => by
    obtain ⟨k, below, rfl⟩ := List.mem_map.mp here
    exact all k (Nat.le_of_lt_succ (List.mem_range.mp below))
  have apart : ((List.range 8).map fun k => nextNumber^[k] number).Nodup := by
    refine List.Nodup.map_on (fun j hj k hk same => ?_) List.nodup_range
    have same := congrArg BitVec.toNat same
    rw [toNat_nextNumber_iterate _ nonzero, toNat_nextNumber_iterate _ nonzero] at same
    have hj := List.mem_range.mp hj
    have hk := List.mem_range.mp hk
    omega
  have := (apart.subperm within).length_le
  simp at this
  omega

theorem Mch.nextHold_ne_zero (m : Mch) : m.nextHold ≠ 0 := freeNumber_ne_zero _ _ _ (nextNumber_ne_zero _)

theorem Mch.nextHold_free {m : Mch} (few : m.stack.length ≤ 6) : m.nextHold ∉ m.stack.map Hold.number :=
  freeNumber_free few (nextNumber_ne_zero _)

/-! ## The hold stack (R161, R162, R166) -/

theorem Mch.holdsSound_congr {m n : Mch} (h : m.holdsSound) (stack : n.stack = m.stack) (waits : n.pendingSet = m.pendingSet) :
    n.holdsSound := by
  unfold Mch.holdsSound at *
  rwa [stack, waits]

/-- A record pushed on a stack with room. -/
theorem Mch.push_holdsSound {m : Mch} (h : m.holdsSound) (room : m.stack.length < 6) (cause : HoldCause) (detail : Option Byte) :
    (m.push (m.newHold cause detail)).holdsSound := by
  obtain ⟨few, apart, zero, waits⟩ := h
  have free := Mch.nextHold_free few
  have nothing : m.pendingSet = PendingSet.empty := Classical.byContradiction fun some_ => by
    have := waits some_
    omega
  refine ⟨room, List.nodup_cons.mpr ⟨free, apart⟩, fun here => ?_, fun some_ => absurd nothing some_⟩
  rcases List.mem_cons.mp here with new | old
  · exact m.nextHold_ne_zero new.symm
  · exact zero old

/-- A hold pends on a full stack. -/
theorem Mch.add_holdsSound {m : Mch} (h : m.holdsSound) (full : m.stackFull = true) (q : PushRequest) :
    Mch.holdsSound { m with pendingSet := m.pendingSet.add q } := by
  obtain ⟨few, apart, zero, _⟩ := h
  refine ⟨few, apart, zero, fun _ => ?_⟩
  have : 6 ≤ m.stack.length := of_decide_eq_true full
  exact Nat.le_antisymm few this

theorem PendingSet.first_none {p : PendingSet} (none_ : p.first = none) : p = PendingSet.empty := by
  obtain ⟨stop, lost, fault⟩ := p
  cases stop <;> cases lost <;> cases fault <;> simp [PendingSet.first, PendingSet.empty] at none_ ⊢

/-- The stack without its top, and what waited left as it was when nothing did. -/
theorem Mch.popped_holdsSound {m : Mch} (h : m.holdsSound) {top : Hold} {rest : List Hold} (stack : m.stack = top :: rest)
    (nothing : m.pendingSet.first = none) : Mch.holdsSound { m with stack := rest } := by
  obtain ⟨few, apart, zero, _⟩ := h
  rw [stack] at few apart zero
  exact ⟨Nat.le_of_succ_le few, (List.nodup_cons.mp apart).2, fun here => zero (List.mem_cons_of_mem _ here),
    fun some_ => absurd (PendingSet.first_none nothing) some_⟩

/-- The top record is popped, and the hold that waited takes its place: the stack is full again. -/
theorem Mch.resumed_holdsSound {m n : Mch} (h : m.holdsSound) {top : Hold} {rest : List Hold} (stack : m.stack = top :: rest)
    {q : PushRequest} (waited : m.pendingSet.first = some q) (left : n.stack = rest) :
    (n.push (n.newHold q.cause q.detail)).holdsSound := by
  obtain ⟨few, apart, zero, waits⟩ := h
  have full : m.stack.length = 6 := waits fun nothing => by rw [nothing] at waited; cases waited
  rw [stack] at full apart zero
  have free := Mch.nextHold_free (m := n) (by rw [left]; exact Nat.le_of_succ_le (Nat.le_of_eq full))
  have full' : (n.push (n.newHold q.cause q.detail)).stack.length = 6 := by
    show n.stack.length + 1 = 6
    rw [left]
    exact full
  refine ⟨Nat.le_of_eq full', List.nodup_cons.mpr ⟨free, ?_⟩, fun here => ?_, fun _ => full'⟩
  · rw [left]; exact (List.nodup_cons.mp apart).2
  · rcases List.mem_cons.mp here with new | old
    · exact n.nextHold_ne_zero new.symm
    · rw [left] at old; exact zero (List.mem_cons_of_mem _ old)

@[simp] theorem State.pushHold_mch (s : State) (cause : HoldCause) (detail : Option Byte) :
    (s.pushHold cause detail).mch = s.mch.push (s.mch.newHold cause detail) := by
  simp [State.pushHold]

section
variable {s : State} (h : s.mch.holdsSound)
include h

theorem State.setMch_keepsHolds {m : Mch} (stack : m.stack = s.mch.stack) (waits : m.pendingSet = s.mch.pendingSet) :
    (s.setMch m).mch.holdsSound := Mch.holdsSound_congr h stack waits

@[simp] theorem State.requestPush_keepsHolds (q : PushRequest) : (s.requestPush q).mch.holdsSound := by
  unfold State.requestPush
  split
  · exact h
  · split
    · next full =>
      split
      · exact h
      · exact Mch.add_holdsSound h full q
    · next room =>
      rw [State.pushHold_mch]
      exact Mch.push_holdsSound h (Nat.lt_of_not_le fun full => room (decide_eq_true full)) _ _

@[simp] theorem State.holdForFault_keepsHolds (i : Index) (asks : Bool) : (s.holdForFault i asks).mch.holdsSound := by
  unfold State.holdForFault
  split <;> simp [h]

@[simp] theorem State.pollCompleted_keepsHolds (i : Index) (role : PollRole) (epoch : Byte) (reading : Reading) :
    (s.pollCompleted i role epoch reading).mch.holdsSound := by
  unfold State.pollCompleted
  split
  · exact State.holdForFault_keepsHolds (by simpa using h) _ _
  · exact h

@[simp] theorem State.transactionFailed_keepsHolds (i : Index) (op : BusOp) : (s.transactionFailed i op).mch.holdsSound := by
  unfold State.transactionFailed
  split
  · refine State.holdForFault_keepsHolds ?_ _ _
    split <;> simpa using h
  · exact h

@[simp] theorem State.endWith_keepsHolds (i : Index) (op : BusOp) (result : BusResult) : (s.endWith i op result).mch.holdsSound := by
  unfold State.endWith
  repeat' split
  all_goals simp [h]

@[simp] theorem State.replied_keepsHolds (f : InFlight) (frame : List Byte) : (s.replied f frame).mch.holdsSound := by
  unfold State.replied
  repeat' split
  all_goals simp [h]

@[simp] theorem State.timedOut_keepsHolds (f : InFlight) : (s.timedOut f).mch.holdsSound := by
  unfold State.timedOut
  repeat' split
  all_goals simp [h]

omit h in
@[simp] theorem State.stackEmptied_mch (s : State) : s.stackEmptied.mch = s.mch := by
  unfold State.stackEmptied
  split <;> simp

/-- RESUME pops the top record and pushes one that waits. -/
theorem State.resumed_keepsHolds {top : Hold} {rest : List Hold} (stack : s.mch.stack = top :: rest) :
    (s.popHold top rest).pushPending.stackEmptied.mch.holdsSound := by
  rw [State.stackEmptied_mch]
  unfold State.pushPending
  split
  · next waited =>
    rw [State.pushHold_mch]
    exact Mch.resumed_holdsSound h stack waited rfl
  · next nothing => exact Mch.popped_holdsSound h stack nothing

@[simp] theorem State.enterEnded_keepsHolds (cause : PhaseCause) : (s.enterEnded cause).mch.holdsSound := by
  have ended : (s.setPhase .ended cause 0).mch.holdsSound := Mch.holdsSound_congr h rfl rfl
  simpa [State.enterEnded] using ended

@[simp] theorem State.enterNext_keepsHolds (p : Phase) (remaining : Nat) : (s.enterNext p remaining).mch.holdsSound := by
  have entered : (s.setPhase p .ranOut remaining).mch.holdsSound := Mch.holdsSound_congr h rfl rfl
  simpa [State.enterNext] using entered

@[simp] theorem State.runOut_keepsHolds : s.runOut.mch.holdsSound := by
  unfold State.runOut
  split <;> simp [h]

@[simp] theorem State.matchTenth_keepsHolds : s.matchTenth.mch.holdsSound := by
  have handed : ((s.setMch s.mch.tenth).handTenth).mch.holdsSound := by
    rw [(State.handTenth_frame _).2.1]
    exact Mch.holdsSound_congr h rfl rfl
  unfold State.matchTenth
  dsimp only
  split
  · exact State.runOut_keepsHolds handed
  · exact handed

@[simp] theorem State.startMatch_keepsHolds : s.startMatch.mch.holdsSound := by
  have started (p : Phase) (n : Nat) :
      ((s.setMch { s.mch with matchTime := 0, tenthTimer := 0 }).setPhase p .start n).mch.holdsSound := Mch.holdsSound_congr h rfl rfl
  simpa [State.startMatch] using started _ _

omit h in
theorem State.clearMatch_keepsHolds (s : State) : s.clearMatch.mch.holdsSound := by
  have cleared : s.mch.cleared.holdsSound := ⟨Nat.zero_le 6, List.nodup_nil, nofun, fun some_ => absurd rfl some_⟩
  have noticed : ((s.setMch s.mch.cleared).noticeCleared s.mch).mch = s.mch.cleared := by
    unfold State.noticeCleared
    split <;> rfl
  unfold State.clearMatch
  dsimp only
  rw [(State.reportClear_frame _).2.1]
  show ((s.setMch s.mch.cleared).noticeCleared s.mch).mch.holdsSound
  rw [noticed]
  exact cleared

end

theorem owner_keepsHolds {i : Instr} {owner : State → Answered} (request : ownerOf i = some owner) {s : State}
    (h : s.mch.holdsSound) : (owner s).state.mch.holdsSound := by
  cases i
  all_goals simp only [ownerOf, Option.some.injEq, reduceCtorEq] at request
  all_goals subst request
  case identify | readMatch | resetPart => exact h
  case setTiming =>
    unfold setTimingOwner
    repeat' split
    all_goals exact Mch.holdsSound_congr h rfl rfl
  case arm =>
    have silent : s.mch.startSilence.holdsSound := by
      unfold Mch.startSilence
      split <;> exact Mch.holdsSound_congr h rfl rfl
    have staged (n : Nat) : ((s.setMch s.mch.startSilence).setPhase .staged .arm n).mch.holdsSound := Mch.holdsSound_congr silent rfl rfl
    unfold armOwner
    repeat' split
    · exact h
    · exact h
    · simpa using staged _
  case clearMatch =>
    unfold clearMatchOwner
    repeat' split
    · exact h
    · exact h
    · rw [taken_state]; exact State.clearMatch_keepsHolds s
  case hold =>
    unfold holdOwner
    split
    · exact h
    · next room =>
      rw [taken_state, State.pushHold_mch]
      exact Mch.push_holdsSound h (Nat.lt_of_not_le fun full => room (decide_eq_true full)) _ _
  case resume =>
    unfold resumeOwner
    split
    · exact h
    · split
      · exact h
      · next stack =>
        split
        · exact h
        · split
          · exact h
          · rw [taken_state]; exact State.resumed_keepsHolds h stack
  case sheet mode order =>
    unfold sheetOwner State.sheetReply
    repeat' split
    all_goals simp [h]
  case driveCarriage index command direction =>
    unfold driveCarriageOwner State.setGoing
    repeat' split
    all_goals simp [h]
  all_goals
    dsimp only [setNoticesOwner, defineOwner, removeOwner, assignOwner, unassignOwner, startOwner, endMatchOwner, benchOwner,
      reinstateOwner, ejectOwner, signalOwner, setWindowOwner, setQuotaOwner, setLampOwner, setGateOwner, readElementOwner,
      readRobotOwner, adjustOwner, sheetStopOwner]
    repeat' split
    all_goals simp [h]

theorem State.restartSilence_keepsHolds {s : State} (h : s.mch.holdsSound) : s.restartSilence.mch.holdsSound := by
  unfold State.restartSilence
  split
  · exact Mch.holdsSound_congr h rfl rfl
  · exact h

theorem exec_keepsHolds (i : Instr) (s : State) (frame : isHostFrame i = false) (h : s.mch.holdsSound) :
    Leads (exec i s) (fun t => t.mch.holdsSound) := by
  have fresh : State.reset.mch.holdsSound := resetIsSound.2.2.2.1
  cases request : ownerOf i with
  | some owner =>
    exact request_keeps (P := fun t => t.mch.holdsSound) (fun _ k => State.restartSilence_keepsHolds k)
      (fun _ _ _ _ _ k => by simpa using k) (fun _ k => by simpa using k) request (fun _ k => owner_keepsHolds request k) h
  | none =>
    cases i
    case hostFrame => exact Bool.noConfusion frame
    all_goals simp only [ownerOf, reduceCtorEq] at request
    all_goals refine leads_next ?_
    case powerOnReset => exact fresh
    case lineReset => exact fresh
    case resetPartEffect =>
      split
      · exact fresh
      · exact h
    case outboundFrameSent =>
      repeat' split
      · exact fresh
      · simpa using h
      · exact h
    case claim => unfold State.handOn; split <;> simp [h]
    case release => unfold State.handOn; split <;> simp [h]
    case cancel => unfold State.handOn; split <;> simp [h]
    case act => unfold State.handOn; split <;> simp [h]
    case ackSignal => unfold State.handOn; split <;> simp [h]
    case robotSilent | drop =>
      dsimp only
      split <;> simp [h]
    case hostSilenceExpiry =>
      split
      · exact State.requestPush_keepsHolds (s := s.setMch s.mch.silenceOut) (Mch.holdsSound_congr h rfl rfl) _
      · exact h
    case fieldStopLineChange =>
      split
      · exact h
      · exact Mch.holdsSound_congr h rfl rfl
    case fieldStopAsserted =>
      split
      · exact State.requestPush_keepsHolds (s := s.setMch { s.mch with filtered := true }) (Mch.holdsSound_congr h rfl rfl) _
      · exact h
    case fieldStopReleased =>
      split
      · exact Mch.holdsSound_congr h rfl rfl
      · exact h
    all_goals
      repeat' split
      all_goals simp [h]

/-- What every step keeps of the hold stack. -/
theorem step_keepsHolds {s t : State} (h : s.mch.holdsSound) (stepped : step s = .next t) : t.mch.holdsSound :=
  step_keeps (P := fun t => t.mch.holdsSound) (fun _ _ k => k)
    (refused_keeps (fun _ k => State.restartSilence_keepsHolds k) fun _ _ _ _ _ k => by simpa using k)
    exec_keepsHolds (fun _ _ k => k) (fun _ k => Mch.holdsSound_congr k rfl rfl) h stepped

/-! ## The outbound queue, the tally and the alliance totals -/

/-- A request is accepted while at most one reply place is taken (R183). -/
theorem State.within_of_accepts {s : State} (accepted : s.accepts = true) (within : s.hlp.within 2) : s.hlp.within 1 := by
  have room : s.hlp.replies < 2 := of_decide_eq_true (Bool.and_eq_true_iff.mp accepted).2
  exact ⟨within.1, Nat.le_of_lt_succ room⟩

/-- Settles O55: the owners and every other command keep the limits of the queue, the ranges of the tally, the totals and the
stack; an accepted request's reply enters a free place. -/
theorem stepKeepsLinkTallyAndHolds : Obligations.StepKeepsLinkTallyAndHolds := by
  intro s t queue tally holds stepped
  refine ⟨?_, ?_, step_keepsHolds holds stepped, fun totals => ?_⟩
  · exact step_follows (P := fun t => t.hlp.within 2) (act := false) (fun follows => follows.evolves.queue 2)
      (fun kind tag status body accepted follows k =>
        Hlp.reply_within (follows.evolves.queue 1 (State.within_of_accepts accepted k)) kind tag status body)
      (fun _ ⟨_, _, _, same⟩ => same ▸ ⟨Nat.zero_le 22, Nat.zero_le 2⟩) nofun queue stepped
  · exact step_follows (P := fun t => t.tu.sound) (act := false) (fun follows => follows.evolves.tally)
      (fun _ _ _ _ _ follows => follows.evolves.tally) (fun _ ⟨_, _, _, same⟩ => same ▸ tu_reset_sound) nofun tally stepped
  · exact step_follows (P := State.totalsSound) (act := false) (fun follows => follows.evolves.totals rfl)
      (fun _ _ _ _ _ follows => follows.evolves.totals rfl) (fun _ ⟨_, _, _, same⟩ => same ▸ totals_reset_sound) nofun totals stepped

end Sys2Proof.Machine

/-! Requests answered: IDENTIFY, RESET-PART, ASSIGN-ROBOT, UNASSIGN-ROBOT and REINSTATE; and robot requests that are not new. -/
namespace Sys2Proof.Machine

/-! ## How an owner's answer shows -/

theorem State.refuses_of {s : State} {a : Answered} {st : Status} (refused : a = refuse s.restartSilence st) (kind tag : Byte) :
    s.refuses (a.send kind tag) kind tag st := refused ▸ s.refuses_send kind tag st

theorem State.answers_of {s u : State} {a : Answered} {body : ReplyBody} (answered : a = taken u body) {changed : List Block}
    {notices : List Notice} (kind tag : Byte) (only : s.restartSilence.onlyChanges u (.hlp :: changed))
    (hlp : u.hlp = s.hlp.raiseAll notices) : s.answers (a.send kind tag) changed kind tag notices .ok body := by
  subst answered
  exact State.answers_send (a := taken u body) kind tag only hlp

/-- One robot record set: nothing else of the roster, and no other block. -/
theorem State.onlyChanges_setRobot (s : State) (k : Slot) (r : RobotRecord) : s.onlyChanges (s.setRobot k r) [.roster] := by
  intro b other
  cases b <;> simp_all [State.sameBlock]

theorem State.robotsBut_setRobot (s : State) (k : Slot) (r : RobotRecord) : s.robotsBut (s.setRobot k r) k :=
  ⟨fun j other => by rw [State.robot_setRobot, if_neg other], rfl, rfl⟩

/-- What changed in some of the blocks left stands also in more of them. -/
theorem State.onlyChanges_mono {s t : State} {few more : List Block} (h : s.onlyChanges t few) (within : few ⊆ more) :
    s.onlyChanges t more := fun b other => h b fun here => other (within here)

/-- The restart of the host silence timer touches no robot record. -/
theorem State.robotsBut_restartSilence {s t : State} {k : Slot} : s.restartSilence.robotsBut t k ↔ s.robotsBut t k := by
  simp [State.robotsBut]

theorem State.elemsBut_restartSilence {s t : State} {i : Index} : s.restartSilence.elemsBut t i ↔ s.elemsBut t i := by
  simp [State.elemsBut]

/-! ## Robot requests that are not new (R76, R77) -/

theorem State.handOn_refused {s : State} {k : Slot} {number : BitVec 4} (not : s.executes k number = false) (q : RobotRequest)
    (owner : State → State) : s.handOn k number q owner = s :=
  if_neg (by rw [← State.executes, not]; exact Bool.false_ne_true)

/-- Settles O25: such a request is not executed, so nothing is handed on. -/
theorem requestsThatAreNotNewChangeNothing : Obligations.RequestsThatAreNotNewChangeNothing := by
  intro s k number old
  have not : s.executes k number = false := by
    rcases old with zero | away | ⟨o, stands, same⟩
    · simp [State.executes, zero]
    · simp [State.executes, away]
    · have : (s.robot k).isNew number = false := by
        rw [RobotRecord.isNew, stands]
        rcases same with pending | same <;> simp [*]
      simp [State.executes, this]
  have handed (q : RobotRequest) (owner : State → State) :
      Host.Outcome.next (s.handOn k number q owner) = (.next s : Host.Outcome State Fault Refusal) :=
    congrArg Host.Outcome.next (State.handOn_refused not q owner)
  exact ⟨fun element => ⟨handed _ _, handed _ _, fun setpoint => handed _ _⟩, handed _ _, fun mask => handed _ _⟩

/-! ## IDENTIFY and RESET-PART (R188, R190) -/

/-- Settles O10: both are taken whatever the phase; the reply's characters are computed. -/
theorem identifyAndResetPart : Obligations.IdentifyAndResetPart := by
  refine ⟨fun s tag accepted => ⟨_, congrArg Host.Outcome.next (State.goodFrame_eq accepted 0x01 tag identifyOwner), ?_, rfl, fun setup => ?_⟩,
    fun s tag accepted => ⟨_, congrArg Host.Outcome.next (State.goodFrame_eq accepted 0x02 tag resetPartOwner), fun b other => ?_, ?_, rfl⟩⟩
  · have cause : s.restartSilence.hlp.cause = s.hlp.cause := by rw [s.restartSilence_frame.1]
    rw [← cause]
    exact s.answers_taken 0x01 tag _
  · rw [State.restartSilence_setup s setup]; rfl
  · cases b <;> simp_all [State.sameBlock, resetPartOwner, taken, Answered.send]
  · rw [Answered.send, resetPartOwner, taken_state]
    simp [State.queueReply, taken]

/-! ## ASSIGN-ROBOT and UNASSIGN-ROBOT (R46, R47) -/

theorem Phase.assignable_iff (p : Phase) : p.assignable = true ↔ p = .setup ∨ p = .staged := by
  cases p <;> simp [Phase.assignable]

theorem allianceOf_above {b : Byte} (above : 4 < b.toNat) : allianceOf b = none := by
  unfold allianceOf
  split
  case h_6 => rfl
  all_goals omega

theorem allianceOf_within {b : Byte} (within : b.toNat ≤ 4) : (allianceOf b).isSome = true := by
  have codes : b.toNat = 0 ∨ b.toNat = 1 ∨ b.toNat = 2 ∨ b.toNat = 3 ∨ b.toNat = 4 := by omega
  rcases codes with code | code | code | code | code <;> simp only [allianceOf, code] <;> rfl

theorem allianceOf_zero {b : Byte} (zero : b.toNat = 0) : allianceOf b = some none := by
  simp only [allianceOf, zero]

@[simp] theorem allianceOf_code (side : Alliance) : allianceOf side.code = some (some side) := by
  cases side <;> rfl

/-- A request that was taken and set one robot record. -/
theorem State.answers_setRobot {s : State} {a : Answered} {k : Slot} {r : RobotRecord} {body : ReplyBody}
    (answered : a = taken (s.restartSilence.setRobot k r) body) (kind tag : Byte) :
    s.robotsBut (a.send kind tag) k ∧ (a.send kind tag).robot k = r ∧ s.answers (a.send kind tag) [.roster] kind tag [] .ok body := by
  refine ⟨?_, ?_, State.answers_of answered kind tag (State.onlyChanges_cons .hlp (State.onlyChanges_setRobot _ k r)) (by simp)⟩
  · rw [answered]
    exact State.robotsBut_restartSilence.mp (State.robotsBut_setRobot _ k r)
  · rw [answered]
    exact State.robot_setRobot_self _ k r

section
variable {s : State} {tag slot alliance : Byte} {team : Half}

theorem assignOwner_badAlliance (above : 4 < alliance.toNat) : assignOwner slot team alliance s = refuse s .badValue := by
  rw [assignOwner, allianceOf_above above]

theorem assignOwner_wrongPhase (within : alliance.toNat ≤ 4) (late : s.mch.phase.assignable = false) :
    assignOwner slot team alliance s = refuse s .wrongPhase := by
  obtain ⟨a, coded⟩ := Option.isSome_iff_exists.mp (allianceOf_within within)
  simp [assignOwner, coded, late]

theorem assignOwner_badValue (early : s.mch.phase.assignable = true) (bad : 24 ≤ slot.toNat ∨ alliance.toNat = 0 ∨ team = 0) :
    assignOwner slot team alliance s = refuse s .badValue := by
  unfold assignOwner
  split
  · rfl
  · next coded =>
    rw [early]
    rcases bad with above | zero | noTeam
    · simp [slotOf_above above]
    · obtain rfl := Option.some.inj (coded.symm.trans (allianceOf_zero zero))
      cases slotOf slot <;> rfl
    · rw [if_neg (by simp)]
      split
      · rw [if_pos noTeam]
      · rfl

variable {k : Slot} {side : Alliance} (early : s.mch.phase.assignable = true) (names : slot.toNat = k.val)
  (code : alliance = side.code) (numbered : team ≠ 0)
include early names code numbered

/-- The checks of the slot and the team that are left when the bytes are coded. -/
theorem assignOwner_coded : assignOwner slot team alliance s =
    if slots.any (fun j => j != k && (s.robot j).state != .vacant && (s.robot j).team == some team) then refuse s .teamInUse
    else if (s.robot k).state ≠ .vacant then refuse s .busy
    else taken (s.setRobot k { RobotRecord.vacant with state := .assigned, team := some team, alliance := some side }) .empty := by
  have numbered : team ≠ 0#16 := numbered
  simp [assignOwner, code, early, slotOf_val names, numbered]

theorem assignOwner_teamInUse {j : Slot} (other : j ≠ k) (filled : (s.robot j).state ≠ .vacant) (same : (s.robot j).team = some team) :
    assignOwner slot team alliance s = refuse s .teamInUse := by
  rw [assignOwner_coded early names code numbered, if_pos]
  exact List.any_eq_true.mpr ⟨j, List.mem_finRange j, by simp [other, filled, same]⟩

theorem assignOwner_free (free : ∀ j, j ≠ k → (s.robot j).state ≠ .vacant → (s.robot j).team ≠ some team) :
    assignOwner slot team alliance s = if (s.robot k).state ≠ .vacant then refuse s .busy
    else taken (s.setRobot k { RobotRecord.vacant with state := .assigned, team := some team, alliance := some side }) .empty := by
  rw [assignOwner_coded early names code numbered, if_neg]
  intro used
  obtain ⟨j, _, here⟩ := List.any_eq_true.mp used
  simp only [Bool.and_eq_true, bne_iff_ne, ne_eq, beq_iff_eq] at here
  obtain ⟨⟨other, filled⟩, same⟩ := here
  exact free j other filled same

end

/-- Settles O17, one lemma of the owner for each of its checks. -/
theorem assignAndUnassignRobot : Obligations.AssignAndUnassignRobot := by
  refine ⟨fun s tag slot team alliance accepted => ?assign, fun s tag slot accepted => ?unassign⟩
  case assign =>
    refine ⟨_, congrArg Host.Outcome.next (State.goodFrame_eq accepted 0x07 tag (assignOwner slot team alliance)),
      fun above => State.refuses_of (assignOwner_badAlliance above) _ _, fun within notSetup notStaged => ?_, fun early => ?_⟩
    · refine State.refuses_of (assignOwner_wrongPhase within (Bool.eq_false_iff.mpr fun early => ?_)) _ _
      rw [State.restartSilence_phase, Phase.assignable_iff] at early
      exact early.elim notSetup notStaged
    · have early : s.restartSilence.mch.phase.assignable = true := by rwa [State.restartSilence_phase, Phase.assignable_iff]
      refine ⟨fun bad => State.refuses_of (assignOwner_badValue early bad) _ _, fun k side names code numbered => ⟨?_, fun free => ?_⟩⟩
      · rintro ⟨j, other, filled, same⟩
        exact State.refuses_of (assignOwner_teamInUse early names code numbered other (by simpa using filled) (by simpa using same)) _ _
      · have owned := assignOwner_free early names code numbered (by simpa using free)
        rw [s.restartSilence_robot] at owned
        split
        · next vacant =>
          rw [if_neg (Classical.not_not.mpr vacant)] at owned
          exact State.answers_setRobot owned 0x07 tag
        · next filled =>
          rw [if_pos filled] at owned
          exact State.refuses_of owned _ _
  case unassign =>
    refine ⟨_, congrArg Host.Outcome.next (State.goodFrame_eq accepted 0x08 tag (unassignOwner slot)), fun notSetup notStaged => ?_,
      fun early => ?_⟩
    · refine State.refuses_of ?_ _ _
      have late : s.mch.phase.assignable = false := Bool.eq_false_iff.mpr fun early =>
        ((Phase.assignable_iff _).mp early).elim notSetup notStaged
      simp [unassignOwner, late]
    · have early : s.mch.phase.assignable = true := (Phase.assignable_iff _).mpr early
      refine ⟨fun above => State.refuses_of (by simp [unassignOwner, early, slotOf_above above]) _ _, fun k names => ?_⟩
      split
      · next vacant => exact State.refuses_of (by simp [unassignOwner, early, slotOf_val names, vacant]) _ _
      · next filled => exact State.answers_setRobot (by simp [unassignOwner, early, slotOf_val names, filled]) 0x08 tag

end Sys2Proof.Machine

/-! REINSTATE and the end of a bench; BENCH, EJECT, silence and drops, which vacate a robot. -/
namespace Sys2Proof.Machine

/-! ## The slot that BENCH, REINSTATE and EJECT name -/

section
variable {s : State} {slot : Byte} {valid : Bool} {k : Slot}

theorem slotInMatch_outside (outside : s.mch.phase.inMatch = false) : slotInMatch s slot valid = .inr .wrongPhase := by
  simp [slotInMatch, outside]

theorem slotInMatch_above (playing : s.mch.phase.inMatch = true) (above : 24 ≤ slot.toNat) :
    slotInMatch s slot valid = .inr .badValue := by
  simp [slotInMatch, playing, slotOf_above above]

theorem slotInMatch_invalid (playing : s.mch.phase.inMatch = true) (invalid : valid = false) :
    slotInMatch s slot valid = .inr .badValue := by
  cases named : slotOf slot <;> simp [slotInMatch, playing, named, invalid]

theorem slotInMatch_named (playing : s.mch.phase.inMatch = true) (names : slot.toNat = k.val) :
    slotInMatch s slot true = if (s.robot k).state = .vacant then .inr .noSuchRobot else .inl k := by
  simp [slotInMatch, playing, slotOf_val names]

end

/-! ## Robot records with a notice -/

/-- A robot record was set and its notice raised. -/
theorem State.onlyChanges_notedRobot (s : State) (k : Slot) (r : RobotRecord) (n : RobotNotice) :
    s.onlyChanges ((s.setRobot k r).raiseRobot k n) [.hlp, .roster] := by
  intro b other
  cases b <;> simp_all [State.sameBlock]

/-- A request that was taken, set one robot record and raised its notice. -/
theorem State.answers_notedRobot {s : State} {a : Answered} {k : Slot} {r : RobotRecord} {n : RobotNotice} {body : ReplyBody}
    (answered : a = taken ((s.restartSilence.setRobot k r).raiseRobot k n) body) (kind tag : Byte) :
    s.robotsBut (a.send kind tag) k ∧ (a.send kind tag).robot k = r
      ∧ s.answers (a.send kind tag) [.roster] kind tag [.robot k n] .ok body := by
  refine ⟨?_, ?_, State.answers_of answered kind tag (State.onlyChanges_notedRobot _ k r n) (by simp [Hlp.raiseAll_cons])⟩
  · rw [answered]
    exact State.robotsBut_restartSilence.mp (State.robotsBut_setRobot _ k r)
  · rw [answered]
    exact State.robot_setRobot_self _ k r

/-! ## REINSTATE and BENCH_ENDED (R57, R58) -/

theorem State.modRobot_eq (s : State) (k : Slot) (f : RobotRecord → RobotRecord) : s.modRobot k f = s.setRobot k (f (s.robot k)) := rfl

/-- Settles O19, by the checks of the slot that REINSTATE names. -/
theorem benchedRobotReturns : Obligations.BenchedRobotReturns := by
  refine ⟨fun s tag slot accepted => ?reinstate, fun s k n runs benched bench last => ?ended⟩
  case reinstate =>
    have phase : s.restartSilence.mch.phase = s.mch.phase := s.restartSilence_phase
    refine ⟨_, congrArg Host.Outcome.next (State.goodFrame_eq accepted 0x10 tag (reinstateOwner slot)), fun outside => ?_,
      fun playing => ⟨fun above => ?_, fun k names => ?_⟩⟩
    · exact State.refuses_of (by rw [reinstateOwner, slotInMatch_outside (phase ▸ outside)]) _ _
    · exact State.refuses_of (by rw [reinstateOwner, slotInMatch_above (phase ▸ playing) above]) _ _
    · have named := slotInMatch_named (s := s.restartSilence) (phase ▸ playing) names
      rw [s.restartSilence_robot] at named
      split
      · next vacant =>
        rw [if_pos vacant] at named
        exact State.refuses_of (by rw [reinstateOwner, named]) _ _
      · next filled =>
        rw [if_neg filled] at named
        split
        · next benched =>
          refine State.answers_notedRobot (n := .reinstated) ?_ 0x10 tag
          simp only [reinstateOwner, named, s.restartSilence_robot, benched, if_true, State.unbench, State.modRobot_eq]
        · next other =>
          refine State.refuses_of ?_ _ _
          simp only [reinstateOwner, named, s.restartSilence_robot, other, if_false]
  case ended =>
    have run : exec (.benchEnded k) s = .next (s.unbench k .benchEnded) := by
      show Host.Outcome.next _ = _
      simp [benched, bench, runs, last]
    exact ⟨_, run, State.onlyChanges_notedRobot s k _ _, State.robotsBut_setRobot s k _, State.robot_setRobot_self s k _, rfl⟩

end Sys2Proof.Machine

/-! What the asks of the handlers leave on the element bus: operations that touch the bus by asks alone, and walks of them. -/
namespace Sys2Proof.Machine

/-! ## Operations that touch the bus by asks alone -/

/-- `t` has come from `s` by an operation that changed nothing of the bus but by these asks of handlers. -/
def State.driven (s t : State) (asks : List BusAsk) : Prop := t.ebc = (s.asksAll asks).ebc ∧ t.now = s.now

section
variable {s t u : State}

theorem State.driven_of_ebc (bus : t.ebc = s.ebc) (clock : t.now = s.now) : s.driven t [] := ⟨bus, clock⟩

theorem State.driven.trans {first second : List BusAsk} (h : s.driven t first) (g : t.driven u second) : s.driven u (first ++ second) := by
  refine ⟨?_, g.2.trans h.2⟩
  rw [g.1, State.asksAll_append]
  exact State.ebc_asksAll_congr second h.1 (by rw [h.2, State.asksAll_now])

/-- Behind an operation that touches the bus only by asks, one that does not touch it. -/
theorem State.driven.still {asks : List BusAsk} (h : s.driven t asks) (bus : u.ebc = t.ebc) (clock : u.now = t.now) :
    s.driven u asks := by
  rw [← List.append_nil asks]
  exact h.trans (State.driven_of_ebc bus clock)

theorem State.driven_relamped (i : Index) (part : KindPart) (was lit : Bool) : s.driven (s.relamped i part was lit) (litChange i was lit) :=
  ⟨State.ebc_relamped rfl rfl i part was lit, State.onlyChanges_relamped s i part was lit .now (by decide)⟩

theorem State.driven_askClosing (i : Index) : s.driven (s.askClosing i) [.closing i] := ⟨rfl, by simp⟩

theorem State.driven_askCarriage (i : Index) (speed : Int) : s.driven (s.askCarriage i speed) [.speed i speed] := ⟨rfl, by simp⟩

theorem State.driven_askLamp (i : Index) (on : Bool) : s.driven (s.askLamp i on) [.lamp i on] := ⟨rfl, by simp⟩

end

/-! ## Walks of asks -/

/-- Asks of a walk: those of each index follow from its record, which only its own step changes. -/
theorem State.foldl_driven {P : State → Prop} {f : Index → State → State} {g : Index → Option ElementRecord → Option ElementRecord}
    {asks : Index → Option ElementRecord → List BusAsk} (keeps : ∀ i t, P t → P (f i t))
    (elem : ∀ i t j, P t → (f i t).elem j = if j = i then g i (t.elem i) else t.elem j)
    (drives : ∀ i t, P t → t.driven (f i t) (asks i (t.elem i))) (l : List Index) :
    ∀ (s : State), l.Nodup → P s → s.driven (l.foldl (fun t i => f i t) s) (l.flatMap fun i => asks i (s.elem i)) := by
  induction l with
  | nil => exact fun s _ _ => State.driven_of_ebc rfl rfl
  | cons i l ih =>
    intro s nodup h
    obtain ⟨fresh, nodup⟩ := List.nodup_cons.mp nodup
    rw [List.foldl_cons, List.flatMap_cons]
    have rest := ih (f i s) nodup (keeps i s h)
    have same : (l.flatMap fun j => asks j ((f i s).elem j)) = l.flatMap fun j => asks j (s.elem j) :=
      List.flatMap_congr fun j here => by rw [elem i s j h, if_neg (by rintro rfl; exact fresh here)]
    exact (drives i s h).trans (same ▸ rest)

theorem State.eachIndex_driven {P : State → Prop} {f : Index → State → State} {g : Index → Option ElementRecord → Option ElementRecord}
    {asks : Index → Option ElementRecord → List BusAsk} (keeps : ∀ i t, P t → P (f i t))
    (elem : ∀ i t j, P t → (f i t).elem j = if j = i then g i (t.elem i) else t.elem j)
    (drives : ∀ i t, P t → t.driven (f i t) (asks i (t.elem i))) {s : State} (h : P s) :
    s.driven (s.eachIndex f) (indices.flatMap fun i => asks i (s.elem i)) :=
  State.foldl_driven keeps elem drives indices s (List.nodup_finRange 48) h

/-! ## Lamps -/

/-- The lit state of a record, as its handler gives it. -/
def litOf (r : Option ElementRecord) : Bool :=
  match r with
  | some r => match r.part with
    | .goal p => p.lit
    | .station p => p.lit
    | .gate _ | .carriage _ => false
  | none => false

theorem State.litAt_eq (s : State) (i : Index) : s.litAt i = litOf (s.elem i) := rfl

@[simp] theorem litChange_same (i : Index) (lit : Bool) : litChange i lit lit = [] := if_pos rfl

/-- The lamps whose lit state differs, as asks. -/
theorem State.lampChanges_asks (s t : State) :
    (s.lampChanges t).map (fun q => BusAsk.lamp q.1 q.2) = indices.flatMap fun i => litChange i (s.litAt i) (t.litAt i) := by
  rw [State.lampChanges, List.map_filterMap, List.filterMap_eq_flatMap_toList]
  refine List.flatMap_congr fun i _ => ?_
  rw [litChange]
  split <;> rfl

/-- The asks of the indices that a list leaves out are none. -/
theorem flatMap_filter_of_nil {α β : Type} {l : List α} {p : α → Bool} {f : α → List β} (nothing : ∀ a, p a = false → f a = []) :
    (l.filter p).flatMap f = l.flatMap f := by
  induction l with
  | nil => rfl
  | cons a l ih =>
    cases keep : p a with
    | true => rw [List.filter_cons_of_pos keep, List.flatMap_cons, List.flatMap_cons, ih]
    | false => rw [List.filter_cons_of_neg (by simp [keep]), List.flatMap_cons, nothing a keep, ih]; rfl

/-- An operation whose asks are the drives of the lamps whose lit state it has changed. -/
theorem State.lamps_of_driven {s t : State} {p : Index → Bool}
    (h : s.driven t ((indices.filter p).flatMap fun i => litChange i (s.litAt i) (t.litAt i)))
    (others : ∀ i, p i = false → t.litAt i = s.litAt i) : t.ebc = (s.asksLamps (s.lampChanges t)).ebc := by
  rw [State.asksLamps_eq, State.lampChanges_asks, h.1, flatMap_filter_of_nil fun i out => by rw [others i out, litChange_same]]

theorem litOf_holderSeen (r : ElementRecord) (held : Bool) : litOf (some { r with part := r.part.holderSeen held })
    = match r.part with
      | .station p => p.lampMode.lit held
      | _ => litOf (some r) := by
  obtain ⟨_, _, _, _, _, _, _, _, _, _, _, _, part⟩ := r
  cases part with
  | station p => cases mode : p.lampMode <;> simp [litOf, KindPart.holderSeen, LampMode.lit, mode]
  | _ => rfl

/-- A station that is told of a change of its holder drives its lamp when its lit state changes (R137). -/
theorem State.driven_holderChanged (s : State) (i : Index) :
    s.driven (s.holderChanged i) (litChange i (s.litAt i) ((s.holderChanged i).litAt i)) := by
  cases stands : s.stationAt i with
  | none =>
    have same : s.holderChanged i = s := by simp [State.holderChanged, State.modStation, State.relightStation, stands]
    rw [same, litChange_same]
    exact State.driven_of_ebc rfl rfl
  | some p =>
    obtain ⟨r, defined, part⟩ := State.station_some stands
    have lit : s.litAt i = p.lit := by rw [State.litAt_eq, defined]; simp [litOf, part]
    have after : (s.holderChanged i).litAt i = p.lampMode.lit r.claim.holder.isSome := by
      rw [State.litAt_eq, State.elem_holderChanged, if_pos rfl, defined, Option.map_some, litOf_holderSeen, part]
    rw [lit, after]
    have relit := State.relightStation_setStation defined { p with accrual := 0 }
    have changed : s.holderChanged i = s.relamped i (.station { p with accrual := 0, lit := p.lampMode.lit r.claim.holder.isSome })
        p.lit (p.lampMode.lit r.claim.holder.isSome) := by
      rw [State.holderChanged, State.modStation, stands]
      exact relit
    rw [changed]
    exact State.driven_relamped _ _ _ _

/-- A record as the departure of its holder leaves it (R31). -/
def ElementRecord.departed (r : ElementRecord) : ElementRecord :=
  { r with claim := r.claim.passOn, part := r.part.holderSeen r.claim.passOn.holder.isSome }

theorem State.elem_depart' (s : State) (i j : Index) (n : ClaimNotice) :
    (s.depart i n).elem j = if j = i then (s.elem i).map ElementRecord.departed else s.elem j := State.elem_depart s i j n

/-- A departure drives the lamp of a station whose lit state it changes (R137). -/
theorem State.driven_depart (s : State) (i : Index) (n : ClaimNotice) :
    s.driven (s.depart i n) (litChange i (litOf (s.elem i)) (litOf ((s.elem i).map ElementRecord.departed))) := by
  have after := s.elem_depart' i i n
  rw [if_pos rfl] at after
  rw [← after]
  unfold State.depart
  split
  · next r stands =>
    obtain ⟨t, same⟩ : ∃ t, t = ((s.modClaim i ClaimPart.passOn).raiseClaim n).promotionNotice i r.claim := ⟨_, rfl⟩
    have lit : t.litAt i = s.litAt i := by
      rw [same, State.litAt_eq, State.litAt_eq, State.elem_promotionNotice, State.elem_raiseClaim, State.elem_modClaim, if_pos rfl]
      cases s.elem i <;> rfl
    rw [← same]
    have holder := State.driven_holderChanged t i
    rw [lit] at holder
    refine (State.driven_of_ebc (s := s) (t := t) ?_ ?_).trans holder <;> rw [same] <;> simp [State.modClaim]
  · rw [litChange_same]
    exact State.driven_of_ebc rfl rfl

/-! ## Vacating (R37) -/

/-- A vacating drives the lamps of the stations whose lit states it changes. -/
theorem State.vacate_lamps (s : State) (k : Slot) (cause : VacateCause) :
    (s.vacate k cause).ebc = (s.asksLamps (s.lampChanges (s.vacate k cause))).ebc ∧ (s.vacate k cause).now = s.now := by
  refine ⟨?_, by simp⟩
  obtain ⟨t, off⟩ : ∃ t, t = (match s.waitsOn k with
    | some i => s.leaveList i k
    | none => s) := ⟨_, rfl⟩
  have lit (i : Index) : t.litAt i = s.litAt i := by
    rw [off]
    split
    · rw [State.litAt_eq, State.litAt_eq, State.leaveList, State.elem_modClaim]
      split
      · next here => subst here; cases s.elem i <;> rfl
      · rfl
    · rfl
  have held : t.heldBy k = s.heldBy k := by
    rw [off]
    split
    · exact State.heldBy_leaveList _ _ _
    · rfl
  have walked := State.foldl_driven (P := fun _ => True) (f := fun i u => u.depart i (.vacated i k cause))
    (g := fun _ r => r.map ElementRecord.departed) (asks := fun i r => litChange i (litOf r) (litOf (r.map ElementRecord.departed)))
    (fun _ _ _ => trivial) (fun i u j _ => State.elem_depart' u i j _) (fun i u _ => State.driven_depart u i _) (t.heldBy k) t
    (State.heldBy_nodup t k) trivial
  have vacated : s.vacate k cause = (t.heldBy k).foldl (fun u i => u.depart i (.vacated i k cause)) t := by rw [off]; rfl
  rw [← vacated, held] at walked
  have first : s.driven t [] := by
    rw [off]
    split
    · exact State.driven_of_ebc (by simp [State.leaveList, State.modClaim]) (by simp [State.leaveList, State.modClaim])
    · exact State.driven_of_ebc rfl rfl
  have after (i : Index) : (s.vacate k cause).litAt i
      = if i ∈ s.heldBy k then litOf ((t.elem i).map ElementRecord.departed) else s.litAt i := by
    have elem := (State.depart_fold cause k (t.heldBy k) t (State.heldBy_nodup t k)).1 i
    rw [← vacated, held] at elem
    rw [State.litAt_eq, elem]
    split
    · rfl
    · exact lit i
  refine State.lamps_of_driven (p := fun i => s.holder i == some k) ?_ fun i out => ?_
  · refine (List.flatMap_congr fun i here => ?_) ▸ first.trans walked
    rw [← State.litAt_eq, lit, after, if_pos (show i ∈ s.heldBy k from here)]
  · rw [after, if_neg]
    rw [State.mem_heldBy]
    simpa using out

end Sys2Proof.Machine

/-! Settles O18 and O22: BENCH, EJECT and a drop vacate an ACTIVE robot before its record changes. -/
namespace Sys2Proof.Machine

/-! ## What lamps are driven follows from the records and the bus -/

theorem State.lampChanges_congr {s s' t t' : State} (before : s'.elems = s.elems) (after : t'.elems = t.elems) :
    s'.lampChanges t' = s.lampChanges t := by
  have lit {u u' : State} (elems : u'.elems = u.elems) (i : Index) : u'.litAt i = u.litAt i := by
    rw [State.litAt_eq, State.litAt_eq, State.elem_congr elems]
  unfold State.lampChanges
  simp only [lit before, lit after]

theorem State.ebc_asksLamps_congr {s t : State} (bus : t.ebc = s.ebc) (clock : t.now = s.now) (asks : List (Index × Bool)) :
    (t.asksLamps asks).ebc = (s.asksLamps asks).ebc := by
  rw [State.asksLamps_eq, State.asksLamps_eq]
  exact State.ebc_asksAll_congr _ bus clock

theorem State.heldBy_congr {s t : State} (elems : t.elems = s.elems) (k : Slot) : t.heldBy k = s.heldBy k := by
  unfold State.heldBy State.holder
  simp only [State.elem_congr elems]

theorem State.vacateNotices_congr {s t : State} (elems : t.elems = s.elems) (k : Slot) (cause : VacateCause) :
    t.vacateNotices k cause = s.vacateNotices k cause := by
  unfold State.vacateNotices
  simp only [State.heldBy_congr elems, State.elem_congr elems]

theorem State.claimsSound_of_elems {s t : State} (h : s.claimsSound) (elems : t.elems = s.elems) : t.claimsSound :=
  State.claimsSound_congr h fun i => by rw [State.elem_congr elems]

/-! ## A robot that is vacated and gets another record -/

/-- `t` is `s` after robot `k` was vacated and its record became `q`: its elements pass on, and the stations whose lit states
that changes have their lamps driven. -/
def State.vacatesTo (s t : State) (k : Slot) (q : RobotRecord) : Prop :=
  s.robotsBut t k ∧ t.robot k = q ∧ (∀ i, t.elem i = (s.elem i).map (·.withoutRobot k))
    ∧ t.ebc = (s.asksLamps (s.lampChanges t)).ebc

section
variable {s : State} (k : Slot) (cause : VacateCause)

theorem State.robotsBut_trans {s t u : State} {k : Slot} (h : s.robotsBut t k) (g : t.robotsBut u k) : s.robotsBut u k := by
  obtain ⟨robots, silence, drop⟩ := h
  obtain ⟨robots', silence', drop'⟩ := g
  exact ⟨fun j other => (robots' j other).trans (robots j other), silence'.trans silence, drop'.trans drop⟩

theorem State.vacate_noted (claims : s.claimsSound) (q : RobotRecord) (n : RobotNotice) :
    s.vacatesTo (((s.vacate k cause).setRobot k q).raiseRobot k n) k q
      ∧ s.onlyChanges (((s.vacate k cause).setRobot k q).raiseRobot k n) [.hlp, .roster, .elems, .ebc]
      ∧ (((s.vacate k cause).setRobot k q).raiseRobot k n).hlp = s.hlp.raiseAll (s.vacateNotices k cause ++ [.robot k n]) := by
  obtain ⟨elem, hlp⟩ := s.vacate_spec k cause claims
  have roster : (s.vacate k cause).roster = s.roster := by simp
  refine ⟨⟨?_, State.robot_setRobot_self _ k q, elem, ?_⟩, fun b other => ?_, ?_⟩
  · refine State.robotsBut_trans (t := s.vacate k cause) ⟨fun j _ => State.robot_congr roster j, ?_, ?_⟩ (State.robotsBut_setRobot _ k q)
    · rw [roster]
    · rw [roster]
  · exact (s.vacate_lamps k cause).1
  · cases b <;> simp_all [State.sameBlock]
  · rw [State.raiseRobot_hlp, State.setRobot_hlp, hlp, Hlp.raiseAll_append]
    rfl

/-- The restart of the host silence timer makes no difference to a vacating. -/
theorem State.vacatesTo_restartSilence {t : State} {q : RobotRecord} (h : s.restartSilence.vacatesTo t k q) : s.vacatesTo t k q := by
  obtain ⟨robots, record, elem, ebc⟩ := h
  refine ⟨State.robotsBut_restartSilence.mp robots, record, by simpa using elem, ebc.trans ?_⟩
  rw [State.lampChanges_congr (s := s) (t := t) (by simp) rfl]
  exact State.ebc_asksLamps_congr (by simp) (by simp) _

/-- A request that was taken, vacated a robot and gave it another record. -/
theorem State.answers_vacates {a : Answered} {q : RobotRecord} {n : RobotNotice} {body : ReplyBody} (claims : s.claimsSound)
    (answered : a = taken (((s.restartSilence.vacate k cause).setRobot k q).raiseRobot k n) body) (kind tag : Byte) :
    s.robotsBut (a.send kind tag) k ∧ (a.send kind tag).robot k = q ∧ (∀ i, (a.send kind tag).elem i = (s.elem i).map (·.withoutRobot k))
      ∧ (a.send kind tag).ebc = (s.asksLamps (s.lampChanges (a.send kind tag))).ebc
      ∧ s.answers (a.send kind tag) [.roster, .elems, .ebc] kind tag (s.vacateNotices k cause ++ [.robot k n]) .ok body := by
  have sound : s.restartSilence.claimsSound := State.claimsSound_of_elems claims (by simp)
  obtain ⟨vacates, only, hlp⟩ := State.vacate_noted k cause sound q n
  obtain ⟨robots, record, elem, ebc⟩ := State.vacatesTo_restartSilence k vacates
  subst answered
  refine ⟨robots, record, elem, ebc, State.answers_of rfl kind tag only ?_⟩
  rw [hlp, State.vacateNotices_congr (s := s) (by simp)]
  simp

end

/-! ## BENCH and EJECT (R56, R59) -/

/-- The slot that the request names stands in the roster, once the host silence timer is restarted. -/
theorem slotInMatch_filled {s : State} {slot : Byte} {k : Slot} (playing : s.mch.phase.inMatch = true) (names : slot.toNat = k.val)
    (filled : (s.robot k).state ≠ .vacant) : slotInMatch s.restartSilence slot true = .inl k := by
  rw [slotInMatch_named (k := k) (by simpa using playing) names, if_neg (by simpa using filled)]

theorem slotInMatch_empty {s : State} {slot : Byte} {k : Slot} (playing : s.mch.phase.inMatch = true) (names : slot.toNat = k.val)
    (vacant : (s.robot k).state = .vacant) : slotInMatch s.restartSilence slot true = .inr .noSuchRobot := by
  rw [slotInMatch_named (k := k) (by simpa using playing) names, if_pos (by simpa using vacant)]

/-- Settles O18: by the checks of the slot, then by the robot's state. -/
theorem benchAndEjectVacate : Obligations.BenchAndEjectVacate := by
  refine ⟨fun s tag slot seconds accepted claims => ?bench, fun s tag slot accepted claims => ?eject⟩
  case bench =>
    have phase := s.restartSilence_phase
    refine ⟨_, congrArg Host.Outcome.next (State.goodFrame_eq accepted 0x0F tag (benchOwner slot seconds)), fun outside => ?_,
      fun playing => ⟨fun bad => ?_, fun k names least most => ?_⟩⟩
    · exact State.refuses_of (by rw [benchOwner, slotInMatch_outside (phase ▸ outside)]) _ _
    · refine State.refuses_of ?_ _ _
      rcases bad with above | out
      · rw [benchOwner, slotInMatch_above (phase ▸ playing) above]
      · rw [benchOwner, slotInMatch_invalid (phase ▸ playing)]
        simp only [Bool.and_eq_false_iff, decide_eq_false_iff_not]
        omega
    · have valid : (decide (1 ≤ seconds.toNat) && decide (seconds.toNat ≤ 120)) = true := by simp [least, most]
      dsimp only
      rw [Nat.mul_comm 10]
      split
      · next vacant => exact State.refuses_of (by rw [benchOwner, valid, slotInMatch_empty playing names vacant]) _ _
      · next filled =>
        have named := slotInMatch_filled playing names filled
        split
        · next active =>
          refine State.answers_vacates (n := .benched (seconds.toNat * 10)) k .bench claims ?_ 0x0F tag
          simp [benchOwner, valid, named, active, State.benchRobot, State.modRobot_eq, State.robot_vacate]
        · next other =>
          split
          · next benched =>
            refine State.answers_notedRobot (n := .benched (seconds.toNat * 10)) ?_ 0x0F tag
            simp [benchOwner, valid, named, benched, State.benchRobot, State.modRobot_eq]
          · next not =>
            refine State.refuses_of ?_ _ _
            rw [benchOwner, valid, named]
            dsimp only
            rw [s.restartSilence_robot]
            split <;> simp_all
  case eject =>
    have phase := s.restartSilence_phase
    refine ⟨_, congrArg Host.Outcome.next (State.goodFrame_eq accepted 0x11 tag (ejectOwner slot)), fun outside => ?_,
      fun playing => ⟨fun above => ?_, fun k names => ?_⟩⟩
    · exact State.refuses_of (by rw [ejectOwner, slotInMatch_outside (phase ▸ outside)]) _ _
    · exact State.refuses_of (by rw [ejectOwner, slotInMatch_above (phase ▸ playing) above]) _ _
    · dsimp only
      split
      · next vacant => exact State.refuses_of (by rw [ejectOwner, slotInMatch_empty playing names vacant]) _ _
      · next filled =>
        have named := slotInMatch_filled playing names filled
        split
        · next active =>
          refine State.answers_vacates (n := .ejected .active) k .eject claims ?_ 0x11 tag
          simp [ejectOwner, named, active, State.ejectRobot, State.modRobot_eq, State.robot_vacate]
        · next other =>
          split
          · next benched =>
            refine State.answers_notedRobot (n := .ejected .benched) ?_ 0x11 tag
            simp [ejectOwner, named, benched, State.ejectRobot, State.modRobot_eq]
          · next not =>
            refine State.refuses_of ?_ _ _
            rw [ejectOwner, named]
            dsimp only
            rw [s.restartSilence_robot]
            split <;> simp_all

/-! ## Silence and drops (R54, R55) -/

/-- The record of a robot that was dropped (R55). -/
def RobotRecord.dropped (r : RobotRecord) : RobotRecord :=
  { r with openRequest := none, bench := none, state := .assigned, silent := false, unheard := 0 }

theorem State.dropRobot_active {s : State} {k : Slot} (active : (s.robot k).state = .active) :
    s.dropRobot k = ((s.vacate k .drop).setRobot k (s.robot k).dropped).raiseRobot k (.dropped .active) := by
  simp only [State.dropRobot, active, if_true, State.modRobot_eq, State.robot_vacate]
  rfl

theorem State.dropRobot_other {s : State} {k : Slot} (other : (s.robot k).state ≠ .active) :
    s.dropRobot k = (s.setRobot k (s.robot k).dropped).raiseRobot k (.dropped (s.robot k).state) := by
  simp only [State.dropRobot, other, if_false, State.modRobot_eq]
  rfl

theorem State.setRobot_setRobot (s : State) (k : Slot) (q r : RobotRecord) : (s.setRobot k q).setRobot k r = s.setRobot k r := by
  simp [State.setRobot, State.setRoster]

/-- Settles O22: silence sets two fields of the record; a drop vacates an ACTIVE robot first. -/
theorem silenceAndDrop : Obligations.SilenceAndDrop := by
  refine ⟨fun s k linked heard near => ?silent, fun s k claims linked near => ?drop⟩
  case silent =>
    have run : exec (.robotSilent k) s = .next ((s.setRobot k { s.robot k with
        silent := true, unheard := max (s.robot k).unheard s.roster.silenceLimit }).raiseRobot k
          (.silent (max (s.robot k).unheard s.roster.silenceLimit))) := by
      refine congrArg Host.Outcome.next ?_
      dsimp only
      rw [if_pos ⟨linked, heard, near⟩]
      simp only [State.fallSilent, State.modRobot_eq, State.robot_setRobot_self, State.setRobot_setRobot]
    exact ⟨_, run, State.onlyChanges_notedRobot s k _ _, State.robotsBut_setRobot s k _, State.robot_setRobot_self s k _, rfl⟩
  case drop =>
    have run : exec (.drop k) s = .next (s.dropRobot k) := by
      refine congrArg Host.Outcome.next ?_
      dsimp only
      rw [if_pos ⟨linked, near⟩]
    by_cases active : (s.robot k).state = .active
    · obtain ⟨⟨robots, record, elem, ebc⟩, only, hlp⟩ := State.vacate_noted k .drop claims (s.robot k).dropped (.dropped .active)
      rw [State.dropRobot_active active] at run
      refine ⟨_, run, robots, record, ?_⟩
      rw [if_pos active]
      exact ⟨only, elem, ebc, hlp⟩
    · rw [State.dropRobot_other active] at run
      refine ⟨_, run, State.robotsBut_setRobot s k _, State.robot_setRobot_self s k _, ?_⟩
      rw [if_neg active]
      exact ⟨State.onlyChanges_notedRobot s k _ _, rfl⟩

end Sys2Proof.Machine

/-! The claim arbiter's answers: CLAIM, RELEASE, CANCEL, and the tenth that expires a claim or ends a guard. -/
namespace Sys2Proof.Machine

/-! ## A robot request that is executed (R22, R61) -/

section
variable {s t : State} {k : Slot} {number : BitVec 4} {q : RobotRequest}

@[simp] theorem State.openNew_state (s : State) (k : Slot) (number : BitVec 4) (q : RobotRequest) (j : Slot) :
    ((s.openNew k number q).robot j).state = (s.robot j).state := by
  rw [State.openNew, State.robot_modRobot]
  split <;> simp_all

@[simp] theorem State.openNew_alliance (s : State) (k : Slot) (number : BitVec 4) (q : RobotRequest) (j : Slot) :
    ((s.openNew k number q).robot j).alliance = (s.robot j).alliance := by
  rw [State.openNew, State.robot_modRobot]
  split <;> simp_all

@[simp] theorem State.openNew_elem (s : State) (k : Slot) (number : BitVec 4) (q : RobotRequest) (i : Index) :
    (s.openNew k number q).elem i = s.elem i := State.elem_congr (by simp) i

/-- An answer to the request that was opened: the robot's open request is the answered record, and no other robot changes. -/
theorem State.openAnswered (roster : t.roster = (s.openNew k number q).roster) (code : Answer) (detail : Option Nat) :
    s.robotsBut (t.answerNow k code detail) k ∧ (t.answerNow k code detail).robot k
      = { s.robot k with openRequest := some (answeredRequest number q.kind q.element code detail) } := by
  have robot (j : Slot) : t.robot j = if j = k then { s.robot k with openRequest := some (q.record number) } else s.robot j := by
    rw [State.robot_congr roster, State.openNew, State.robot_modRobot]
  refine ⟨⟨fun j other => ?_, ?_, ?_⟩, ?_⟩
  · rw [State.robot_answerNow, if_neg other, robot, if_neg other]
  · simp [State.answerNow, State.modRobot, State.setRobot, roster, State.openNew]
  · simp [State.answerNow, State.modRobot, State.setRobot, roster, State.openNew]
  · rw [State.robot_answerNow, if_pos rfl, robot, if_pos rfl]
    rfl

/-- A request that was only answered (R22). -/
theorem State.answersRobot_of {code : Answer} {detail : Option Nat} (answered : t = (s.openNew k number q).answerNow k code detail) :
    s.answersRobot t k number q.kind q.element code detail := by
  subst answered
  obtain ⟨robots, record⟩ := State.openAnswered (s := s) (number := number) (q := q) rfl code detail
  refine ⟨fun b other => ?_, robots, record⟩
  cases b <;> simp_all [State.sameBlock]

end

/-! ## CLAIM up to its relation checks (R23, R24) -/

theorem claimable_iff (kind : Kind) (alliance : Option Alliance) :
    claimable kind alliance = true ↔ ¬ (kind = .carriage ∨ kind = .goal ∧ alliance ≠ none) := by
  cases kind <;> cases alliance <;> simp [claimable]

theorem ElementRecord.inFault_iff (r : ElementRecord) : r.inFault = true ↔ r.state ≠ .probing ∧ r.state ≠ .online := by
  cases state : r.state <;> simp [ElementRecord.inFault, state]

/-- Settles O26: one branch of CLAIM for each check. -/
theorem claimAnswersTheFirstFailedCheck : Obligations.ClaimAnswersTheFirstFailedCheck := by
  intro s k number element executed
  refine ⟨_, congrArg Host.Outcome.next (State.handOn_eq executed (.claim element) _), ?_⟩
  intro answered
  have shows {code : Answer} {detail : Option Nat}
      (answer : (s.openNew k number (.claim element)).claimOn k element = (s.openNew k number (.claim element)).answerNow k code detail) :
      answered code detail := State.answersRobot_of (q := .claim element) answer
  split
  · next outside => exact shows (by simp [State.claimOn, outside])
  · next playing =>
    have playing : s.mch.phase.inMatch = true := by simpa using playing
    split
    · next benched => exact shows (by simp [State.claimOn, playing, benched])
    · next free =>
      split
      · next other => exact shows (by simp [State.claimOn, playing, free, other])
      · next active =>
        have active : (s.robot k).state = .active := Classical.not_not.mp active
        refine ⟨fun above => shows (by simp [State.claimOn, playing, active, indexOf_above above]), fun i names => ?_⟩
        split
        · next undefined => exact shows (by simp [State.claimOn, playing, active, indexOf_val names, undefined])
        · next r stands =>
          split
          · next not =>
            have not : claimable r.part.kind r.alliance = false := Bool.eq_false_iff.mpr fun may => (claimable_iff _ _).mp may not
            exact shows (by simp [State.claimOn, playing, active, indexOf_val names, stands, not])
          · next may =>
            have relation : (s.openNew k number (.claim element)).claimOn k element
                = (s.openNew k number (.claim element)).claimRelation k i r := by
              simp [State.claimOn, playing, active, indexOf_val names, stands, (claimable_iff _ _).mpr may]
            rw [relation] at shows
            split
            · next holds => exact shows (by simp [State.claimRelation, holds])
            · next other =>
              split
              · next waits => exact shows (by simp [State.claimRelation, other, waits, positionIn])
              · next absent =>
                split
                · next fault =>
                  exact shows (by simp [State.claimRelation, other, absent, (ElementRecord.inFault_iff r).mpr fault])
                · next sound =>
                  have sound : r.inFault = false := Bool.eq_false_iff.mpr fun fault => sound ((ElementRecord.inFault_iff r).mp fault)
                  split
                  · next foreign =>
                    exact shows (by simp [State.claimRelation, other, absent, sound, foreign, Option.isSome_iff_ne_none])
                  · next ours =>
                    intro g guards named
                    have ours : ¬ (r.alliance.isSome = true ∧ r.alliance ≠ (s.robot k).alliance) := by
                      rwa [Option.isSome_iff_ne_none]
                    refine shows ?_
                    rw [State.claimRelation, if_neg other, if_neg (by simpa using absent), if_neg (by simp [sound]),
                      State.openNew_alliance, if_neg ours]
                    simp [ClaimPart.guards, guards, named]

end Sys2Proof.Machine

/-! What a departure, a grant and a wait leave: CLAIM that passes its checks, RELEASE, CANCEL, and expiries. -/
namespace Sys2Proof.Machine

/-! ## One lamp -/

theorem indices_filter_eq (i : Index) : indices.filter (fun j => j == i) = [i] := by
  have once : indices.count i = 1 := List.count_eq_one_of_mem (List.nodup_finRange 48) (List.mem_finRange i)
  rw [List.filter_beq, once]
  rfl

/-- An operation that changes one record at most and drives its lamp when the lit state changes. -/
theorem State.lamps_of_one {s t : State} {i : Index} (h : s.driven t (litChange i (s.litAt i) (t.litAt i)))
    (others : s.elemsBut t i) : t.ebc = (s.asksLamps (s.lampChanges t)).ebc := by
  refine State.lamps_of_driven (p := fun j => j == i) ?_ fun j out => ?_
  · rwa [indices_filter_eq, List.flatMap_singleton]
  · rw [State.litAt_eq, State.litAt_eq, others j (by simpa using out)]

theorem State.lampAsked_of_ebc {s t : State} (bus : t.ebc = s.ebc) {i : Index} {lit : Bool} (asked : s.lampAsked i lit) :
    t.lampAsked i lit := by
  unfold State.lampAsked State.queued at *
  rwa [bus, State.sched_congr bus]

theorem State.lampAsked_of_driven {s t : State} {i : Index} {was lit : Bool} (h : s.driven t (litChange i was lit)) (changed : was ≠ lit) :
    t.lampAsked i lit := by
  refine State.lampAsked_of_ebc h.1 ?_
  rw [litChange, if_neg changed.symm]
  exact State.askLamp_asked s i lit

/-- A lit state that stays drives nothing. -/
theorem State.still_of_driven {s t : State} {i : Index} {was lit : Bool} (h : s.driven t (litChange i was lit)) (same : lit = was) :
    t.ebc = s.ebc := by
  rw [same, litChange_same] at h
  exact h.1

/-! ## Departures (R31) -/

/-- The record that a departure leaves, with the guard record set before it. -/
def ElementRecord.passedOn (r : ElementRecord) (guardRecord : Option Guard) : ElementRecord :=
  { r with
    claim := { holder := r.claim.waiting.head?, heldFor := 0, waiting := r.claim.waiting.tail, guardRecord := guardRecord }
    part := r.part.holderSeen (!r.claim.waiting.isEmpty) }

theorem isSome_head?_eq {α : Type} (l : List α) : l.head?.isSome = !l.isEmpty := by cases l <;> rfl

theorem ElementRecord.departed_eq (r : ElementRecord) : r.departed = r.passedOn r.claim.guardRecord := by
  unfold ElementRecord.departed ElementRecord.passedOn
  rw [ClaimPart.passOn_eq, isSome_head?_eq]

/-- The lit state of a record that has passed on is that of its part told of the new holder. -/
theorem litOf_passedOn (r : ElementRecord) (g : Option Guard) :
    litOf (some (r.passedOn g)) = litOf (some { r with part := r.part.holderSeen (!r.claim.waiting.isEmpty) }) := rfl

section
variable {s : State} {i : Index} {r : ElementRecord} (stands : s.elem i = some r)
include stands

/-- Everything that the departure of a holder does. -/
theorem State.depart_spec (n : ClaimNotice) :
    (s.depart i n).elem i = some (r.passedOn r.claim.guardRecord) ∧ s.elemsBut (s.depart i n) i
      ∧ (s.depart i n).hlp = s.hlp.raiseAll (departureNotices i r.claim n)
      ∧ s.driven (s.depart i n) (litChange i (litOf (some r)) (litOf (some (r.passedOn r.claim.guardRecord)))) := by
  refine ⟨?_, fun j other => ?_, ?_, ?_⟩
  · rw [State.elem_depart', if_pos rfl, stands, Option.map_some, ElementRecord.departed_eq]
  · rw [State.elem_depart', if_neg other]
  · rw [State.depart_hlp, stands]
  · have drives := State.driven_depart s i n
    rwa [stands, Option.map_some, ElementRecord.departed_eq] at drives

/-- Everything that an expiry does: the guard record is set when the guard time is not 0, then the holder departs (R33). -/
theorem State.expire_spec {k : Slot} (held : r.claim.holder = some k) {guarded : Option Guard}
    (guard : guarded = if r.guardTime = 0 then r.claim.guardRecord else some { slot := k, remaining := r.guardTime }) :
    (s.expire i).elem i = some (r.passedOn guarded) ∧ s.elemsBut (s.expire i) i
      ∧ (s.expire i).hlp = s.hlp.raiseAll (departureNotices i r.claim (.expired i k r.guardTime))
      ∧ s.driven (s.expire i) (litChange i (litOf (some r)) (litOf (some (r.passedOn guarded)))) := by
  simp only [State.expire, stands, held]
  by_cases none_ : r.guardTime = 0
  · rw [if_pos none_] at guard ⊢
    subst guard
    exact State.depart_spec stands _
  · rw [if_neg none_] at guard ⊢
    subst guard
    obtain ⟨t, same⟩ : ∃ t, t = s.modClaim i fun c => { c with guardRecord := some { slot := k, remaining := r.guardTime } } := ⟨_, rfl⟩
    have elem (j : Index) : t.elem j = if j = i then some (r.setClaim { r.claim with guardRecord := some { slot := k, remaining := r.guardTime } })
        else s.elem j := by rw [same, State.elem_modClaim, stands]; rfl
    obtain ⟨record, others, hlp, drives⟩ := State.depart_spec (s := t) (i := i) ((elem i).trans (if_pos rfl)) (.expired i k r.guardTime)
    rw [← same]
    have before : s.driven t [] := State.driven_of_ebc (by simp [same, State.modClaim]) (by simp [same, State.modClaim])
    refine ⟨record, fun j other => ?_, ?_, before.trans drives⟩
    · rw [others j other, elem, if_neg other]
    · rw [hlp, same, State.modClaim, (State.modElem_frame _ _ _).1]
      rfl

end

/-- Settles O29: an expiry is the departure of the holder, its guard record set before. -/
theorem expiryGuardsAndPassesOn : Obligations.ExpiryGuardsAndPassesOn := by
  refine ⟨fun s i r k runs stands held limited long => ?_, fun s i r g runs stands guards last => ?_⟩
  · have run : exec (.claimExpiry i) s = .next (s.expire i) := by
      refine congrArg Host.Outcome.next ?_
      simp only [stands]
      rw [if_pos ⟨runs, limited, long⟩]
    obtain ⟨record, others, hlp, drives⟩ := State.expire_spec stands held rfl
    refine ⟨_, run, fun b other => ?_, others, record, ?_, hlp⟩
    · cases b <;> simp_all [State.sameBlock]
    · refine State.lamps_of_one (i := i) ?_ others
      rwa [State.litAt_eq, State.litAt_eq, stands, record]
  · have run : exec (.guardRunOut i) s = .next (s.modClaim i fun c => { c with guardRecord := none }) := by
      refine congrArg Host.Outcome.next ?_
      simp [stands, guards, runs, last]
    refine ⟨_, run, fun b other => ?_, fun j other => ?_, ?_⟩
    · cases b <;> simp_all [State.sameBlock, State.modClaim]
    · rw [State.elem_modClaim, if_neg other]
    · rw [State.elem_modClaim, if_pos rfl, stands]
      rfl

/-! ## RELEASE and CANCEL (R29, R30) -/

theorem State.driven_answerNow {s t : State} {asks : List BusAsk} (h : s.driven t asks) (k : Slot) (code : Answer) (detail : Option Nat) :
    s.driven (t.answerNow k code detail) asks := h.still (by simp) (by simp)

theorem State.elem_answerNow (s : State) (k : Slot) (code : Answer) (detail : Option Nat) (i : Index) :
    (s.answerNow k code detail).elem i = s.elem i := State.elem_congr (by simp) i

theorem State.driven_openNew (s : State) (k : Slot) (number : BitVec 4) (q : RobotRequest) : s.driven (s.openNew k number q) [] :=
  State.driven_of_ebc (by simp) (by simp)

/-- The station told of a new holder drives a lamp in AUTO that shows the other lit state. -/
theorem litOf_station {r : ElementRecord} {p : StationPart} (part : r.part = .station p) : litOf (some r) = p.lit := by
  simp [litOf, part]

theorem litOf_holderSeen_station {r : ElementRecord} {p : StationPart} (part : r.part = .station p) (auto : p.lampMode = .auto) (held : Bool) :
    litOf (some { r with part := r.part.holderSeen held }) = held := by
  rw [litOf_holderSeen, part]
  show p.lampMode.lit held = held
  rw [auto]
  rfl

theorem litOf_holderSeen_other {r : ElementRecord} (other : ∀ p, r.part ≠ .station p) (held : Bool) :
    litOf (some { r with part := r.part.holderSeen held }) = litOf (some r) := by
  rw [litOf_holderSeen]
  split
  · next part => exact absurd part (other _)
  · rfl

/-- Settles O28: RELEASE is a departure, CANCEL the leaving of a waiting list. -/
theorem releaseAndCancel : Obligations.ReleaseAndCancel := by
  refine ⟨fun s k number element executed => ?release, fun s k number executed sound => ?cancel⟩
  case release =>
    refine ⟨_, congrArg Host.Outcome.next (State.handOn_eq executed (.release element) _), ?_⟩
    intro answered
    have gives {code : Answer} {detail : Option Nat}
        (answer : (s.openNew k number (.release element)).releaseOn k element = (s.openNew k number (.release element)).answerNow k code detail) :
        answered code detail := State.answersRobot_of (q := .release element) answer
    split
    · next outside => exact gives (by simp [State.releaseOn, outside])
    · next playing =>
      have playing : s.mch.phase.inMatch = true := by simpa using playing
      refine ⟨fun above => gives (by simp [State.releaseOn, playing, indexOf_above above]), fun i names => ?_⟩
      split
      · next undefined => exact gives (by simp [State.releaseOn, playing, indexOf_val names, undefined])
      · next r stands =>
        split
        · next holds =>
          obtain ⟨u, opened⟩ : ∃ u, u = s.openNew k number (.release element) := ⟨_, rfl⟩
          have record : u.elem i = some r := by rw [opened, State.openNew_elem, stands]
          obtain ⟨passed, others, hlp, drives⟩ := State.depart_spec record (.released i k)
          have run : (s.openNew k number (.release element)).releaseOn k element = (u.depart i (.released i k)).answerNow k .released none := by
            simp [opened, State.releaseOn, playing, indexOf_val names, stands, holds]
          rw [run]
          have robots := State.openAnswered (s := s) (k := k) (number := number) (q := .release element)
            (t := u.depart i (.released i k)) (by simp [opened]) .released none
          have drives : s.driven ((u.depart i (.released i k)).answerNow k .released none) _ :=
            State.driven_answerNow ((opened ▸ State.driven_openNew s k number _).trans drives) k .released none
          have others : s.elemsBut ((u.depart i (.released i k)).answerNow k .released none) i := fun j other => by
            rw [State.elem_answerNow, others j other, opened, State.openNew_elem]
          have passed : ((u.depart i (.released i k)).answerNow k .released none).elem i = some (r.passedOn r.claim.guardRecord) := by
            rw [State.elem_answerNow, passed]
          refine ⟨fun b other => ?_, robots.1, others, robots.2, passed, ?_, ?_, fun p part auto lit => ?_, fun other => ?_⟩
          · cases b <;> simp_all [State.sameBlock]
          · rw [(State.answerNow_frame _ _ _ _).1, hlp, opened]; simp
          · refine State.lamps_of_one (i := i) ?_ others
            rwa [State.litAt_eq, State.litAt_eq, stands, passed]
          · rw [List.nil_append, litOf_passedOn, litOf_holderSeen_station part auto, litOf_station part] at drives
            rw [lit]
            exact State.lampAsked_of_driven drives (by rw [lit]; simp)
          · exact State.still_of_driven drives (by rw [litOf_passedOn, litOf_holderSeen_other other])
        · next other => exact gives (by simp [State.releaseOn, playing, indexOf_val names, stands, other])
  case cancel =>
    refine ⟨_, congrArg Host.Outcome.next (State.handOn_eq executed .cancel _), ?_⟩
    intro answered
    have gives {code : Answer} {detail : Option Nat}
        (answer : (s.openNew k number .cancel).cancelOn k = (s.openNew k number .cancel).answerNow k code detail) :
        answered code detail := State.answersRobot_of (q := .cancel) answer
    have waits : (s.openNew k number .cancel).waitsOn k = s.waitsOn k := by simp [State.waitsOn, State.waiters]
    split
    · next outside => exact gives (by simp [State.cancelOn, outside])
    · next playing =>
      have playing : s.mch.phase.inMatch = true := by simpa using playing
      refine ⟨fun nowhere => gives (by simp [State.cancelOn, playing, waits, (s.waitsOn_none k).mpr nowhere]), fun i here => ?_⟩
      have on : s.waitsOn k = some i := by
        cases found : s.waitsOn k with
        | none => exact absurd here ((s.waitsOn_none k).mp found i)
        | some j => exact congrArg some (sound.2.1 j i (s.waitsOn_some k j found) here)
      have run : (s.openNew k number .cancel).cancelOn k
          = ((s.openNew k number .cancel).leaveList i k).answerNow k .cancelled (some i.val) := by
        simp [State.cancelOn, playing, waits, on]
      rw [run]
      have robots := State.openAnswered (s := s) (k := k) (number := number) (q := .cancel)
        (t := (s.openNew k number .cancel).leaveList i k) (by simp) .cancelled (some i.val)
      refine ⟨fun b other => ?_, robots.1, fun j other => ?_, robots.2, ?_⟩
      · cases b <;> simp_all [State.sameBlock]
      · rw [State.elem_answerNow, State.leaveList, State.elem_modClaim, if_neg other, State.openNew_elem]
      · rw [State.elem_answerNow, State.leaveList, State.elem_modClaim, if_pos rfl, State.openNew_elem]

end Sys2Proof.Machine

/-! Settles O27: CLAIM on an element that passes its checks is granted or queued. -/
namespace Sys2Proof.Machine

/-- Where a record stands after its robots' claims were changed and the station told of a new holder. -/
def ElementRecord.granted (r : ElementRecord) (k : Slot) : ElementRecord :=
  { r with claim := { r.claim with holder := some k, heldFor := 0 }, part := r.part.holderSeen true }

section
variable {s : State} {k : Slot} {i : Index} {r : ElementRecord}

/-- A claim that passes the checks comes to the holder and the counts. -/
theorem State.claimOn_checked {element : Byte} (names : element.toNat = i.val) (checked : s.claimChecked k i r) :
    s.claimOn k element = if r.claim.holder = none then s.claimFree k i else s.claimHeld k i r.claim := by
  obtain ⟨playing, active, stands, kind, neutral, other, absent, sound, ours, unguarded⟩ := checked
  have may : claimable r.part.kind r.alliance = true :=
    (claimable_iff _ _).mpr (not_or.mpr ⟨kind, fun goal => goal.2 (neutral goal.1)⟩)
  have sound : r.inFault = false := Bool.eq_false_iff.mpr fun fault => by
    obtain ⟨probing, online⟩ := (ElementRecord.inFault_iff r).mp fault
    exact sound.elim probing online
  have ours : ¬ (r.alliance.isSome = true ∧ r.alliance ≠ (s.robot k).alliance) := by
    rw [Option.isSome_iff_ne_none]
    exact fun not => ours.elim not.1 not.2
  have unguarded : r.claim.guards k = none := by
    unfold ClaimPart.guards
    split
    · next g stands => rw [if_neg (unguarded g stands)]
    · rfl
  simp only [State.claimOn, playing, active, indexOf_val names, stands, may, Bool.not_true, Bool.false_eq_true, if_false, if_true,
    ne_eq, not_true_eq_false, reduceCtorEq]
  rw [State.claimRelation, if_neg other, if_neg (by simpa using absent), if_neg (by simp [sound]), if_neg ours, unguarded]

/-- Everything that a grant does: the wait that it withdraws, the claim, the notice and the lamp (R25, R26). -/
theorem State.grant_spec (stands : s.elem i = some r) (absent : k ∉ r.claim.waiting) {withdrawn : Option Index}
    (withdraws : withdrawn = if (s.heldBy k).length = 1 then s.waitsOn k else none) :
    ∃ t, s.grant k i = t.answerNow k .granted (withdrawn.map Fin.val) ∧ t.roster = s.roster
      ∧ s.onlyChanges t [.hlp, .elems, .ebc] ∧ t.elem i = some (r.granted k)
      ∧ (∀ j, j ≠ i → t.elem j = if withdrawn = some j then
          (s.elem j).map fun q => { q with claim := { q.claim with waiting := q.claim.waiting.erase k } } else s.elem j)
      ∧ t.hlp = s.hlp.raise (.claim (.granted i k withdrawn))
      ∧ s.driven t (litChange i (litOf (some r)) (litOf (some (r.granted k)))) := by
  obtain ⟨u, left⟩ : ∃ u, u = (match withdrawn with
    | some j => s.leaveList j k
    | none => s) := ⟨_, rfl⟩
  have apart : withdrawn ≠ some i := by
    rw [withdraws]
    split
    · intro on
      have here := s.waitsOn_some k i on
      rw [State.waiters, stands] at here
      exact absent here
    · nofun
  have elem (j : Index) : u.elem j = if withdrawn = some j then
      (s.elem j).map fun q => { q with claim := { q.claim with waiting := q.claim.waiting.erase k } } else s.elem j := by
    rw [left]
    split
    · next w => 
      rw [State.leaveList, State.elem_modClaim]
      by_cases here : j = w
      · subst here; simp
      · rw [if_neg here, if_neg (by simpa using Ne.symm here)]
    · simp
  have same : u.rcc = s.rcc ∧ u.roster = s.roster ∧ u.ebc = s.ebc ∧ u.mch = s.mch ∧ u.tu = s.tu ∧ u.now = s.now
      ∧ u.pending = s.pending ∧ u.hlp = s.hlp := by
    rw [left]
    split <;> simp [State.leaveList, State.modClaim]
  obtain ⟨rcc, roster, ebc, mch, tu, now, pending, hlp⟩ := same
  obtain ⟨v, held⟩ : ∃ v, v = (u.modClaim i fun c => { c with holder := some k, heldFor := 0 }).raiseClaim (.granted i k withdrawn) := ⟨_, rfl⟩
  have record : v.elem i = some { r with claim := { r.claim with holder := some k, heldFor := 0 } } := by
    rw [held, State.elem_raiseClaim, State.elem_modClaim, if_pos rfl, elem, if_neg apart, stands]
    rfl
  have told := State.driven_holderChanged v i
  have after : (v.holderChanged i).elem i = some (r.granted k) := by
    rw [State.elem_holderChanged, if_pos rfl, record]
    rfl
  rw [State.litAt_eq, State.litAt_eq, record, after] at told
  refine ⟨v.holderChanged i, ?_, by simp [held, State.modClaim, roster], fun b other => ?_, after, fun j other => ?_, ?_, ?_⟩
  · rw [held, left, withdraws]
    rfl
  · cases b <;> simp_all [State.sameBlock, State.modClaim]
  · rw [State.elem_holderChanged, if_neg other, held, State.elem_raiseClaim, State.elem_modClaim, if_neg other, elem]
  · rw [(State.holderChanged_frame _ _).1, held, State.raiseClaim_hlp, State.modClaim, (State.modElem_frame _ _ _).1, hlp]
  · have before : s.driven v [] := State.driven_of_ebc (by simp [held, State.modClaim, ebc]) (by simp [held, State.modClaim, now])
    exact before.trans told

end

/-- The checks of a CLAIM do not look at open requests. -/
theorem State.claimChecked_openNew {s : State} {k : Slot} {i : Index} {r : ElementRecord} (checked : s.claimChecked k i r)
    (number : BitVec 4) (q : RobotRequest) : (s.openNew k number q).claimChecked k i r := by
  unfold State.claimChecked at *
  simpa using checked

/-- Settles O27: a free element is granted, one that is held is waited for. -/
theorem claimGrantsOrQueues : Obligations.ClaimGrantsOrQueues := by
  refine ⟨fun s k number element i r executed names checked free => ?_, fun s k number element i r executed names checked held => ?_⟩
  all_goals
    have on := State.claimOn_checked names (State.claimChecked_openNew checked number (.claim element))
    have few : (s.openNew k number (.claim element)).heldBy k = s.heldBy k := State.heldBy_congr (by simp) k
    have waits : (s.openNew k number (.claim element)).waitsOn k = s.waitsOn k := by simp [State.waitsOn, State.waiters]
    obtain ⟨_, _, stands, _, _, _, absent, _⟩ := id checked
    refine ⟨_, congrArg Host.Outcome.next (State.handOn_eq executed (.claim element) fun t => t.claimOn k element), ?_⟩
  · rw [on, if_pos free, State.claimFree, few]
    split
    · next many => exact State.answersRobot_of (q := .claim element) (by rw [if_pos (show Config.holdLimitPerRobot ≤ _ from many)])
    · next room =>
      rw [if_neg (show ¬ Config.holdLimitPerRobot ≤ _ from room)]
      obtain ⟨withdrawn, withdraws⟩ : ∃ w, w = if (s.heldBy k).length = 1 then s.waitsOn k else none := ⟨_, rfl⟩
      obtain ⟨t, granted, roster, only, record, others, hlp, drives⟩ := State.grant_spec (s := s.openNew k number (.claim element))
        (k := k) (i := i) (r := r) (withdrawn := withdrawn) (by rw [State.openNew_elem, stands]) absent (by rw [few, waits, withdraws])
      rw [granted]
      obtain ⟨robots, answered⟩ := State.openAnswered (s := s) (number := number) (q := .claim element) roster .granted (withdrawn.map Fin.val)
      have drives : s.driven (t.answerNow k .granted (withdrawn.map Fin.val)) (litChange i (litOf (some r)) (litOf (some (r.granted k)))) :=
        State.driven_answerNow ((State.driven_openNew s k number _).trans drives) k _ _
      have record : (t.answerNow k .granted (withdrawn.map Fin.val)).elem i = some (r.granted k) := by
        rw [State.elem_answerNow, record]
      have others (j : Index) (other : j ≠ i) : (t.answerNow k .granted (withdrawn.map Fin.val)).elem j = if withdrawn = some j then
          (s.elem j).map fun q => { q with claim := { q.claim with waiting := q.claim.waiting.erase k } } else s.elem j := by
        rw [State.elem_answerNow, others j other, State.openNew_elem]
      refine ⟨withdrawn, withdraws, fun b other => ?_, robots, answered, record, others, ?_, ?_, fun p part auto dark => ?_,
        fun other => ?_⟩
      · have := only b
        cases b <;> simp_all [State.sameBlock]
      · rw [(State.answerNow_frame _ _ _ _).1, hlp]
        simp
      · refine State.lamps_of_driven (p := fun j => j == i) ?_ fun j out => ?_
        · rw [indices_filter_eq, List.flatMap_singleton, State.litAt_eq, State.litAt_eq, stands, record]
          exact drives
        · rw [State.litAt_eq, State.litAt_eq, others j (by simpa using out)]
          split
          · cases s.elem j <;> rfl
          · rfl
      · have lit : litOf (some (r.granted k)) = true := litOf_holderSeen_station part auto true
        rw [lit, litOf_station part, dark] at drives
        exact State.lampAsked_of_driven drives Bool.false_ne_true
      · exact State.still_of_driven drives (litOf_holderSeen_other other true)
  · intro answered
    have gives {code : Answer} {detail : Option Nat}
        (answer : (s.openNew k number (.claim element)).claimOn k element = (s.openNew k number (.claim element)).answerNow k code detail) :
        answered code detail := State.answersRobot_of (q := .claim element) answer
    rw [if_neg held] at on
    refine ⟨fun somewhere => gives ?_, fun nowhere => ?_⟩
    · obtain ⟨j, here⟩ := somewhere
      have on' : (s.waitsOn k).isSome = true := by
        rw [Option.isSome_iff_ne_none]
        exact fun none_ => (s.waitsOn_none k).mp none_ j here
      rw [on, State.claimHeld, waits, if_pos on']
    · have on' : ¬ (s.waitsOn k).isSome = true := by rw [(s.waitsOn_none k).mpr nowhere]; exact Bool.false_ne_true
      rw [State.claimHeld, waits, if_neg on', few] at on
      split
      · next many => exact gives (by rw [on, if_pos (show Config.holdLimitPerRobot ≤ _ from many)])
      · next room =>
        rw [if_neg (show ¬ Config.holdLimitPerRobot ≤ _ from room)] at on
        split
        · next full => exact gives (by rw [on, if_pos (show Config.waitPlaces ≤ _ from full)])
        · next short =>
          rw [if_neg (show ¬ Config.waitPlaces ≤ _ from short)] at on
          rw [on]
          have robots := State.openAnswered (s := s) (k := k) (number := number) (q := .claim element)
            (t := (s.openNew k number (.claim element)).modClaim i fun c => { c with waiting := c.waiting ++ [k] })
            (by simp [State.modClaim]) .queued (some (r.claim.waiting.length + 1))
          refine ⟨fun b other => ?_, robots.1, fun j other => ?_, robots.2, ?_⟩
          · cases b <;> simp_all [State.sameBlock, State.modClaim]
          · rw [State.elem_answerNow, State.elem_modClaim, if_neg other, State.openNew_elem]
          · rw [State.elem_answerNow, State.elem_modClaim, if_pos rfl, State.openNew_elem, stands]
            rfl

end Sys2Proof.Machine

/-! What freed places and an ask for a STOP_ALL leave asked for on the bus, and what a discarded MOTION does to the records (R102,
R104 to R107). -/
namespace Sys2Proof.Machine

/-! ## Freed places (R102) -/

/-- When no mark is in the order of the marks, none stands. -/
theorem State.unmarked_of_marksInOrder {s : State} (none_ : s.marksInOrder = []) (i : Index) : (s.sched i).marked = false := by
  rw [State.marksInOrder_eq, List.append_eq_nil_iff, List.append_eq_nil_iff] at none_
  obtain ⟨⟨control, refresh⟩, lamp⟩ := none_
  rw [List.flatMap_eq_nil_iff] at control
  rw [List.map_eq_nil_iff, List.filter_eq_nil_iff] at refresh lamp
  have control := control i (List.mem_finRange i)
  have refresh := refresh i (List.mem_finRange i)
  have lamp := lamp i (List.mem_finRange i)
  cases closing : (s.sched i).closingWanted <;> simp_all [State.controlMarks, Sched.refreshWaits, Sched.marked]

/-- Either 31 entries wait once `n` places were filled, or no mark stands. -/
def State.fillsUp (s : State) (n : Nat) : Prop := 31 ≤ s.ebc.ordinary + n ∨ ∀ i, (s.sched i).marked = false

theorem State.marksOnlyFull_iff (s : State) : s.marksOnlyFull ↔ s.fillsUp 0 := Iff.rfl

/-- The queue after the first mark got a place. -/
theorem State.ordinary_enter_other (s : State) (element : Option Index) {op : BusOp} (other : op ≠ .stopAll) (cls : TxClass)
    (origin : Origin) : (s.enter element op cls origin).ebc.ordinary = s.ebc.ordinary + 1 := by
  have waits (age at_ : Nat) : Entry.isStop { age := age, enteredAt := at_, element := element, op := op, cls := cls, origin := origin }
      = false := by
    cases op with
    | stopAll => exact absurd rfl other
    | _ => rfl
  simp [Ebc.ordinary, waits]

theorem State.handOver_fillsUp {s : State} {n : Nat} (fills : s.fillsUp (n + 1)) : s.handOver.fillsUp n := by
  cases full : s.ebc.full with
  | true =>
    have least : 31 ≤ s.ebc.ordinary := of_decide_eq_true full
    rw [State.handOver_nobody (.inl full)]
    exact .inl (Nat.le_trans least (Nat.le_add_right ..))
  | false =>
    cases marks : s.marksInOrder with
    | nil =>
      rw [State.handOver_nobody (.inr marks)]
      exact .inr (State.unmarked_of_marksInOrder marks)
    | cons w rest =>
      obtain ⟨first, _, other⟩ := State.handOver_first full marks
      rcases fills with few | none_
      · left
        rw [first, State.ordinary_enter_other _ _ other]
        simp only [State.modSched, State.setSched, State.setEbc, Ebc.ordinary] at few ⊢
        omega
      · right
        intro i
        have unmarked := none_ i
        rw [first, State.sched_served]
        split
        · next here => subst here; simp_all [Sched.marked, Sched.served]
        · exact unmarked

theorem State.handOverUpTo_fillsUp (n : Nat) : ∀ {s : State}, s.fillsUp n → (State.handOverUpTo n s).marksOnlyFull := by
  induction n with
  | zero => exact id
  | succ n ih => exact fun fills => ih (State.handOver_fillsUp fills)

/-- A closing poll that is asked for stays so when a place is filled. -/
theorem State.handOver_closingAsked {s : State} {i : Index} (asked : s.closingAsked i) : s.handOver.closingAsked i := by
  cases full : s.ebc.full with
  | true => rwa [State.handOver_nobody (.inl full)]
  | false =>
    cases marks : s.marksInOrder with
    | nil => rwa [State.handOver_nobody (.inr marks)]
    | cons w rest =>
      obtain ⟨first, _, _⟩ := State.handOver_first full marks
      rw [first, State.closingAsked, State.sched_served]
      rcases asked with queued | marked
      · left
        simp only [State.queued, State.queue_enter, State.queue_modSched, List.any_append] at queued ⊢
        rw [queued, Bool.true_or]
      · by_cases here : i = w.1 ∧ w.2.1 = .poll .closing
        · left
          simp [State.queued, Entry.isFor, here.1, here.2]
        · right
          split
          · next same => subst same; simp_all [Sched.served]
          · exact marked

theorem State.handOverUpTo_closingAsked (n : Nat) {i : Index} : ∀ {s : State}, s.closingAsked i →
    (State.handOverUpTo n s).closingAsked i := by
  induction n with
  | zero => exact id
  | succ n ih => exact fun asked => ih (State.handOver_closingAsked asked)

/-! ## The records after a discard (R107, R143, R150) -/

/-- A kind part after MOTION entries of its element were discarded by a STOP_ALL: `drives` when one of them was INTERNAL, `moves` when
one was not. -/
def KindPart.stopped (drives moves : Bool) : KindPart → KindPart
  | .carriage p => if drives = true ∧ p.runState ≠ .halted then .carriage { p with speedResync := true } else .carriage p
  | .gate p => if moves = true then .gate { p with motion := .idle } else .gate p
  | .goal p => .goal p
  | .station p => .station p

theorem KindPart.stopped_nothing (part : KindPart) : part.stopped false false = part := by
  cases part <;> simp [KindPart.stopped]

theorem KindPart.stopped_stopped (part : KindPart) (a b c d : Bool) : (part.stopped a b).stopped c d = part.stopped (a || c) (b || d) := by
  cases part with
  | carriage p => by_cases halted : p.runState = .halted <;> cases a <;> cases c <;> simp [KindPart.stopped, halted]
  | gate p => cases b <;> cases d <;> simp [KindPart.stopped]
  | goal p => rfl
  | station p => rfl

/-- The entry is a MOTION of the element that is not INTERNAL. -/
def Entry.isMove (e : Entry) (i : Index) : Bool := e.isMotion && e.isFor i && !(e.origin == .internal)

/-- A record whose kind part is given anew. -/
theorem State.elem_setPart_stopped {s : State} {i : Index} {r : ElementRecord} (stands : s.elem i = some r) {drives moves : Bool}
    {part : KindPart} (new : part = r.part.stopped drives moves) (j : Index) : (s.setPart i part).elem j =
      if j = i then (s.elem i).map fun r => { r with part := r.part.stopped drives moves } else s.elem j := by
  rw [State.elem_setPart_of_defined stands, stands, Option.map_some, new]
  rfl

/-- A record that a discard leaves as it is. -/
theorem State.elem_stopped_same {s : State} {i : Index} {r : ElementRecord} (stands : s.elem i = some r) {drives moves : Bool}
    (same : r.part.stopped drives moves = r.part) (j : Index) : s.elem j =
      if j = i then (s.elem i).map fun r => { r with part := r.part.stopped drives moves } else s.elem j := by
  split
  · next here => rw [here, stands, Option.map_some, same]
  · rfl

theorem State.elem_gateIdle (s : State) (i j : Index) :
    (s.gateIdle i).elem j = if j = i then (s.elem i).map fun r => { r with part := r.part.stopped false true } else s.elem j := by
  unfold State.gateIdle State.gateAt
  cases stands : s.elem i with
  | none => by_cases here : j = i <;> simp [here, stands]
  | some r =>
    rw [← stands]
    cases part : r.part with
    | gate p => simpa [stands, part] using State.elem_setPart_stopped stands (part := .gate { p with motion := .idle }) (by rw [part]; rfl) j
    | _ => simpa [stands, part] using State.elem_stopped_same stands (by rw [part]; rfl) j

theorem State.elem_carriageDriveDiscarded (s : State) (i j : Index) : (s.carriageDriveDiscarded i).elem j =
    if j = i then (s.elem i).map fun r => { r with part := r.part.stopped true false } else s.elem j := by
  unfold State.carriageDriveDiscarded State.carriageAt
  cases stands : s.elem i with
  | none => by_cases here : j = i <;> simp [here, stands]
  | some r =>
    rw [← stands]
    cases part : r.part with
    | carriage p =>
      by_cases halted : p.runState = .halted
      · simpa [stands, part, halted] using State.elem_stopped_same stands (by rw [part]; simp [KindPart.stopped, halted]) j
      · simpa [stands, part, halted] using State.elem_setPart_stopped stands (part := .carriage { p with speedResync := true })
          (by rw [part]; simp [KindPart.stopped, halted]) j
    | _ => simpa [stands, part] using State.elem_stopped_same stands (by rw [part]; rfl) j

/-- The records after one MOTION was discarded by a STOP_ALL. -/
theorem State.elem_motionDiscarded (s : State) (e : Entry) (j : Index) : (State.motionDiscarded true s e).elem j =
    (s.elem j).map fun r => { r with part := r.part.stopped (e.isCarriageDrive j) (e.isMove j) } := by
  have same (no : ∀ part : KindPart, part.stopped (e.isCarriageDrive j) (e.isMove j) = part) :
      s.elem j = (s.elem j).map fun r => { r with part := r.part.stopped (e.isCarriageDrive j) (e.isMove j) } := by
    cases s.elem j with
    | none => rfl
    | some r => rw [Option.map_some, no]
  obtain ⟨age, at_, element, op, cls, origin⟩ := e
  cases op with
  | motion m =>
    cases element with
    | none => exact same fun part => part.stopped_nothing
    | some i =>
      have host (tag : Byte) : (Origin.host tag == Origin.internal) = false := rfl
      have robot (k : Slot) (number : BitVec 4) : (Origin.robot k number == Origin.internal) = false := rfl
      have later (k : Slot) (number : BitVec 4) (code : Answer) (detail : Option Nat) (j : Index) :
          (s.answerLater k i number code detail).elem j = s.elem j := by simp [State.elem]
      by_cases here : i = j
      · subst here
        cases origin <;> simp [State.motionDiscarded, State.elem_gateIdle, State.elem_carriageDriveDiscarded, Entry.isCarriageDrive,
          Entry.isMove, Entry.isMotion, Entry.isFor, host, robot, later]
      · have other : j ≠ i := fun eq => here eq.symm
        have apart : (i == j) = false := by simpa using here
        cases origin <;> simp [State.motionDiscarded, State.elem_gateIdle, State.elem_carriageDriveDiscarded, Entry.isCarriageDrive,
          Entry.isMove, Entry.isMotion, Entry.isFor, later, other, apart, KindPart.stopped_nothing]
  | poll role => exact same fun part => part.stopped_nothing
  | lamp on => exact same fun part => part.stopped_nothing
  | stopAll => exact same fun part => part.stopped_nothing

theorem State.elem_motionsDiscarded (l : List Entry) (j : Index) : ∀ s : State, (l.foldl (State.motionDiscarded true) s).elem j =
    (s.elem j).map fun r => { r with part := r.part.stopped (l.any fun e => e.isCarriageDrive j) (l.any fun e => e.isMove j) } := by
  induction l with
  | nil => intro s; simp [KindPart.stopped_nothing]
  | cons e l ih =>
    intro s
    rw [List.foldl_cons, ih, State.elem_motionDiscarded, Option.map_map]
    congr 1
    funext r
    simp [KindPart.stopped_stopped]

/-- The records after every MOTION that waited was discarded by a STOP_ALL. -/
theorem State.elem_discardMotions (s : State) (j : Index) : (s.discard Entry.isMotion true).elem j = (s.elem j).map fun r =>
    { r with part := r.part.stopped (s.queued fun e => e.isCarriageDrive j) (s.queued fun e => e.isMove j) } := by
  have elems : (s.discard Entry.isMotion true).elems = _ := (State.handOverUpTo_blocks _ _).2.2.2.1
  have drives (e : Entry) : (e.isMotion && e.isCarriageDrive j) = e.isCarriageDrive j := by
    cases h : e.isMotion <;> simp [Entry.isCarriageDrive, h]
  have moves (e : Entry) : (e.isMotion && e.isMove j) = e.isMove j := by
    cases h : e.isMotion <;> simp [Entry.isMove, h]
  rw [State.elem, elems]
  refine (State.elem_motionsDiscarded _ j _).trans ?_
  rw [List.any_filter, List.any_filter]
  simp only [drives, moves]
  rfl

end Sys2Proof.Machine

/-! The push of a hold (R162): what it does to the hold stack, the records, the open requests and the bus. -/
namespace Sys2Proof.Machine

/-! ## The ask for a STOP_ALL (R104 to R107) -/

theorem Entry.filter_isMotion_map {f : Entry → Entry} {p : Entry → Bool} (moves : ∀ e, p e = true → e.isMotion = false ∧ (f e).isMotion = false)
    (l : List Entry) : (l.map fun e => if p e then f e else e).filter Entry.isMotion = l.filter Entry.isMotion := by
  induction l with
  | nil => rfl
  | cons e l ih =>
    rw [List.map_cons]
    by_cases here : p e = true
    · obtain ⟨before, after⟩ := moves e here
      rw [if_pos here, List.filter_cons_of_neg (by simp [after]), List.filter_cons_of_neg (by simp [before]), ih]
    · rw [if_neg here, List.filter_cons, List.filter_cons, ih]

theorem State.askClosing_motions (s : State) (i : Index) :
    (s.askClosing i).ebc.queue.filter Entry.isMotion = s.ebc.queue.filter Entry.isMotion := by
  unfold State.askClosing
  split
  · refine Entry.filter_isMotion_map (p := fun e => e.isPoll && e.isFor i) (f := fun e => { e with op := .poll .closing, cls := .control })
      (fun e here => ⟨?_, rfl⟩) s.ebc.queue
    obtain ⟨role, op⟩ := e.isPoll_iff.mp (Bool.and_eq_true_iff.mp here).1
    simp [Entry.isMotion, op]
  · split
    · rfl
    · simp [List.filter_append, Entry.isMotion]

theorem State.askClosing_nextAge (s : State) (i : Index) : s.ebc.nextAge ≤ (s.askClosing i).ebc.nextAge := by
  unfold State.askClosing
  split
  · exact Nat.le_refl _
  · split
    · exact Nat.le_refl _
    · exact Nat.le_succ _

theorem State.askClosing_stands {s : State} (stands : s.queued Entry.isStop = true) (i : Index) :
    (s.askClosing i).queued Entry.isStop = true := by
  unfold State.askClosing
  split
  · simp only [State.queued, List.any_eq_true] at stands ⊢
    obtain ⟨e, here, stop⟩ := stands
    refine ⟨_, List.mem_map_of_mem here, ?_⟩
    rw [if_neg]
    · exact stop
    · intro both
      obtain ⟨role, op⟩ := e.isPoll_iff.mp (Bool.and_eq_true_iff.mp both).1
      simp [Entry.isStop, op] at stop
  · split
    · exact stands
    · simp only [State.queued, State.queue_enter, List.any_append] at stands ⊢
      rw [stands, Bool.true_or]

/-- An ask for a closing poll leaves no mark beside a free place. -/
theorem State.askClosing_marksOnlyFull {s : State} (full : s.marksOnlyFull) (i : Index) : (s.askClosing i).marksOnlyFull := by
  unfold State.askClosing
  split
  · have ordinary : (s.mapQueue fun e => if e.isPoll && e.isFor i then { e with op := .poll .closing, cls := .control } else e).ebc.ordinary
        = s.ebc.ordinary := by
      simp only [Ebc.ordinary, State.mapQueue, State.setEbc, List.countP_map]
      refine List.countP_congr fun e _ => ?_
      simp only [Function.comp]
      split
      · next both =>
        obtain ⟨role, op⟩ := e.isPoll_iff.mp (Bool.and_eq_true_iff.mp both).1
        simp [Entry.isStop, op]
      · rfl
    exact full.imp (fun least => ordinary ▸ least) id
  · split
    · next none_ =>
      left
      rcases Bool.or_eq_true_iff.mp none_ with here | marked
      · exact of_decide_eq_true (p := 31 ≤ s.ebc.ordinary) here
      · obtain ⟨j, marked⟩ := s.ebc.anyMark_iff.mp marked
        exact full.resolve_right fun unmarked => Bool.noConfusion ((unmarked j).symm.trans marked)
    · refine full.imp (fun least => ?_) id
      rw [State.ordinary_enter_other _ _ BusOp.noConfusion]
      exact Nat.le_succ_of_le least

/-- What an ask for a STOP_ALL keeps on the bus on its way: the MOTION entries that wait, the order of the ages, a STOP_ALL that waits
and, without a free place, the marks. -/
def State.stopWay (s t : State) : Prop :=
  s.onlyChanges t [.ebc] ∧ t.ebc.queue.filter Entry.isMotion = s.ebc.queue.filter Entry.isMotion ∧ s.ebc.nextAge ≤ t.ebc.nextAge
    ∧ (s.queued Entry.isStop = true → t.queued Entry.isStop = true) ∧ (s.marksOnlyFull → t.marksOnlyFull)

theorem State.stopWay.trans {s t u : State} (first : s.stopWay t) (then_ : t.stopWay u) : s.stopWay u := by
  obtain ⟨only, motions, ages, stop, full⟩ := first
  obtain ⟨only', motions', ages', stop', full'⟩ := then_
  refine ⟨fun b other => ?_, motions'.trans motions, Nat.le_trans ages ages', fun h => stop' (stop h), fun h => full' (full h)⟩
  have := only b other
  have := only' b other
  cases b <;> simp_all [State.sameBlock]

theorem State.stopWay_askClosing (s : State) (i : Index) : s.stopWay (s.askClosing i) :=
  ⟨fun b other => by cases b <;> simp_all [State.sameBlock], s.askClosing_motions i, s.askClosing_nextAge i,
    fun stands => State.askClosing_stands stands i, fun full => State.askClosing_marksOnlyFull full i⟩

/-- A step that moves neither the queue nor a mark. -/
theorem State.stopWay_same {s t : State} (only : s.onlyChanges t [.ebc]) (queue : t.ebc.queue = s.ebc.queue)
    (age : t.ebc.nextAge = s.ebc.nextAge) (marks : ∀ i, (t.sched i).marked = (s.sched i).marked) : s.stopWay t := by
  refine ⟨only, by rw [queue], Nat.le_of_eq age.symm, fun stop => by rw [State.queued, queue]; exact stop, ?_⟩
  refine Or.imp (fun least => ?_) fun unmarked i => (marks i).trans (unmarked i)
  rw [Ebc.ordinary, queue]
  exact least

theorem State.stopWay_endTransaction (s : State) : s.stopWay s.endTransaction :=
  State.stopWay_same (fun b other => by cases b <;> simp_all [State.sameBlock]) rfl rfl fun _ => rfl

theorem State.stopWay_setDue (s : State) (i : Index) : s.stopWay (s.setDue i) := by
  refine State.stopWay_same (fun b other => by cases b <;> simp_all [State.sameBlock]) ?_ ?_ fun j => ?_
  · unfold State.setDue; split <;> rfl
  · unfold State.setDue; split <;> rfl
  · unfold State.setDue
    split
    · rw [State.sched_modSched]
      split
      · next here => subst here; rfl
      · rfl
    · rfl

theorem State.stopWay_enterStop (s : State) : s.stopWay (s.enter none .stopAll .safety .internal) := by
  refine ⟨fun b other => by cases b <;> simp_all [State.sameBlock], ?_, Nat.le_succ _, fun _ => ?_, fun full => full.imp (fun least => ?_) id⟩
  · simp [List.filter_append, Entry.isMotion]
  · simp [State.queued, Entry.isStop]
  · rw [Ebc.ordinary, State.queue_enter, List.countP_append]
    exact Nat.le_add_right_of_le least

theorem State.stopWay_abandonPoll (s : State) : s.stopWay s.abandonPoll := by
  have same : s.stopWay s := State.stopWay_same (fun b _ => by cases b <;> rfl) rfl rfl fun _ => rfl
  have ended := s.stopWay_endTransaction
  unfold State.abandonPoll
  split
  · split
    · split
      · next i _ _ =>
        have due := ended.trans (s.endTransaction.stopWay_setDue i)
        dsimp only
        split
        · exact due.trans (State.stopWay_askClosing _ i)
        · exact due
      · exact ended
    all_goals exact same
  · exact same

/-- What stands after the first step of an ask for a STOP_ALL. -/
theorem State.stopEntered_spec (s : State) : s.stopWay s.stopEntered ∧ s.stopEntered.stopAllStands = true
      ∧ ∀ i, s.abandons = some (i, .closing) → s.stopEntered.closingAsked i := by
  rw [← State.stopEntered_eq]
  by_cases stands : s.stopAllStands = true
  · rw [if_pos stands]
    refine ⟨State.stopWay_same (fun b _ => by cases b <;> rfl) rfl rfl fun _ => rfl, stands, fun i gone => ?_⟩
    rw [State.abandons.eq_def, if_pos stands] at gone
    cases gone
  · rw [if_neg stands]
    have polls := (s.enter none .stopAll .safety .internal).stopWay_abandonPoll
    refine ⟨s.stopWay_enterStop.trans polls, ?_, fun i gone => ?_⟩
    · obtain ⟨_, _, _, stop, _⟩ := polls
      rw [State.stopAllStands, stop (by simp [State.queued, Entry.isStop]), Bool.true_or]
    · rw [State.abandons.eq_def, if_neg stands] at gone
      cases flying : s.ebc.inFlight with
      | none => simp [flying] at gone
      | some f =>
        have flying' : (s.enter none .stopAll .safety .internal).ebc.inFlight = some f := flying
        cases op : f.entry.op <;> cases element : f.entry.element <;> simp [flying, op, element] at gone
        obtain ⟨counts, rfl, rfl⟩ := gone
        simp only [State.abandonPoll, flying', op, element, counts, if_true]
        exact State.askClosing_asked _ _

theorem State.setDue_ebc_congr {s t : State} (ebc : t.ebc = s.ebc) (now : t.now = s.now) (i : Index)
    (period : (t.elem i).map ElementRecord.pollPeriod = (s.elem i).map ElementRecord.pollPeriod) :
    (t.setDue i).ebc = (s.setDue i).ebc := by
  unfold State.setDue
  cases mine : t.elem i <;> cases theirs : s.elem i <;> simp_all [State.modSched, State.setSched, State.sched]

/-- The first step depends on the bus, the wall time and the poll periods alone. -/
theorem State.stopEntered_ebc_congr {s t : State} (ebc : t.ebc = s.ebc) (now : t.now = s.now)
    (periods : ∀ i, (t.elem i).map ElementRecord.pollPeriod = (s.elem i).map ElementRecord.pollPeriod) :
    t.stopEntered.ebc = s.stopEntered.ebc := by
  have stands : t.stopAllStands = s.stopAllStands := by unfold State.stopAllStands State.queued; rw [ebc]
  have entered : (t.enter none .stopAll .safety .internal).ebc = (s.enter none .stopAll .safety .internal).ebc := by
    simp [State.enter, ebc, now]
  have ended : (t.enter none .stopAll .safety .internal).endTransaction.ebc = (s.enter none .stopAll .safety .internal).endTransaction.ebc := by
    simp [State.endTransaction, entered]
  rw [← State.stopEntered_eq, ← State.stopEntered_eq, stands]
  split
  · exact ebc
  · unfold State.abandonPoll
    rw [entered]
    split
    · split
      · split
        · next i _ _ =>
          have due := State.setDue_ebc_congr ended now i (periods i)
          dsimp only
          split
          · exact State.ebc_asksAll_one_congr due (by simpa using now) (.closing i)
          · exact due
        · exact ended
      all_goals exact entered
    · exact entered

end Sys2Proof.Machine

/-! The push of a hold (R162): what it does to the hold stack, the records, the open requests and the bus; requests to push (Table
8-6). -/
namespace Sys2Proof.Machine

/-! ## The ask for a STOP_ALL (R104 to R107) -/

theorem State.discardNotices_congr {s t : State} (same : t.ebc.queue.filter Entry.isMotion = s.ebc.queue.filter Entry.isMotion) :
    t.discardNotices Entry.isMotion = s.discardNotices Entry.isMotion := by
  unfold State.discardNotices
  rw [same]

/-- What is queued among the MOTION entries. -/
theorem State.queued_congr {s t : State} (same : t.ebc.queue.filter Entry.isMotion = s.ebc.queue.filter Entry.isMotion) {p : Entry → Bool}
    (moves : ∀ e, p e = true → e.isMotion = true) : t.queued p = s.queued p := by
  have among (u : State) : u.queued p = (u.ebc.queue.filter Entry.isMotion).any p := by
    rw [List.any_filter, State.queued]
    congr 1
    funext e
    cases here : p e with
    | false => rw [Bool.and_false]
    | true => rw [moves e here, Bool.true_and]
  rw [among, among, same]

theorem State.discardsAct_congr {s t : State} (same : t.ebc.queue.filter Entry.isMotion = s.ebc.queue.filter Entry.isMotion) :
    t.discardsAct Entry.isMotion = s.discardsAct Entry.isMotion := by
  funext k o
  exact State.queued_congr same fun e here => (Bool.and_eq_true_iff.mp here).1

theorem State.failsActs_of {s t u : State} {waits : Slot → OpenRequest → Bool} {detail : Nat} (fails : u.failsActs t waits detail)
    (roster : u.roster = s.roster) : s.failsActs t waits detail := by
  obtain ⟨robots, rest⟩ := fails
  refine ⟨fun k => ?_, by rw [rest, roster]⟩
  rw [← State.robot_of_roster roster]
  exact robots k

/-- The bus after a discard of every MOTION has no MOTION that waited, and keeps what stood and what was asked for. -/
theorem State.discard_bus (s : State) (byStopAll : Bool) :
    (∀ e ∈ (s.discard Entry.isMotion byStopAll).ebc.queue, e.isMotion = true → s.ebc.nextAge ≤ e.age ∧ e.origin = .internal)
    ∧ (s.stopAllStands = true → (s.discard Entry.isMotion byStopAll).stopAllStands = true)
    ∧ (∀ i, s.closingAsked i → (s.discard Entry.isMotion byStopAll).closingAsked i)
    ∧ (s.marksOnlyFull → (s.discard Entry.isMotion byStopAll).marksOnlyFull) := by
  obtain ⟨_, _, grows, _⟩ := s.discard_spec Entry.isMotion byStopAll
  obtain ⟨added, queue, young⟩ := grows.queue
  obtain ⟨left, gives⟩ : ∃ u : State, u = (s.ebc.queue.filter Entry.isMotion).foldl (State.motionDiscarded byStopAll)
      (s.setEbc { s.ebc with queue := s.ebc.queue.filter fun e => !e.isMotion }) := ⟨_, rfl⟩
  have bus : left.ebc = { s.ebc with queue := s.ebc.queue.filter fun e => !e.isMotion } := by
    obtain ⟨_, bus, _⟩ := State.motionDiscarded_fold_frame byStopAll (s.ebc.queue.filter Entry.isMotion)
      (s.setEbc { s.ebc with queue := s.ebc.queue.filter fun e => !e.isMotion })
    rw [gives]
    exact bus
  have handed : s.discard Entry.isMotion byStopAll = State.handOverUpTo (s.ebc.queue.filter Entry.isMotion).length left := by
    rw [gives]; rfl
  refine ⟨fun e here moves => ?_, fun stands => ?_, fun i asked => ?_, fun full => ?_⟩
  · rw [queue] at here
    rcases List.mem_append.mp here with old | new
    · simp [moves] at old
    · exact ⟨(young e new).1, (young e new).2.1⟩
  · simp only [State.stopAllStands, State.queued, grows.inFlight, queue, Bool.or_eq_true, List.any_append] at stands ⊢
    refine stands.imp (fun queued => .inl ?_) id
    obtain ⟨e, here, stop⟩ := List.any_eq_true.mp queued
    refine List.any_eq_true.mpr ⟨e, List.mem_filter.mpr ⟨here, ?_⟩, stop⟩
    obtain ⟨age, at_, element, op, cls, origin⟩ := e
    cases op <;> simp_all [Entry.isStop, Entry.isMotion]
  · rw [handed]
    refine State.handOverUpTo_closingAsked _ (asked.imp (fun queued => ?_) fun marked => ?_)
    · rw [State.queued, bus]
      obtain ⟨e, here, poll⟩ := List.any_eq_true.mp queued
      refine List.any_eq_true.mpr ⟨e, List.mem_filter.mpr ⟨here, ?_⟩, poll⟩
      simp only [Bool.and_eq_true, beq_iff_eq] at poll
      simp [Entry.isMotion, poll.2]
    · rw [State.sched, bus]
      exact marked
  · rw [handed]
    refine State.handOverUpTo_fillsUp _ (full.imp (fun least => ?_) fun unmarked i => ?_)
    · rw [Ebc.ordinary, bus, List.countP_filter, ← List.countP_eq_length_filter]
      have parts : s.ebc.ordinary ≤ s.ebc.queue.countP (fun e => !e.isStop && !e.isMotion) + s.ebc.queue.countP Entry.isMotion := by
        rw [Ebc.ordinary]
        generalize s.ebc.queue = l
        induction l with
        | nil => exact Nat.le_refl _
        | cons e l ih =>
          simp only [List.countP_cons]
          cases e.isStop <;> cases e.isMotion <;> simp <;> omega
      exact Nat.le_trans least parts
    · rw [State.sched, bus]
      exact unmarked i

/-- An ask for a STOP_ALL: notices and answers for the MOTION entries that waited, their elements' records, and the bus. -/
theorem State.askStopAll_spec (s : State) :
    s.askStopAll.hlp = s.hlp.raiseAll (s.discardNotices Entry.isMotion) ∧ s.failsActs s.askStopAll (s.discardsAct Entry.isMotion) 5
      ∧ (∀ i, s.askStopAll.elem i = (s.elem i).map fun r =>
          { r with part := r.part.stopped (s.queued fun e => e.isCarriageDrive i) (s.queued fun e => e.isMove i) })
      ∧ s.stopsBus s.askStopAll := by
  have bus := s.askStopAll_ebc
  have discards : s.askStopAll = s.stopEntered.discard Entry.isMotion true := by rw [State.askStopAll, State.stopEntered_eq]
  obtain ⟨⟨only, motions, ages, _, full⟩, stands, closing⟩ := s.stopEntered_spec
  obtain ⟨hlp, fails, _⟩ := s.stopEntered.discard_spec Entry.isMotion true
  obtain ⟨young, stays, asked, fills⟩ := s.stopEntered.discard_bus true
  have elem := s.stopEntered.elem_discardMotions
  rw [← discards] at hlp fails young stays asked fills elem
  have hlps : s.stopEntered.hlp = s.hlp := only .hlp (by simp)
  have roster : s.stopEntered.roster = s.roster := only .roster (by simp)
  have elems : s.stopEntered.elems = s.elems := only .elems (by simp)
  rw [State.discardsAct_congr motions] at fails
  refine ⟨by rw [hlp, hlps, State.discardNotices_congr motions], State.failsActs_of fails roster, fun i => ?_, bus, stays stands,
    fun e here moves => ⟨Nat.le_trans ages (young e here moves).1, (young e here moves).2⟩, fun i gone => asked i (closing i gone),
    fun before => fills (full before)⟩
  rw [elem, State.elem_of_elems elems, State.queued_congr motions fun e here => e.isMotion_iff.mpr ((e.isCarriageDrive_iff i).mp here).1,
    State.queued_congr (p := fun e => e.isMove i) motions fun e here => (Bool.and_eq_true_iff.mp (Bool.and_eq_true_iff.mp here).1).1]

/-- The bus after a push is judged from any state with the same bus, wall time and poll periods. -/
theorem State.stopsBus_of {s t u : State} (stops : u.stopsBus t) (ebc : u.ebc = s.ebc) (now : u.now = s.now)
    (periods : ∀ i, (u.elem i).map ElementRecord.pollPeriod = (s.elem i).map ElementRecord.pollPeriod) : s.stopsBus t := by
  obtain ⟨bus, stands, young, closing, full⟩ := stops
  have entered := State.stopEntered_ebc_congr ebc now periods
  have gone : u.abandons = s.abandons := by
    have stands : u.stopAllStands = s.stopAllStands := by unfold State.stopAllStands State.queued; rw [ebc]
    unfold State.abandons
    rw [stands, ebc]
  refine ⟨?_, stands, ebc ▸ young, gone ▸ closing, fun before => full ?_⟩
  · rw [bus, State.busStopped, State.busStopped, entered]
    refine State.handsOn_congr ?_ ?_ ?_ _
    · rfl
    · exact now
    · rfl
  · unfold State.marksOnlyFull State.sched at *
    rwa [ebc]

/-! ## The push of a hold (R162) -/

/-- A kind part at the push of a hold: a RUNNING carriage is HALTED. -/
def KindPart.halted : KindPart → KindPart
  | .carriage p => if p.runState = .running then .carriage { p with runState := .halted, commanded := 0 } else .carriage p
  | .goal p => .goal p
  | .gate p => .gate p
  | .station p => .station p

theorem State.elem_haltCarriage (s : State) (i j : Index) : (s.haltCarriage i).elem j =
    if j = i then (s.elem i).map fun r => { r with part := r.part.halted } else s.elem j := by
  have same (r : ElementRecord) (stands : s.elem i = some r) (still : r.part.halted = r.part) :
      s.elem j = if j = i then (s.elem i).map fun r => { r with part := r.part.halted } else s.elem j := by
    split
    · next here => rw [here, stands, Option.map_some, still]
    · rfl
  unfold State.haltCarriage State.carriageAt
  cases stands : s.elem i with
  | none => by_cases here : j = i <;> simp [here, stands]
  | some r =>
    rw [← stands]
    cases part : r.part with
    | carriage p =>
      by_cases running : p.runState = .running
      · have new : ElementRecord.setPart r (.carriage { p with runState := .halted, commanded := 0 }) = { r with part := r.part.halted } := by
          simp [ElementRecord.setPart, part, KindPart.halted, running]
        simp only [stands, part, running, if_true, State.setCarriage]
        rw [State.elem_setPart_of_defined stands, new, Option.map_some]
      · simpa [stands, part, running] using same r stands (by rw [part]; simp [KindPart.halted, running])
    | _ => simpa [stands, part] using same r stands (by rw [part]; rfl)

/-- Halting and then losing the MOTION entries that wait is what a push does to a record. -/
theorem State.haltedPart_eq (s : State) (i : Index) (part : KindPart) :
    part.halted.stopped (s.queued fun e => e.isCarriageDrive i) (s.queued fun e => e.isMove i) = s.haltedPart i part := by
  cases part with
  | carriage p =>
    by_cases running : p.runState = .running
    · simp [KindPart.halted, State.haltedPart, KindPart.stopped, running]
    · simp only [KindPart.halted, State.haltedPart, KindPart.stopped, running, if_false]
      simp only [and_comm]
  | gate p => rfl
  | goal p => rfl
  | station p => rfl

theorem State.pushHold_onlyChanges (s : State) (cause : HoldCause) (detail : Option Byte) :
    s.onlyChanges (s.pushHold cause detail) [.hlp, .roster, .elems, .ebc, .mch] :=
  fun b other => by cases b <;> simp_all [State.sameBlock]

/-- A push: its notices, and what it does to every other block. -/
theorem State.pushHold_spec (s : State) (cause : HoldCause) (detail : Option Byte) :
    s.pushes (s.pushHold cause detail) cause detail ∧ (s.pushHold cause detail).hlp = s.hlp.raiseAll (s.pushNotices cause detail) := by
  obtain ⟨t, pushed⟩ : ∃ t : State, t = (s.setMch (s.mch.push (s.mch.newHold cause detail))).raiseHold
      (.pushed s.mch.nextHold cause detail (s.mch.stack.length + 1)) := ⟨_, rfl⟩
  obtain ⟨_, halts, _⟩ := State.eachIndex_walk (fun _ => True) (fun i u => u.haltCarriage i) (fun _ r => r.map fun r => { r with part := r.part.halted })
    (fun _ _ => []) (fun _ _ _ => trivial) (fun i u j _ => u.elem_haltCarriage i j) (fun i u _ => by simp) t trivial
  obtain ⟨u, halted⟩ : ∃ u : State, u = t.eachIndex fun i u => u.haltCarriage i := ⟨_, rfl⟩
  have stops : s.pushHold cause detail = u.askStopAll := by rw [halted, pushed]; rfl
  rw [← halted] at halts
  obtain ⟨hlp, fails, elem, bus⟩ := u.askStopAll_spec
  have kept : u.hlp = t.hlp ∧ u.roster = s.roster ∧ u.ebc = s.ebc ∧ u.now = s.now ∧ u.mch = s.mch.push (s.mch.newHold cause detail) := by
    rw [halted]
    simp [pushed]
  obtain ⟨hlps, roster, ebc, now, mch⟩ := kept
  have record (i : Index) : u.elem i = (s.elem i).map fun r => { r with part := r.part.halted } := by
    rw [halts, pushed]
    simp
  have queued (p : Entry → Bool) : u.queued p = s.queued p := congrArg (fun e : Ebc => e.queue.any p) ebc
  have acts : u.discardsAct Entry.isMotion = s.discardsAct Entry.isMotion := State.discardsAct_congr (by rw [ebc])
  have periods (i : Index) : (u.elem i).map ElementRecord.pollPeriod = (s.elem i).map ElementRecord.pollPeriod := by
    rw [record, Option.map_map]; rfl
  rw [← stops] at hlp fails elem bus
  rw [acts] at fails
  refine ⟨⟨s.pushHold_onlyChanges cause detail, s.pushHold_mch cause detail, fun i => ?_, State.failsActs_of fails roster,
    State.stopsBus_of bus ebc now periods⟩, ?_⟩
  · rw [elem, record, queued, queued, Option.map_map]
    refine congrArg (fun f => (s.elem i).map f) (funext fun r => ?_)
    exact congrArg (fun part => { r with part := part }) (s.haltedPart_eq i r.part)
  · rw [hlp, hlps, State.discardNotices_congr (s := s) (by rw [ebc]), pushed]
    rfl

/-- A request to push a hold (Table 8-6). -/
theorem State.requestPush_spec (s : State) (q : PushRequest) : s.pushRequested (s.requestPush q) q := by
  have lost : s.mch.absorbsLost q = true ↔
      q = .hostLost ∧ (s.mch.stack.any (fun h => h.cause == .hostLost) = true ∨ s.mch.pendingSet.hostLost = true) := by
    cases q <;> simp [Mch.absorbsLost, PushRequest.cause]
  have full : s.mch.stackFull = true ↔ 6 ≤ s.mch.stack.length := decide_eq_true_iff
  unfold State.requestPush State.pushRequested
  by_cases absorbs : s.mch.absorbsLost q = true
  · rw [if_pos absorbs, if_pos (lost.mp absorbs)]
    exact ⟨fun b other => by cases b <;> simp_all [State.sameBlock], rfl⟩
  · rw [if_neg absorbs, if_neg fun here => absorbs (lost.mpr here)]
    by_cases none_ : s.mch.stackFull = true
    · rw [if_pos none_, if_pos (full.mp none_)]
      by_cases waits : s.mch.pendingSet.has q.cause = true
      · rw [if_pos waits, if_pos waits]
        exact ⟨fun b other => by cases b <;> simp_all [State.sameBlock], rfl⟩
      · rw [if_neg waits, if_neg waits]
        exact ⟨fun b other => by cases b <;> simp_all [State.sameBlock], rfl, by cases q <;> rfl⟩
    · rw [if_neg none_, if_neg fun here => none_ (full.mpr here)]
      exact s.pushHold_spec q.cause q.detail

end Sys2Proof.Machine

/-! What is asked for stays asked for through later asks of other kinds, other elements or the same value (R96 to R98). -/
namespace Sys2Proof.Machine

/-- What an ask puts into the queue. -/
def BusAsk.op : BusAsk → BusOp
  | .lamp _ on => .lamp on
  | .speed _ commanded => .motion (.carriage commanded)
  | .closing _ => .poll .closing

/-- The element an ask is for. -/
def BusAsk.index : BusAsk → Index
  | .lamp i _ | .speed i _ | .closing i => i

/-- The pending mark that stands for an ask. -/
def BusAsk.mark : BusAsk → Sched → Bool
  | .lamp _ _ => Sched.lampSync
  | .speed _ _ => Sched.carriageSync
  | .closing _ => Sched.closingWanted

/-- The ask is queued with its value, or its mark stands. -/
def State.isAsked (t : State) (q : BusAsk) : Prop :=
  t.queued (fun e => e.isFor q.index && e.op == q.op) = true ∨ q.mark (t.sched q.index) = true

theorem State.isAsked_lamp (t : State) (i : Index) (on : Bool) : t.isAsked (.lamp i on) ↔ t.lampAsked i on := Iff.rfl
theorem State.isAsked_speed (t : State) (i : Index) (speed : Int) : t.isAsked (.speed i speed) ↔ t.speedAsked i speed := Iff.rfl
theorem State.isAsked_closing (t : State) (i : Index) : t.isAsked (.closing i) ↔ t.closingAsked i := Iff.rfl

theorem State.isAsked_of_ebc {s t : State} (bus : t.ebc = s.ebc) (q : BusAsk) : t.isAsked q ↔ s.isAsked q := by
  simp only [State.isAsked, State.queued, State.sched, bus]

/-- A later ask takes the place of an earlier one: they drive the same output of one element to different values. -/
def BusAsk.overrides : BusAsk → BusAsk → Prop
  | .lamp i on, .lamp j was => i = j ∧ on ≠ was
  | .speed i commanded, .speed j was => i = j ∧ commanded ≠ was
  | _, _ => False

/-- A change of some queued entries keeps an ask that is queued, when it keeps it in the entries it changes. -/
theorem State.queued_mapQueue_keeps {s : State} {p want : Entry → Bool} {f : Entry → Entry} (queued : s.queued want = true)
    (keeps : ∀ e, want e = true → p e = true → want (f e) = true) :
    (s.mapQueue fun e => if p e then f e else e).queued want = true := by
  obtain ⟨e, here, wanted⟩ := List.any_eq_true.mp queued
  refine List.any_eq_true.mpr ⟨_, List.mem_map_of_mem here, ?_⟩
  split
  · next changed => exact keeps e wanted changed
  · exact wanted

theorem State.queued_enter_keeps {s : State} {want : Entry → Bool} (queued : s.queued want = true) (element : Option Index) (op : BusOp)
    (cls : TxClass) (origin : Origin) : (s.enter element op cls origin).queued want = true := by
  simp only [State.queued, State.queue_enter, List.any_append] at queued ⊢
  rw [queued, Bool.true_or]

/-- The shape of every ask: merged into entries that are queued, or a mark, or a new entry. -/
theorem State.isAsked_keeps {s : State} {q : BusAsk} (asked : s.isAsked q) {p : Entry → Bool} {f : Entry → Entry} {mark : Sched → Sched}
    (merges : ∀ e, (e.isFor q.index && e.op == q.op) = true → p e = true → ((f e).isFor q.index && (f e).op == q.op) = true)
    (marks : ∀ c, q.mark c = true → q.mark (mark c) = true) (i : Index) (op : BusOp) (cls : TxClass) :
    State.isAsked (if s.queued p then s.mapQueue fun e => if p e then f e else e
      else if s.ebc.noRoom then s.modSched i mark else s.enter (some i) op cls .internal) q := by
  split
  · exact asked.imp (fun queued => State.queued_mapQueue_keeps queued merges) id
  · split
    · refine asked.imp id fun marked => ?_
      rw [State.sched_modSched]
      split
      · next same => exact marks _ (same ▸ marked)
      · exact marked
    · exact asked.imp (fun queued => State.queued_enter_keeps queued _ _ _ _) id

theorem State.askLamp_isAsked {s : State} {q : BusAsk} (asked : s.isAsked q) {i : Index} {on : Bool} (other : ¬ (BusAsk.lamp i on).overrides q) :
    (s.askLamp i on).isAsked q := by
  refine State.isAsked_keeps asked (f := fun e => { e with op := .lamp on }) (fun e want lamp => ?_) (fun c marked => ?_) i (.lamp on) .cosmetic
  · cases q <;> simp_all [BusAsk.op, BusAsk.index, BusAsk.overrides, Entry.isLamp, Entry.isFor]
  · cases q with
    | lamp j was => rfl
    | _ => exact marked

theorem State.askCarriage_isAsked {s : State} {q : BusAsk} (asked : s.isAsked q) {i : Index} {speed : Int}
    (other : ¬ (BusAsk.speed i speed).overrides q) : (s.askCarriage i speed).isAsked q := by
  refine State.isAsked_keeps asked (f := fun e => { e with op := .motion (.carriage speed) }) (fun e want drive => ?_) (fun c marked => ?_) i
    (.motion (.carriage speed)) .control
  · cases q <;> simp_all [BusAsk.op, BusAsk.index, BusAsk.overrides, Entry.isCarriageDrive, Entry.isMotion, Entry.isFor]
  · cases q with
    | speed j was => rfl
    | _ => exact marked

theorem State.askClosing_isAsked {s : State} {q : BusAsk} (asked : s.isAsked q) (i : Index) : (s.askClosing i).isAsked q := by
  refine State.isAsked_keeps asked (f := fun e => { e with op := .poll .closing, cls := .control }) (fun e want poll => ?_)
    (fun c marked => ?_) i (.poll .closing) .control
  · cases q <;> simp_all [BusAsk.op, BusAsk.index, Entry.isPoll, Entry.isFor]
  · cases q with
    | closing j => rfl
    | _ => exact marked

theorem State.asksAll_keeps {q : BusAsk} (asks : List BusAsk) (alone : ∀ r ∈ asks, ¬ r.overrides q) :
    ∀ {s : State}, s.isAsked q → (s.asksAll asks).isAsked q := by
  induction asks with
  | nil => exact id
  | cons r asks ih =>
    intro s asked
    rw [State.asksAll_cons]
    refine ih (fun r later => alone r (List.mem_cons_of_mem _ later)) ?_
    have free := alone r (List.mem_cons_self ..)
    cases r with
    | lamp i on => exact State.askLamp_isAsked asked free
    | speed i speed => exact State.askCarriage_isAsked asked free
    | closing i => exact State.askClosing_isAsked asked i

/-- An ask among several stands behind them, when none of them drives its output to another value. -/
theorem State.asksAll_isAsked {q : BusAsk} {asks : List BusAsk} (here : q ∈ asks) (alone : ∀ r ∈ asks, ¬ r.overrides q) (s : State) :
    (s.asksAll asks).isAsked q := by
  obtain ⟨before, behind, rfl⟩ := List.append_of_mem here
  rw [State.asksAll_append, State.asksAll_cons]
  refine State.asksAll_keeps behind (fun r later => alone r (List.mem_append_right _ (List.mem_cons_of_mem _ later))) ?_
  cases q with
  | lamp i on => exact State.askLamp_asked _ i on
  | speed i speed => exact State.askCarriage_asked _ i speed
  | closing i => exact State.askClosing_asked _ i

/-- After an operation that touches the bus by asks alone, each of them stands. -/
theorem State.driven.isAsked {s t : State} {asks : List BusAsk} (drives : s.driven t asks) {q : BusAsk} (here : q ∈ asks)
    (alone : ∀ r ∈ asks, ¬ r.overrides q) : t.isAsked q :=
  (State.isAsked_of_ebc drives.1 q).mpr (State.asksAll_isAsked here alone s)

end Sys2Proof.Machine

/-! Settles O50 and O51: HOLD and RESUME, the FIELD_STOP filter and the host silence timer's expiry. -/
namespace Sys2Proof.Machine

/-! ## The filter and the timer (R163, R164) -/

/-- Settles O51: both events request a push when they are due. -/
theorem lineAndTimerRequestPushes : Obligations.LineAndTimerRequestPushes := by
  refine ⟨fun s level => rfl, fun s raw released => ⟨_, ?_, State.requestPush_spec _ .fieldStop⟩, fun s idle => ?_, fun s => ?_,
    fun s running => ⟨_, ?_, State.requestPush_spec _ .hostLost⟩, fun s stands => ?_, fun s => ?_⟩
  · exact congrArg Host.Outcome.next (if_pos (by rw [raw, released]; rfl))
  · refine congrArg Host.Outcome.next (if_neg fun due => ?_)
    obtain ⟨raw, filtered⟩ := Bool.and_eq_true_iff.mp due
    rcases idle with low | high
    · exact Bool.noConfusion (low.symm.trans raw)
    · rw [high] at filtered; exact Bool.noConfusion filtered
  · refine congrArg Host.Outcome.next (if_congr ?_ rfl rfl)
    simp
  · refine congrArg Host.Outcome.next ((if_pos running).trans ?_)
    rw [Mch.silenceOut, Nat.mul_comm]
    rfl
  · exact congrArg Host.Outcome.next (if_neg (by rw [stands]; exact Bool.false_ne_true))
  · cases phase : s.mch.phase <;> simp [State.silenceRunning, Phase.stagedToFinale, phase]

/-! ## The stack empty event (R151, R166) -/

/-- A carriage part when the stack empties: a HALTED one runs again in the zone of its last reading. -/
def CarriagePart.restarted (p : CarriagePart) (reading : Option Reading) : CarriagePart :=
  if p.runState = .halted then
    match reading with
    | some (.carriage zone _ _ _ _) => p.runIn zone
    | _ => { p with runState := .running }
  else p

/-- A record when the stack empties. -/
def ElementRecord.restarted (r : ElementRecord) : ElementRecord :=
  match r.part with
  | .carriage p => { r with part := .carriage (p.restarted r.reading) }
  | .goal _ | .gate _ | .station _ => r

/-- The drives that a record asks for when the stack empties. -/
def restartsOf (i : Index) : Option ElementRecord → List BusAsk
  | some r => match r.part with
    | .carriage p => if p.runState = .halted then [.speed i (p.restarted r.reading).commanded] else []
    | .goal _ | .gate _ | .station _ => []
  | none => []

theorem ElementRecord.carriageReading_restarted (r : ElementRecord) {p : CarriagePart} (halted : p.runState = .halted) :
    p.restarted r.reading = match r.carriageReading with
      | some (zone, _, _) => p.runIn zone
      | none => { p with runState := .running } := by
  unfold CarriagePart.restarted ElementRecord.carriageReading
  rw [if_pos halted]
  split <;> simp_all

theorem State.restartCarriage_halted {s : State} {i : Index} {r : ElementRecord} {p : CarriagePart} (stands : s.elem i = some r)
    (part : r.part = .carriage p) (halted : p.runState = .halted) : s.restartCarriage i = s.driveCarriage i (p.restarted r.reading) := by
  have carriage : s.carriageAt i = some p := by simp [State.carriageAt, stands, part]
  rw [State.restartCarriage, stands, carriage, r.carriageReading_restarted halted]
  dsimp only
  rw [if_pos halted]
  split <;> simp_all

theorem State.restartCarriage_still {s : State} {i : Index} (still : ∀ r p, s.elem i = some r → r.part = .carriage p → p.runState ≠ .halted) :
    s.restartCarriage i = s := by
  unfold State.restartCarriage
  split
  · next r p stands carriage =>
    have part : r.part = .carriage p := by
      simp only [State.carriageAt, stands] at carriage
      split at carriage <;> simp_all
    exact if_neg (still r p stands part)
  · rfl

/-- What the restart of one index does to the records and the bus. -/
theorem State.restartCarriage_spec (s : State) (i : Index) :
    (∀ j, (s.restartCarriage i).elem j = if j = i then (s.elem i).map ElementRecord.restarted else s.elem j)
      ∧ s.driven (s.restartCarriage i) (restartsOf i (s.elem i)) := by
  have idle (still : ∀ r p, s.elem i = some r → r.part = .carriage p → p.runState ≠ .halted)
      (same : (s.elem i).map ElementRecord.restarted = s.elem i) (none_ : restartsOf i (s.elem i) = []) :
      (∀ j, (s.restartCarriage i).elem j = if j = i then (s.elem i).map ElementRecord.restarted else s.elem j)
        ∧ s.driven (s.restartCarriage i) (restartsOf i (s.elem i)) := by
    rw [State.restartCarriage_still still, same, none_]
    exact ⟨fun j => by split <;> simp_all, State.driven_of_ebc rfl rfl⟩
  cases stands : s.elem i with
  | none => exact stands ▸ idle (fun r p here => by rw [stands] at here; cases here) (by rw [stands]; rfl) (by rw [stands]; rfl)
  | some r =>
    rw [← stands]
    cases part : r.part with
    | carriage p =>
      by_cases halted : p.runState = .halted
      · rw [State.restartCarriage_halted stands part halted, stands]
        have new : (some r).map ElementRecord.restarted = some (r.setPart (.carriage (p.restarted r.reading))) := by
          simp [ElementRecord.restarted, part, ElementRecord.setPart]
        have asks : restartsOf i (some r) = [.speed i (p.restarted r.reading).commanded] := by
          simp [restartsOf, part, halted]
        rw [new, asks]
        refine ⟨fun j => ?_, ?_⟩
        · rw [State.driveCarriage, State.elem_askCarriage, State.setCarriage, State.elem_setPart_of_defined stands]
        · have first : s.driven (s.setCarriage i (p.restarted r.reading)) [] := State.driven_of_ebc (by simp) (by simp)
          exact first.trans (State.driven_askCarriage i _)
      · refine idle (fun q p' here carriage => ?_) ?_ ?_
        · obtain rfl := Option.some.inj (stands.symm.trans here)
          rw [part] at carriage
          cases carriage
          exact halted
        · have same : ({ r with part := .carriage p } : ElementRecord) = r := by rw [← part]
          simp only [stands, Option.map_some, ElementRecord.restarted, part, CarriagePart.restarted, if_neg halted, same]
        · simp [stands, restartsOf, part, halted]
    | _ =>
      refine idle (fun q p' here carriage => ?_) ?_ ?_
      · obtain rfl := Option.some.inj (stands.symm.trans here)
        rw [part] at carriage
        cases carriage
      · simp [stands, ElementRecord.restarted, part]
      · simp [stands, restartsOf, part]

theorem State.restartAsks_eq (s : State) : s.restartAsks = indices.flatMap fun i => restartsOf i (s.elem i) := by
  rw [State.restartAsks, List.filterMap_eq_flatMap_toList]
  refine List.flatMap_congr fun i _ => ?_
  cases stands : s.elem i with
  | none => rfl
  | some r =>
    cases part : r.part with
    | carriage p =>
      simp only [State.carriageAt, stands, part, restartsOf]
      by_cases halted : p.runState = .halted
      · rw [if_pos halted, if_pos halted]
        unfold CarriagePart.restarted
        rw [if_pos halted]
        cases reading : r.reading with
        | none => rfl
        | some shown => cases shown with
          | carriage zone => cases direction : p.direction <;> simp [CarriagePart.runIn, CarriagePart.zoneSpeed, direction]
          | _ => rfl
      · rw [if_neg halted, if_neg halted]
        rfl
    | _ => simp [State.carriageAt, stands, part, restartsOf]

theorem State.restarts_spec (s : State) :
    (∀ i, (s.eachIndex fun i t => t.restartCarriage i).elem i = (s.elem i).map ElementRecord.restarted)
      ∧ s.driven (s.eachIndex fun i t => t.restartCarriage i) s.restartAsks := by
  obtain ⟨_, elem, _⟩ := State.eachIndex_walk (fun _ => True) (fun i t => t.restartCarriage i) (fun _ r => r.map ElementRecord.restarted)
    (fun _ _ => []) (fun _ _ _ => trivial) (fun i t j _ => (t.restartCarriage_spec i).1 j) (fun i t _ => by simp) s trivial
  refine ⟨elem, ?_⟩
  rw [State.restartAsks_eq]
  exact State.eachIndex_driven (P := fun _ => True) (fun _ _ _ => trivial) (fun i t j _ => (t.restartCarriage_spec i).1 j)
    (fun i t _ => (t.restartCarriage_spec i).2) trivial

/-- The drive that a HALTED carriage asks for is the only one for it. -/
theorem State.restartAsks_alone {s : State} {i : Index} {r : ElementRecord} {p : CarriagePart} (stands : s.elem i = some r)
    (part : r.part = .carriage p) (halted : p.runState = .halted) :
    (.speed i (p.restarted r.reading).commanded ∈ s.restartAsks)
      ∧ ∀ q ∈ s.restartAsks, ¬ q.overrides (.speed i (p.restarted r.reading).commanded) := by
  rw [State.restartAsks_eq]
  refine ⟨List.mem_flatMap.mpr ⟨i, List.mem_finRange i, by simp [stands, restartsOf, part, halted]⟩, fun q here drives => ?_⟩
  obtain ⟨j, _, here⟩ := List.mem_flatMap.mp here
  unfold restartsOf at here
  split at here
  · next x theirs =>
    split at here
    · split at here
      · obtain rfl := List.mem_singleton.mp here
        obtain ⟨rfl, other⟩ := drives
        simp_all
      · cases here
    all_goals cases here
  · cases here

/-! ## Pushes seen past the outbound queue -/

theorem State.stopsBus_right {s t u : State} (stops : s.stopsBus t) (ebc : u.ebc = t.ebc) (elems : u.elems = t.elems) : s.stopsBus u := by
  obtain ⟨bus, stands, young, closing, full⟩ := stops
  refine ⟨?_, ?_, ebc ▸ young, fun i gone => (State.isAsked_of_ebc ebc (.closing i)).mpr (closing i gone), fun before => ?_⟩
  · rw [ebc, bus, State.busStopped, State.busStopped, elems]
  · unfold State.stopAllStands State.queued at *
    rwa [ebc]
  · have full := full before
    unfold State.marksOnlyFull State.sched at *
    rwa [ebc]

/-- What a push does depends on no outbound queue. -/
theorem State.pushes_of {s t u v : State} {cause : HoldCause} {detail : Option Byte} (pushes : u.pushes v cause detail)
    (before : s.onlyChanges u [.hlp]) (behind : v.onlyChanges t [.hlp]) : s.pushes t cause detail := by
  obtain ⟨only, mch, elem, fails, stops⟩ := pushes
  have ebc : u.ebc = s.ebc := before .ebc (by simp)
  have now : u.now = s.now := before .now (by simp)
  have elems : u.elems = s.elems := before .elems (by simp)
  have roster : u.roster = s.roster := before .roster (by simp)
  have mchs : u.mch = s.mch := before .mch (by simp)
  have ebcs : t.ebc = v.ebc := behind .ebc (by simp)
  have elems' : t.elems = v.elems := behind .elems (by simp)
  have roster' : t.roster = v.roster := behind .roster (by simp)
  have mch' : t.mch = v.mch := behind .mch (by simp)
  have acts : u.discardsAct Entry.isMotion = s.discardsAct Entry.isMotion := State.discardsAct_congr (by rw [ebc])
  refine ⟨fun b other => ?_, by rw [mch', mch, mchs], fun i => ?_, ?_, State.stopsBus_right (State.stopsBus_of stops ebc now fun i => ?_) ebcs elems'⟩
  · have first := before b
    have then_ := only b other
    have last := behind b
    cases b <;> simp_all [State.sameBlock]
  · rw [State.elem_of_elems elems', elem, State.elem_of_elems elems]
    refine congrArg (fun f => (s.elem i).map f) (funext fun r => ?_)
    refine congrArg (fun part => { r with part := part }) ?_
    unfold State.haltedPart State.queued
    rw [ebc]
  · obtain ⟨robots, rest⟩ := fails
    refine ⟨fun k => ?_, by rw [roster', rest, roster]⟩
    rw [State.robot_of_roster roster', robots, State.robot_of_roster roster, acts]
  · rw [State.elem_of_elems elems]

theorem State.onlyChanges_send (a : Answered) (kind tag : Byte) : a.state.onlyChanges (a.send kind tag) [.hlp] :=
  fun b other => by cases b <;> simp_all [State.sameBlock, Answered.send]

theorem State.onlyChanges_of {a : Answered} {u : State} {body : ReplyBody} (answered : a = taken u body) (kind tag : Byte) :
    u.onlyChanges (a.send kind tag) [.hlp] := by
  subst answered
  exact State.onlyChanges_send (taken u body) kind tag

theorem Hlp.answer_of {a : Answered} {u : State} {body : ReplyBody} (answered : a = taken u body) {h : Hlp} {notices : List Notice}
    (hlp : u.hlp = h.raiseAll notices) (kind tag : Byte) : (a.send kind tag).hlp = h.answer notices kind tag .ok body := by
  subst answered
  rw [Hlp.answer, ← hlp]
  rfl

end Sys2Proof.Machine

/-! Settles O50: HOLD and RESUME (R165, R166). -/
namespace Sys2Proof.Machine

/-- The restart of the host silence timer moves nothing but that timer. -/
theorem State.restartSilence_timer (s : State) : ∃ elapsed expired,
    s.restartSilence = s.setMch { s.mch with silenceElapsed := elapsed, silenceExpired := expired } := by
  unfold State.restartSilence
  split
  · exact ⟨_, _, rfl⟩
  · exact ⟨s.mch.silenceElapsed, s.mch.silenceExpired, rfl⟩

/-- Of two operations the second changes no more blocks than the first. -/
theorem State.onlyChanges_trans {s t u : State} {more few : List Block} (first : s.onlyChanges t more) (then_ : t.onlyChanges u few)
    (within : few ⊆ more) : s.onlyChanges u more := by
  intro b other
  have before := first b other
  have behind := then_ b fun here => other (within here)
  cases b <;> exact behind.trans before

theorem State.restartSilence_hlp (s : State) : s.restartSilence.hlp = s.hlp := s.restartSilence_frame.1

theorem State.pushNotices_restartSilence (s : State) (cause : HoldCause) (detail : Option Byte) :
    s.restartSilence.pushNotices cause detail = s.pushNotices cause detail := by
  obtain ⟨_, _, restarted⟩ := s.restartSilence_timer
  rw [restarted]
  rfl

theorem Mch.nextHold_restartSilence (s : State) : s.restartSilence.mch.nextHold = s.mch.nextHold := by
  obtain ⟨_, _, restarted⟩ := s.restartSilence_timer
  rw [restarted]
  rfl

/-- The HOLD part of O50: a full stack takes no hold. -/
theorem State.hold_pushes {s : State} (accepted : s.accepts = true) (tag holdTag : Byte) :
    ∃ t, exec (.hold tag holdTag) s = .next t
      ∧ if 6 ≤ s.mch.stack.length then s.refuses t 0x0D tag .holdFull
        else s.restartSilence.pushes t .hostHold (some holdTag)
          ∧ t.hlp = s.hlp.answer (s.pushNotices .hostHold (some holdTag)) 0x0D tag .ok (.holdNumber s.mch.nextHold) := by
  refine ⟨_, congrArg Host.Outcome.next (State.goodFrame_eq accepted 0x0D tag (holdOwner holdTag)), ?_⟩
  have full : s.restartSilence.mch.stackFull = decide (6 ≤ s.mch.stack.length) := by
    rw [Mch.stackFull, s.restartSilence_stack]; rfl
  split
  · next many => exact State.refuses_of (by rw [holdOwner, full, if_pos (decide_eq_true many)]) _ _
  · next few =>
    have answered : holdOwner holdTag s.restartSilence
        = taken (s.restartSilence.pushHold .hostHold (some holdTag)) (.holdNumber s.mch.nextHold) := by
      rw [holdOwner, full, if_neg (by simpa using few), Mch.nextHold_restartSilence]
    obtain ⟨pushes, hlp⟩ := s.restartSilence.pushHold_spec .hostHold (some holdTag)
    refine ⟨State.pushes_of pushes (fun b _ => by cases b <;> rfl) (State.onlyChanges_of answered _ _), Hlp.answer_of answered ?_ _ _⟩
    · rw [hlp, State.pushNotices_restartSilence, State.restartSilence_hlp]

/-! ## RESUME (R166) -/

/-- The state of a RESUME before it pushes or restarts anything: the top record is gone. -/
def State.withoutTop (s : State) (rest : List Hold) : State := { s with mch := { s.mch with stack := rest } }

/-- The notice of the record that a RESUME pops. -/
def State.popNotice (s : State) (top : Hold) (rest : List Hold) : Notice :=
  .hold s.mch.matchTime s.mch.phase (.popped top.number top.cause top.detail rest.length)

theorem State.popHold_eq (s : State) (top : Hold) (rest : List Hold) :
    s.popHold top rest = { s.withoutTop rest with hlp := s.hlp.raise (s.popNotice top rest) } := rfl

theorem State.onlyChanges_popHold (s : State) (top : Hold) (rest : List Hold) : s.onlyChanges (s.popHold top rest) [.hlp, .mch] :=
  fun b other => by cases b <;> simp_all [State.sameBlock]

theorem State.popNotice_restartSilence (s : State) (top : Hold) (rest : List Hold) :
    s.restartSilence.popNotice top rest = s.popNotice top rest := by
  obtain ⟨_, _, restarted⟩ := s.restartSilence_timer
  rw [restarted]
  rfl

/-- A RESUME that pushes a hold that waited. -/
theorem State.resume_pushes {s : State} {top : Hold} {rest : List Hold} {q : PushRequest} (waits : s.mch.pendingSet.first = some q) (kind tag : Byte) :
    let v : State := (s.withoutTop rest).setMch { (s.withoutTop rest).mch with pendingSet := s.mch.pendingSet.remove q }
    let t := (s.popHold top rest).pushPending.stackEmptied
    let a := taken t (.resumed t.mch.stack.length (s.popHold top rest).pushedNumber)
    v.pushes (a.send kind tag) q.cause q.detail
      ∧ (a.send kind tag).hlp = s.hlp.answer (s.popNotice top rest :: v.pushNotices q.cause q.detail) kind tag .ok
          (.resumed (rest.length + 1) (some v.mch.nextHold)) := by
  intro v t a
  obtain ⟨w, waiting⟩ : ∃ w : State, w = { v with hlp := s.hlp.raise (s.popNotice top rest) } := ⟨_, rfl⟩
  have pushed : (s.popHold top rest).pushPending = w.pushHold q.cause q.detail := by
    have first : (s.popHold top rest).mch.pendingSet.first = some q := waits
    rw [State.pushPending, first, waiting]
    rfl
  have stack : (w.pushHold q.cause q.detail).mch.stack = w.mch.newHold q.cause q.detail :: rest := by
    rw [State.pushHold_mch, waiting]; rfl
  have same : t = w.pushHold q.cause q.detail := by
    show (s.popHold top rest).pushPending.stackEmptied = _
    rw [pushed, State.stackEmptied, if_pos (by rw [State.held, stack]; rfl)]
  have number : (s.popHold top rest).pushedNumber = some v.mch.nextHold := by
    have first : (s.popHold top rest).mch.pendingSet.first = some q := waits
    rw [State.pushedNumber, first]
    rfl
  have answered : a = taken (w.pushHold q.cause q.detail) (.resumed (rest.length + 1) (some v.mch.nextHold)) := by
    show taken t (.resumed t.mch.stack.length (s.popHold top rest).pushedNumber) = _
    rw [number, same, stack]
    rfl
  obtain ⟨pushes, hlp⟩ := w.pushHold_spec q.cause q.detail
  refine ⟨State.pushes_of pushes ?_ (State.onlyChanges_of answered _ _), Hlp.answer_of answered ?_ _ _⟩
  · rw [waiting]
    exact fun b other => by cases b <;> simp_all [State.sameBlock]
  · rw [hlp, waiting]
    rfl

/-- A RESUME without a hold to push. -/
theorem State.resume_pops {s : State} {top : Hold} {rest : List Hold} (kind tag : Byte) (nothing : s.mch.pendingSet.first = none) :
    let t := (s.popHold top rest).pushPending.stackEmptied
    let a := taken t (.resumed t.mch.stack.length (s.popHold top rest).pushedNumber)
    (a.send kind tag).mch = (s.withoutTop rest).mch
      ∧ (a.send kind tag).hlp = s.hlp.answer [s.popNotice top rest] kind tag .ok (.resumed rest.length none)
      ∧ (rest ≠ [] → s.onlyChanges (a.send kind tag) [.hlp, .mch]) := by
  intro t a
  have first : (s.popHold top rest).mch.pendingSet.first = none := nothing
  have same : t = (s.popHold top rest).stackEmptied := by
    show (s.popHold top rest).pushPending.stackEmptied = _
    rw [State.pushPending, first]
  have mch : t.mch = (s.withoutTop rest).mch := by rw [same, State.stackEmptied_mch]; rfl
  have hlp : t.hlp = s.hlp.raiseAll [s.popNotice top rest] := by rw [same, (State.stackEmptied_frame _).1]; rfl
  have answered : a = taken t (.resumed rest.length none) := by
    show taken t (.resumed t.mch.stack.length (s.popHold top rest).pushedNumber) = _
    rw [mch, State.pushedNumber, first]
    rfl
  refine ⟨mch, Hlp.answer_of answered hlp _ _, fun some_ b other => ?_⟩
  have kept : t = s.popHold top rest := by
    rw [same, State.stackEmptied, if_pos]
    cases rest with
    | nil => exact absurd rfl some_
    | cons => rfl
  exact State.onlyChanges_trans (s.onlyChanges_popHold top rest) (kept ▸ State.onlyChanges_of answered kind tag) (by simp) b other

theorem State.restartAsks_congr {s t : State} (elem : t.elem = s.elem) : t.restartAsks = s.restartAsks := by
  rw [State.restartAsks_eq, State.restartAsks_eq, elem]

/-- The stack empties without a hold to push: every HALTED carriage runs again. -/
theorem State.resume_restarts {s : State} {top : Hold} (kind tag : Byte) (nothing : s.mch.pendingSet.first = none) :
    let t := (s.popHold top []).pushPending.stackEmptied
    let a := taken t (.resumed t.mch.stack.length (s.popHold top []).pushedNumber)
    s.onlyChanges (a.send kind tag) [.hlp, .elems, .ebc, .mch] ∧ s.driven (a.send kind tag) s.restartAsks
      ∧ ∀ i, (a.send kind tag).elem i = (s.elem i).map ElementRecord.restarted := by
  intro t a
  have still : (s.popHold top []).pushPending = s.popHold top [] := by
    have first : (s.popHold top []).mch.pendingSet.first = none := nothing
    rw [State.pushPending, first]
  have same : t = (s.popHold top []).eachIndex fun i t => t.restartCarriage i := by
    show (s.popHold top []).pushPending.stackEmptied = _
    rw [still]
    exact if_neg Bool.false_ne_true
  obtain ⟨elem, drives⟩ := (s.popHold top []).restarts_spec
  rw [← same] at elem drives
  have kept := (s.popHold top []).pushPending.stackEmptied_frame
  obtain ⟨_, rcc, roster, mch, tu, now, waits⟩ := kept
  have only : s.onlyChanges t [.hlp, .elems, .ebc, .mch] := fun b other => by
    rw [same]
    cases b <;> simp_all [State.sameBlock]
  refine ⟨fun b other => ?_, ?_, fun i => ?_⟩
  · have first := only b other
    have then_ := State.onlyChanges_send a kind tag b
    have mid : a.state = t := rfl
    cases b <;> simp_all [State.sameBlock]
  · have first : s.driven (s.popHold top []) [] := State.driven_of_ebc (by simp) (by simp)
    have asks : (s.popHold top []).restartAsks = s.restartAsks := State.restartAsks_congr (State.elem_of_elems (by simp))
    rw [asks] at drives
    exact (first.trans drives).still rfl rfl
  · rw [Answered.send_elem]
    show t.elem i = _
    rw [elem, State.elem_of_elems (State.popHold_frame s top []).2.2.1]

/-- A RESUME that passes its checks pops the top record, pushes a hold that waited and, when the stack is empty, restarts the
carriages. -/
theorem resumeOwner_taken {s : State} {top : Hold} {rest : List Hold} (stack : s.mch.stack = top :: rest) (nonzero : top.number ≠ 0)
    (released : ¬ (top.cause = .fieldStop ∧ s.mch.filtered = true)) :
    resumeOwner top.number s = taken (s.popHold top rest).pushPending.stackEmptied
      (.resumed (s.popHold top rest).pushPending.stackEmptied.mch.stack.length (s.popHold top rest).pushedNumber) := by
  rw [resumeOwner, if_neg nonzero]
  simp only [stack, ne_eq, not_true_eq_false, if_false, if_neg released]

theorem PendingSet.first_eq (p : PendingSet) : p.first =
    if p.fieldStop = true then some .fieldStop else if p.hostLost = true then some .hostLost else p.elementFault.map .elementFault := rfl

theorem State.driven_restartSilence {s t : State} {asks : List BusAsk} (drives : s.restartSilence.driven t asks) : s.driven t asks :=
  (State.driven_of_ebc (by simp) (by simp)).trans drives

/-- What the restart of the carriages leaves at an index. -/
theorem State.restarted_asked {s t : State} {i : Index} (drives : s.driven t s.restartAsks)
    (record : t.elem i = (s.elem i).map ElementRecord.restarted) :
    match s.carriageAt i, s.elem i with
    | some p, some r =>
      if p.runState = .halted then ∃ q, t.elem i = some { r with part := .carriage q } ∧ t.speedAsked i q.commanded
        ∧ match r.reading with
          | some (.carriage zone _ _ _ _) => q = { p with runState := .running, speedZone := some zone
                                                          commanded := match p.direction with
              | .forward => (p.zoneSpeeds[zone.val] : Int)
              | .reverse => -(p.zoneSpeeds[zone.val] : Int) }
          | _ => q = { p with runState := .running }
      else t.elem i = s.elem i
    | _, _ => t.elem i = s.elem i := by
  cases stands : s.elem i with
  | none => simp [State.carriageAt, stands, record]
  | some r =>
    rw [stands, Option.map_some] at record
    cases part : r.part with
    | carriage p =>
      simp only [State.carriageAt, stands, part]
      by_cases halted : p.runState = .halted
      · rw [if_pos halted]
        obtain ⟨asked, alone⟩ := State.restartAsks_alone stands part halted
        refine ⟨p.restarted r.reading, by simp [record, ElementRecord.restarted, part], drives.isAsked asked alone, ?_⟩
        unfold CarriagePart.restarted
        rw [if_pos halted]
        cases r.reading with
        | none => rfl
        | some shown => cases shown <;> rfl
      · rw [if_neg halted, record]
        have same : ({ r with part := .carriage p } : ElementRecord) = r := by rw [← part]
        simp [ElementRecord.restarted, part, CarriagePart.restarted, halted, same]
    | _ => simp [State.carriageAt, stands, part, record, ElementRecord.restarted]

/-- Settles O50: HOLD pushes when there is room; RESUME pops, and pushes a hold that waits or restarts the carriages. -/
theorem holdPushesAndResumePops : Obligations.HoldPushesAndResumePops := by
  refine ⟨fun m few => ⟨m.nextHold_ne_zero, Mch.nextHold_free few, fun free => ?_⟩, fun s tag holdTag accepted => State.hold_pushes accepted tag holdTag,
    fun s tag number accepted => ⟨_, congrArg Host.Outcome.next (State.goodFrame_eq accepted 0x0E tag (resumeOwner number)), ?_⟩⟩
  · rw [Mch.nextHold, freeNumber, if_neg]
    intro taken_
    obtain ⟨h, here, same⟩ := List.any_eq_true.mp taken_
    exact free (List.mem_map.mpr ⟨h, here, eq_of_beq same⟩)
  have stack := s.restartSilence_stack
  have notices := s.popNotice_restartSilence
  have hlps := s.restartSilence_hlp
  obtain ⟨pendings, filters⟩ : s.restartSilence.mch.pendingSet = s.mch.pendingSet ∧ s.restartSilence.mch.filtered = s.mch.filtered := by
    obtain ⟨_, _, restarted⟩ := s.restartSilence_timer
    rw [restarted]
    exact ⟨rfl, rfl⟩
  split
  · next zero => exact State.refuses_of (by rw [resumeOwner, if_pos zero]) _ _
  · next nonzero =>
    split
    · next none_ => exact State.refuses_of (by rw [resumeOwner, if_neg nonzero]; simp only [stack, none_]) _ _
    · next top rest full =>
      rw [full] at stack
      split
      · next other => exact State.refuses_of (by rw [resumeOwner, if_neg nonzero]; simp only [stack, if_pos other]) _ _
      · next mine =>
        obtain rfl : top.number = number := not_not.mp mine
        split
        · next high =>
          refine State.refuses_of ?_ _ _
          rw [resumeOwner, if_neg nonzero]
          simp only [stack, if_neg mine, filters, if_pos high]
        · next released =>
          rw [resumeOwner_taken stack nonzero (by rw [filters]; exact released)]
          have pushed {q : PushRequest} (waits : s.mch.pendingSet.first = some q) :=
            State.resume_pushes (s := s.restartSilence) (top := top) (rest := rest) (q := q) (by rw [pendings, waits]) 0x0E tag
          rw [pendings, notices, hlps] at pushed
          intro popped u pushes pending
          split
          · next stop => exact pushed (q := .fieldStop) (by rw [PendingSet.first_eq, if_pos stop])
          · next noStop =>
            split
            · next lost => exact pushed (q := .hostLost) (by rw [PendingSet.first_eq, if_neg noStop, if_pos lost])
            · next noLost =>
              split
              · next i fault => exact pushed (q := .elementFault i) (by rw [PendingSet.first_eq, if_neg noStop, if_neg noLost, fault]; rfl)
              · next noFault =>
                have nothing : s.restartSilence.mch.pendingSet.first = none := by
                  rw [pendings, PendingSet.first_eq, if_neg noStop, if_neg noLost, noFault]; rfl
                obtain ⟨mch, hlp, still⟩ := State.resume_pops (s := s.restartSilence) (top := top) (rest := rest) 0x0E tag nothing
                rw [notices, hlps] at hlp
                refine ⟨mch, hlp, still, ?_⟩
                rintro rfl
                obtain ⟨only, drives, record⟩ := State.resume_restarts (s := s.restartSilence) (top := top) 0x0E tag nothing
                have drives := State.driven_restartSilence drives
                have asks : s.restartSilence.restartAsks = s.restartAsks := State.restartAsks_congr (funext s.restartSilence_elem)
                rw [asks] at drives
                refine ⟨only, drives.1, fun i => ?_⟩
                have record := record i
                rw [s.restartSilence_elem] at record
                exact State.restarted_asked drives record

end Sys2Proof.Machine

/-! Settles O12 and O53: SET-TIMING (R154) and ADJUST (R173). -/
namespace Sys2Proof.Machine

/-! ## SET-TIMING -/

theorem byteIn_iff (least most : Nat) (field : Option Byte) :
    byteIn least most field = true ↔ ∀ b, field = some b → least ≤ b.toNat ∧ b.toNat ≤ most := by
  cases field <;> simp [byteIn]

theorem halfIn_iff (least most : Nat) (field : Option Half) :
    halfIn least most field = true ↔ ∀ w, field = some w → least ≤ w.toNat ∧ w.toNat ≤ most := by
  cases field <;> simp [halfIn]

theorem byteOr_eq (stored : Nat) (field : Option Byte) : byteOr stored field = (field.map BitVec.toNat).getD stored := by
  cases field <;> rfl

theorem halfOr_eq (stored : Nat) (field : Option Half) : halfOr stored field = (field.map BitVec.toNat).getD stored := by
  cases field <;> rfl

/-- The range check of SET-TIMING, field by field. -/
theorem timingInRange_iff (f : TimingFields) (r : Roster) : timingInRange f r = true ↔
    (∀ b, f.interval = some b → 35 ≤ b.toNat ∧ b.toNat ≤ 100)
      ∧ (∀ b, f.silenceLimit = some b → 3 ≤ b.toNat ∧ b.toNat ≤ 20) ∧ (∀ b, f.dropLimit = some b → 10 ≤ b.toNat ∧ b.toNat ≤ 250)
      ∧ (∀ w, f.openingTenths = some w → w.toNat ≤ 600) ∧ (∀ w, f.transitionTenths = some w → w.toNat ≤ 150)
      ∧ (∀ w, f.playTenths = some w → 100 ≤ w.toNat ∧ w.toNat ≤ 3000) ∧ (∀ w, f.finaleTenths = some w → w.toNat ≤ 600)
      ∧ (∀ b, f.hostSilence = some b → b.toNat ≤ 30)
      ∧ (f.silenceLimit.map BitVec.toNat).getD r.silenceLimit < (f.dropLimit.map BitVec.toNat).getD r.dropLimit := by
  simp only [timingInRange, Bool.and_eq_true, byteIn_iff, halfIn_iff, decide_eq_true_eq, Nat.zero_le, true_and, byteOr_eq, and_assoc]

/-- Settles O12: the phase, then the ranges, then every present field at once. -/
theorem setTimingSetsPresentFields : Obligations.SetTimingSetsPresentFields := by
  intro s tag f accepted byte word silence drop sound
  have phase := s.restartSilence_phase
  have ranges : timingInRange f s.restartSilence.roster = true ↔ sound := by
    rw [s.restartSilence_frame.2.2.1]
    exact timingInRange_iff f s.roster
  refine ⟨_, congrArg Host.Outcome.next (State.goodFrame_eq accepted 0x03 tag (setTimingOwner f)), fun other => ?_, fun setup bad => ?_,
    fun setup good => ?_⟩
  · exact State.refuses_of (by rw [setTimingOwner, phase, if_pos other]) _ _
  · refine State.refuses_of ?_ _ _
    rw [setTimingOwner, phase, if_neg (not_not.mpr setup), if_neg fun range => bad (ranges.mp range)]
  · have answered : setTimingOwner f s.restartSilence
        = taken (s.restartSilence.setTimes f) (.timing (s.restartSilence.setTimes f).timingView) := by
      rw [setTimingOwner, phase, if_neg (not_not.mpr setup), if_pos (ranges.mpr good)]
    rw [State.restartSilence_setup s setup] at *
    have roster : (s.setTimes f).roster = { s.roster with silenceLimit := silence, dropLimit := drop } := by
      simp [State.setTimes, byteOr_eq, silence, drop, byte]
    have mch : (s.setTimes f).mch = { s.mch with
        durations := { opening := word s.mch.durations.opening f.openingTenths
                       transition := word s.mch.durations.transition f.transitionTenths
                       play := word s.mch.durations.play f.playTenths
                       finale := word s.mch.durations.finale f.finaleTenths }
        hostLimit := byte s.mch.hostLimit f.hostSilence } := by
      simp [State.setTimes, byteOr_eq, halfOr_eq, Durations.update, word, byte]
    rw [answered]
    refine ⟨rfl, roster, mch, State.answers_of (u := s.setTimes f) (changed := [.rcc, .roster, .mch]) (notices := []) ?_ _ _
      (fun b other => ?_) rfl⟩
    · rw [State.timingView, roster]
      rfl
    · rw [State.restartSilence_setup s setup]
      cases b <;> simp_all [State.sameBlock, State.setTimes]

/-! ## ADJUST -/

theorem Phase.adjustable_iff (p : Phase) : p.adjustable = true ↔ p ≠ .setup ∧ p ≠ .staged := by
  cases p <;> simp [Phase.adjustable]

/-- The sum in a cell, with its mark set where a bound cut it. -/
theorem Cell.add_eq (c : Cell) (points : Int) : c.add points =
    { value := max (-32767) (min 32767 (c.value + points))
      saturated := c.saturated || decide (c.value + points < -32767) || decide (32767 < c.value + points) } := by
  have cut (z : Int) : (clampCell z != z) = (decide (z < -32767) || decide (32767 < z)) := by
    rw [clampCell, Bool.eq_iff_iff]
    simp only [bne_iff_ne, ne_eq, Bool.or_eq_true, decide_eq_true_eq]
    omega
  rw [Cell.add, cut, Bool.or_assoc]
  rfl

/-- The totals with one of them changed, as the owner of a row says. -/
theorem Totals.changed_eq (t : Totals) (owner : Option Alliance) (change : Int) :
    (match owner with
      | some alliance => t.add alliance change
      | none => t)
    = { a := t.a + if owner = some .a then change else 0
        b := t.b + if owner = some .b then change else 0
        c := t.c + if owner = some .c then change else 0
        d := t.d + if owner = some .d then change else 0 } := by
  cases owner with
  | none => simp
  | some alliance => cases alliance <;> simp [Totals.add]

theorem State.rowAlliance_eq (s : State) (ρ : Fin 28) : s.rowAlliance ρ = if h : ρ.val < 24 then
      if (s.robot ⟨ρ.val, h⟩).state = .vacant then none else (s.robot ⟨ρ.val, h⟩).alliance
    else some (if ρ = 24 then .a else if ρ = 25 then .b else if ρ = 26 then .c else .d) := by
  unfold State.rowAlliance
  split
  · rfl
  · next late =>
    obtain ⟨r, below⟩ := ρ
    have rows : r = 24 ∨ r = 25 ∨ r = 26 ∨ r = 27 := by
      have : ¬ r < 24 := late
      omega
    rcases rows with rfl | rfl | rfl | rfl <;> rfl

/-- Of the tally unit, points added to a cell change the cells and the total of the row's alliance. -/
theorem State.addPoints_tu (s : State) (row : Fin 28) (column : Index) (points : Int) :
    let change := ((s.tu.cell row column).add points).value - (s.tu.cell row column).value
    (s.addPoints row column points).tu = { s.tu with
      cells := (s.addPoints row column points).tu.cells
      totals := { a := s.tu.totals.a + if s.rowAlliance row = some .a then change else 0
                  b := s.tu.totals.b + if s.rowAlliance row = some .b then change else 0
                  c := s.tu.totals.c + if s.rowAlliance row = some .c then change else 0
                  d := s.tu.totals.d + if s.rowAlliance row = some .d then change else 0 } } := by
  intro change
  rw [← Totals.changed_eq]
  rfl

/-- Settles O53: the coding, the phase, the ranges, and then the sum in the cell. -/
theorem adjustChangesACell : Obligations.AdjustChangesACell := by
  intro s tag row column points accepted
  refine ⟨_, congrArg Host.Outcome.next (State.goodFrame_eq accepted 0x1B tag (adjustOwner row column points)), fun absent => ?_,
    fun present early => ?_, fun setup staged bad => ?_, fun ρ i present some_ setup staged names columns => ?_⟩
  · exact State.refuses_of (by rw [adjustOwner, pointsOf, if_pos absent]) _ _
  · have refused : s.restartSilence.mch.phase.adjustable = false := by
      rw [s.restartSilence_phase]
      rcases early with here | here <;> rw [here] <;> rfl
    refine State.refuses_of ?_ _ _
    rw [adjustOwner, pointsOf, if_neg present]
    exact if_neg (by rw [refused]; exact Bool.false_ne_true)
  · refine State.refuses_of ?_ _ _
    by_cases absent : points = 0x8000#16
    · rw [adjustOwner, pointsOf, if_pos absent]
    · have open_ : s.restartSilence.mch.phase.adjustable = true := by
        rw [s.restartSilence_phase, Phase.adjustable_iff]
        exact ⟨setup, staged⟩
      simp only [adjustOwner, pointsOf, if_neg absent, if_pos open_]
      split
      · next below =>
        split
        · next c names =>
          have zero : points = 0 := by
            refine (bad.resolve_left (by omega)).resolve_left fun above => ?_
            rw [indexOf_above above] at names
            cases names
          rw [if_pos (by rw [zero]; rfl)]
        · rfl
      · rfl
  · have open_ : s.restartSilence.mch.phase.adjustable = true := by
      rw [s.restartSilence_phase, Phase.adjustable_iff]
      exact ⟨setup, staged⟩
    have nonzero : points.toInt ≠ 0 := fun zero => some_ (BitVec.eq_of_toInt_eq zero)
    obtain ⟨r, below⟩ := ρ
    obtain rfl : row.toNat = r := names
    have tu : s.restartSilence.tu = s.tu := by simp
    have robots : s.restartSilence.robot = s.robot := funext s.restartSilence_robot
    intro old sum new change owner
    have cell : (s.tu.cell ⟨row.toNat, below⟩ i).add points.toInt = new := Cell.add_eq _ _
    obtain ⟨t, added⟩ : ∃ t, t = s.restartSilence.addPoints ⟨row.toNat, below⟩ i points.toInt := ⟨_, rfl⟩
    have cells (row' : Fin 28) (column' : Index) : t.tu.cell row' column' =
        if row' = ⟨row.toNat, below⟩ ∧ column' = i then new else s.tu.cell row' column' := by
      rw [added, State.cell_addPoints, tu, cell]
    have same : t.tu.cell ⟨row.toNat, below⟩ i = new := by rw [cells, if_pos ⟨rfl, rfl⟩]
    have answered : adjustOwner row column points s.restartSilence = taken t (.adjusted new change) := by
      simp only [adjustOwner, pointsOf, if_neg present, if_pos open_, dif_pos below, indexOf_val columns, if_neg nonzero]
      rw [← added, same, tu]
    rw [answered]
    refine ⟨same, fun row' column' other => by rw [Answered.send, State.queueReply]; exact (cells row' column').trans (if_neg other), ?_,
      State.answers_of (changed := [.tu]) (notices := []) rfl _ _ (fun b other => ?_) ?_⟩
    · have rows : s.restartSilence.rowAlliance ⟨row.toNat, below⟩ = owner := by
        rw [State.rowAlliance_eq, robots]
      have totals := s.restartSilence.addPoints_tu ⟨row.toNat, below⟩ i points.toInt
      rw [← added, tu, cell, rows] at totals
      exact totals
    · rw [added]
      cases b <;> simp_all [State.sameBlock]
    · rw [added]
      simp

end Sys2Proof.Machine

/-! Settles O9 and O54: sends of the tally sheet, SHEET and SHEET-STOP, and the outbound queue's head as it is sent. -/
namespace Sys2Proof.Machine

/-! ## Sheet records enter (R175, R176, R185, R186) -/

/-- A notice that no class bit stops enters while few notices wait. -/
theorem Hlp.raise_room {h : Hlp} {n : Notice} (always : n.classBit = none) (room : h.out.length ≤ 18) :
    h.raise n = { h with out := h.out ++ [.notice h.lost n], lost := false } := by
  have passes : n.passes h.mask = true := by rw [Notice.passes, always]
  have few : ¬ 22 ≤ h.notices := by
    have := List.countP_le_length (p := fun f : OutFrame => !f.isReply) (l := h.out)
    rw [Hlp.notices]
    omega
  rw [h.raise_eq, if_pos passes, if_neg few]

/-- The frame of part `j` behind the parts that were sent, with the lost mark on the first. -/
def State.partFrame (s : State) (m : Image) (d : Send) (j : Nat) : OutFrame :=
  .notice (s.hlp.lost && j == 0) (m.part d.order (d.parts + j))

/-- A state after `k` more parts of its send have entered the outbound queue. -/
def State.partsIn (s : State) (m : Image) (d : Send) (k : Nat) : State :=
  { s with hlp := { s.hlp with out := s.hlp.out ++ (List.range k).map (s.partFrame m d), lost := s.hlp.lost && k == 0 }
           tu := { s.tu with sending := some { d with parts := d.parts + k } } }

section
variable {s : State} {m : Image} {d : Send}

theorem State.pumpOne_idle (none_ : s.tu.sending = none ∨ s.tu.image = none ∨ 18 < s.hlp.out.length) : s.pumpOne = s := by
  unfold State.pumpOne
  split
  · next d m sending image =>
    rcases none_ with idle | blank | full
    · rw [sending] at idle; cases idle
    · rw [image] at blank; cases blank
    · rw [if_neg]
      have : ¬ s.hlp.out.length + 6 ≤ 24 := by omega
      simpa [Hlp.sheetRoom, Config.sheetRoom, Config.outPlaces] using this
  · rfl

theorem State.pumpUpTo_idle (none_ : s.tu.sending = none ∨ s.tu.image = none ∨ 18 < s.hlp.out.length) (n : Nat) : State.pumpUpTo n s = s := by
  induction n with
  | zero => rfl
  | succ n ih => rw [State.pumpUpTo, State.pumpOne_idle none_, ih]

theorem State.sheetRoom_of (room : s.hlp.out.length ≤ 18) : s.hlp.sheetRoom = true := by
  have : s.hlp.out.length + 6 ≤ 24 := by omega
  simpa [Hlp.sheetRoom, Config.sheetRoom, Config.outPlaces] using this

theorem State.pumpOne_part (sending : s.tu.sending = some d) (image : s.tu.image = some m) (room : s.hlp.out.length ≤ 18)
    (short : d.parts < 84) : s.pumpOne = s.partsIn m d 1 := by
  have enters := Hlp.raise_room (h := s.hlp) (n := m.part d.order d.parts) rfl room
  rw [State.pumpOne, sending, image]
  dsimp only
  rw [if_pos (State.sheetRoom_of room), if_pos (show d.parts < Config.sheetParts from short), State.raise, enters]
  simp [State.partsIn, State.partFrame, State.setTu, State.setHlp]

theorem State.partsIn_partsIn (k : Nat) : (s.partsIn m d k).partsIn m { d with parts := d.parts + k } 1 = s.partsIn m d (k + 1) := by
  simp [State.partsIn, State.partFrame, List.range_succ, Nat.add_assoc]

/-- `k` parts in a row enter, while there is room for each. -/
theorem State.pumpUpTo_parts (sending : s.tu.sending = some d) (image : s.tu.image = some m) : ∀ (k n : Nat),
    s.hlp.out.length + k ≤ 19 → d.parts + k ≤ 84 → State.pumpUpTo (k + n) s = State.pumpUpTo n (s.partsIn m d k) := by
  intro k
  induction k with
  | zero =>
    intro n _ _
    have same : s.partsIn m d 0 = s := by simp [State.partsIn, ← sending]
    rw [Nat.zero_add, same]
  | succ k ih =>
    intro n room few
    rw [Nat.add_right_comm, Nat.add_assoc, ih (n + 1) (by omega) (by omega), State.pumpUpTo]
    rw [State.pumpOne_part (s := s.partsIn m d k) (d := { d with parts := d.parts + k }) (m := m) rfl image, State.partsIn_partsIn]
    · simp [State.partsIn]; omega
    · exact Nat.lt_of_lt_of_le (Nat.lt_succ_self _) few

/-- A send that has more parts to go than there is room for. -/
theorem State.pump_parts (sending : s.tu.sending = some d) (image : s.tu.image = some m) (room : s.hlp.out.length ≤ 18)
    (few : d.parts + (19 - s.hlp.out.length) ≤ 84) : s.pump = s.partsIn m d (19 - s.hlp.out.length) := by
  have split : 24 = (19 - s.hlp.out.length) + (24 - (19 - s.hlp.out.length)) := by omega
  show State.pumpUpTo 24 s = _
  rw [split, State.pumpUpTo_parts sending image _ _ (by omega) few]
  refine State.pumpUpTo_idle (.inr (.inr ?_)) _
  simp [State.partsIn]
  omega

/-- A send whose last parts and SHEET_DONE fit. -/
theorem State.pump_done (sending : s.tu.sending = some d) (image : s.tu.image = some m) (least : d.parts ≤ 84)
    (room : s.hlp.out.length ≤ 18) (all : 84 < d.parts + (19 - s.hlp.out.length)) :
    s.pump = ((s.partsIn m d (84 - d.parts)).endSend false).finalCheck := by
  have split : 24 = (84 - d.parts) + (24 - (84 - d.parts) - 1 + 1) := by omega
  have short : (s.partsIn m d (84 - d.parts)).hlp.out.length ≤ 18 := by
    simp [State.partsIn]
    omega
  show State.pumpUpTo 24 s = _
  rw [split, State.pumpUpTo_parts sending image _ _ (by omega) (by omega), State.pumpUpTo]
  have last : (s.partsIn m d (84 - d.parts)).pumpOne = ((s.partsIn m d (84 - d.parts)).endSend false).finalCheck := by
    have now : (s.partsIn m d (84 - d.parts)).tu.sending = some { d with parts := d.parts + (84 - d.parts) } := rfl
    have stands : (s.partsIn m d (84 - d.parts)).tu.image = some m := image
    have gone : ¬ d.parts + (84 - d.parts) < 84 := by omega
    rw [State.pumpOne, now, stands]
    dsimp only
    rw [if_pos (State.sheetRoom_of short), if_neg (show ¬ d.parts + (84 - d.parts) < Config.sheetParts from gone)]
  rw [last]
  refine State.pumpUpTo_idle (.inl ?_) _
  have idle : ((s.partsIn m d (84 - d.parts)).endSend false).tu.sending = none := by
    have stands : (s.partsIn m d (84 - d.parts)).tu.image = some m := image
    rw [State.endSend, stands]
    rfl
  unfold State.finalCheck
  split <;> exact idle

end

/-! ## The end of a send (R176 to R178) -/

/-- The tally unit after the check for the final snapshot. -/
def State.finalTu (s : State) : Tu :=
  match s.tu.finalWait with
  | some wait => s.finalTaken wait
  | none => s.tu

/-- The notices of the check for the final snapshot. -/
def State.finalDone (s : State) : List Notice :=
  match s.tu.finalWait with
  | some wait => s.finalNotices wait
  | none => []

theorem State.finalCheck_spec (s : State) : s.finalCheck.tu = s.finalTu ∧ s.finalCheck.hlp = s.hlp.raiseAll s.finalDone := by
  cases wait : s.tu.finalWait with
  | none =>
    have same : s.finalCheck = s := if_neg (by rw [wait]; nofun)
    rw [same, State.finalTu, State.finalDone, wait]
    exact ⟨rfl, rfl⟩
  | some l =>
    have set : s.finalCheck = s.awaitFinal l := by
      rw [State.awaitFinal]
      have : ({ s.tu with finalWait := some l } : Tu) = s.tu := by rw [← wait]
      rw [this]
      rfl
    rw [set, State.finalTu, State.finalDone, wait]
    exact s.awaitFinal_spec l

/-- The check depends on the tally unit, the match time and the phase alone. -/
theorem State.finalTu_congr {s t : State} (tu : t.tu = s.tu) (phase : t.mch.phase = s.mch.phase)
    (time : t.mch.matchTime = s.mch.matchTime) : t.finalTu = s.finalTu ∧ t.finalDone = s.finalDone := by
  unfold State.finalTu State.finalDone State.finalTaken State.finalNotices State.imageNow
  rw [tu, phase, time]
  exact ⟨rfl, rfl⟩

theorem State.endSend_spec {s : State} {m : Image} {d : Send} (sending : s.tu.sending = some d) (image : s.tu.image = some m)
    (stopped : Bool) : s.endSend stopped = { s with hlp := s.hlp.raise (m.done d stopped), tu := { s.tu with sending := none } } := by
  rw [State.endSend, sending, image]
  rfl

end Sys2Proof.Machine

/-! Settles O9 and O54: the outbound queue's head as it is sent, SHEET and SHEET-STOP. -/
namespace Sys2Proof.Machine

/-! ## The head frame is sent (R185) -/

/-- Of the host link port only the outbound queue and the lost mark have moved. -/
def Hlp.queuedOnly (h h' : Hlp) : Prop := h' = { h with out := h'.out, lost := h'.lost }

theorem Hlp.queuedOnly_raise (h : Hlp) (n : Notice) : h.queuedOnly (h.raise n) := by
  unfold Hlp.queuedOnly
  rw [h.raise_eq]
  split
  · split <;> rfl
  · rfl

theorem Hlp.queuedOnly_trans {h h' h'' : Hlp} (first : h.queuedOnly h') (then_ : h'.queuedOnly h'') : h.queuedOnly h'' := by
  unfold Hlp.queuedOnly at *
  rw [then_, first]

theorem State.endSend_queuedOnly (s : State) (stopped : Bool) : s.hlp.queuedOnly (s.endSend stopped).hlp := by
  unfold State.endSend
  split
  · next d m _ _ => exact s.hlp.queuedOnly_raise (m.done d stopped)
  · rfl
  · rfl

theorem State.finalCheck_queuedOnly (s : State) : s.hlp.queuedOnly s.finalCheck.hlp := by
  unfold State.finalCheck
  split
  · exact s.hlp.queuedOnly_raise _
  · rfl

theorem State.pump_queuedOnly (s : State) : s.hlp.queuedOnly s.pump.hlp := by
  have one (t : State) : t.hlp.queuedOnly t.pumpOne.hlp := by
    unfold State.pumpOne
    split
    · split
      · split
        · exact t.hlp.queuedOnly_raise (Image.part _ _ _)
        · exact Hlp.queuedOnly_trans (t.endSend_queuedOnly false) (State.finalCheck_queuedOnly _)
      · rfl
    · rfl
  have all (n : Nat) : ∀ t : State, t.hlp.queuedOnly (State.pumpUpTo n t).hlp := by
    induction n with
    | zero => exact fun _ => rfl
    | succ n ih => exact fun t => Hlp.queuedOnly_trans (one t) (ih t.pumpOne)
  exact all 24 s

/-- Settles O9: the head leaves, and the send in flight fills the queue. -/
theorem outboundFrameSent : Obligations.OutboundFrameSent := by
  intro s
  split
  · next empty =>
    show Host.Outcome.next _ = _
    rw [empty]
  · next head rest out =>
    split
    · next reset =>
      show Host.Outcome.next _ = Host.Outcome.next _
      rw [out]
      dsimp only
      rw [if_pos reset, if_pos (Bool.and_eq_true_iff.mp reset).1]
    · next other =>
      have ran : exec .outboundFrameSent s = .next (s.headSent head rest) := by
        show Host.Outcome.next _ = _
        rw [out]
        exact congrArg Host.Outcome.next (if_neg other)
      obtain ⟨u, sent⟩ : ∃ u, u = s.setHlp { s.hlp with out := rest, txBits := 0, hostTx := head.bytes } := ⟨_, rfl⟩
      have pumped : s.headSent head rest = u.pump := by rw [sent]; rfl
      have idle (none_ : u.tu.sending = none ∨ u.tu.image = none ∨ 18 < u.hlp.out.length) :
          u.pump.hlp.out = rest ∧ u.pump.hlp.lost = s.hlp.lost ∧ u.pump.tu = s.tu := by
        have same : u.pump = u := State.pumpUpTo_idle none_ 24
        rw [same, sent]
        exact ⟨rfl, rfl, rfl⟩
      refine ⟨_, ran, ?_⟩
      rw [pumped]
      refine ⟨fun b out => ?_, ?_, fun none_ => idle (.inl (by rw [sent]; exact none_)), fun full => idle (.inr (.inr (by rw [sent]; exact full))),
        fun d m sending image room => ?_⟩
      · rw [sent]
        cases b <;> simp_all [State.sameBlock]
      · have := u.pump_queuedOnly
        rw [Hlp.queuedOnly] at this
        rw [this, sent]
        rfl
      · have sending' : u.tu.sending = some d := by rw [sent]; exact sending
        have image' : u.tu.image = some m := by rw [sent]; exact image
        have short : u.hlp.out = rest := by rw [sent]; rfl
        refine ⟨fun few => ?_, fun least all => ?_⟩
        · rw [State.pump_parts sending' image' (by rw [short]; exact room) (by rw [short]; exact few), short, sent]
          have some_ : (19 - rest.length == 0) = false := by simp; omega
          refine ⟨rfl, ?_, rfl⟩
          simp [State.partsIn, some_]
        · intro left idle done filled
          have all_ : d.parts + left = 84 := by omega
          rw [State.pump_done sending' image' least (by rw [short]; exact room) (by rw [short]; exact all)]
          obtain ⟨w, last⟩ : ∃ w, w = u.partsIn m d left := ⟨_, rfl⟩
          rw [← last, State.endSend_spec (m := m) (d := { d with parts := 84 }) (by rw [last, ← all_]; rfl) (by rw [last]; exact image')]
          obtain ⟨x, ended⟩ : ∃ x : State, x = { w with hlp := w.hlp.raise (m.done { d with parts := 84 } false), tu := { w.tu with sending := none } } := ⟨_, rfl⟩
          rw [← ended]
          have raised : x.hlp = filled := by
            have room : w.hlp.out.length ≤ 18 := by
              rw [last]
              simp [State.partsIn, short]
              omega
            rw [ended]
            dsimp only
            rw [Hlp.raise_room rfl room, last, sent]
            rfl
          obtain ⟨tu, hlp⟩ := x.finalCheck_spec
          obtain ⟨same, notices⟩ := State.finalTu_congr (s := idle) (t := x) (by rw [ended, last, sent]; rfl) (by rw [ended, last, sent]; rfl)
            (by rw [ended, last, sent]; rfl)
          rw [tu, hlp, same, notices, raised]
          exact ⟨rfl, rfl⟩

end Sys2Proof.Machine

/-! Settles O54: SHEET and SHEET-STOP (R174 to R178). -/
namespace Sys2Proof.Machine

/-! ## SHEET -/

theorem sheetModeOf_above {mode : Byte} (above : 2 < mode.toNat) : sheetModeOf mode = none := by
  unfold sheetModeOf
  split
  · omega
  · omega
  · omega
  · rfl

theorem sheetOrderOf_above {order : Byte} (above : 1 < order.toNat) : sheetOrderOf order = none := by
  unfold sheetOrderOf
  split
  · omega
  · omega
  · rfl

theorem sheetOrderOf_code (o : SheetOrder) : sheetOrderOf o.code = some o := by
  cases o <;> rfl

theorem sheetModeOf_within {mode : Byte} (within : mode.toNat ≤ 2) : ∃ m, sheetModeOf mode = some m := by
  have codes : mode.toNat = 0 ∨ mode.toNat = 1 ∨ mode.toNat = 2 := by omega
  rcases codes with code | code | code <;> simp [sheetModeOf, code]

theorem sheetOrderOf_within {order : Byte} (within : order.toNat ≤ 1) : ∃ o, sheetOrderOf order = some o := by
  have codes : order.toNat = 0 ∨ order.toNat = 1 := by omega
  rcases codes with code | code <;> simp [sheetOrderOf, code]

/-- A refused SHEET sets nothing going behind its reply. -/
theorem State.refuses_sheet {s : State} {a : Answered} {st : Status} (refused : a = refuse s.restartSilence st) (bad : st ≠ .ok) (kind tag : Byte)
    (behind : State → State) : s.refuses (a.sendThen kind tag behind) kind tag st := by
  have sent : a.sendThen kind tag behind = a.send kind tag := if_neg (by rw [refused]; exact bad)
  rw [sent]
  exact State.refuses_of refused kind tag

/-- What a send of an image does behind the reply of its SHEET: `h` is the host link port with that reply. -/
def State.sends (s t : State) (m : Image) (o : SheetOrder) (h : Hlp) : Prop :=
  let parts := if h.out.length ≤ 18 then 19 - h.out.length else 0
  t.hlp = { h with
      out := h.out ++ (List.range parts).map fun j =>
        .notice (h.lost && j == 0) (.sheetPart m.number o (16 * j) ((List.range 16).map fun c => m.cellAt o (16 * j + c)))
      lost := h.lost && parts == 0 }
    ∧ t.tu = { s.tu with sending := some { order := o, parts := parts } } ∧ s.onlyChanges t [.hlp, .tu]

/-- A send that begins fills the queue at once. -/
theorem State.pump_sends {s : State} {m : Image} {o : SheetOrder} (image : s.tu.image = some m) :
    s.sends (s.beginSend o).pump m o s.hlp := by
  have hlp : (s.beginSend o).hlp = s.hlp := rfl
  have sending : (s.beginSend o).tu.sending = some { order := o, parts := 0 } := rfl
  refine ⟨?_, ?_, fun b other => by cases b <;> simp_all [State.sameBlock]⟩
  all_goals split
  · next room =>
    rw [State.pump_parts sending image (by rw [hlp]; exact room) (by rw [hlp]; dsimp only; omega), hlp]
    simp [State.partsIn, State.partFrame, Image.part]
  · next full =>
    have same : (s.beginSend o).pump = s.beginSend o := State.pumpUpTo_idle (.inr (.inr (by rw [hlp]; omega))) 24
    rw [same]
    simp
  · next room =>
    rw [State.pump_parts sending image (by rw [hlp]; exact room) (by rw [hlp]; dsimp only; omega), hlp]
    simp [State.partsIn, State.beginSend]
  · next full =>
    have same : (s.beginSend o).pump = s.beginSend o := State.pumpUpTo_idle (.inr (.inr (by rw [hlp]; omega))) 24
    rw [same]
    rfl

/-- A SHEET that is taken and begins a send: its reply, then its first parts. -/
theorem State.sheet_sends {s u : State} {a : Answered} {m : Image} {o : SheetOrder} {body : ReplyBody} {notices : List Notice}
    (answered : a = taken (u.beginSend o) body) (image : u.tu.image = some m) (hlp : u.hlp = s.hlp.raiseAll notices) (kind tag : Byte) :
    ∃ h parts, h = s.hlp.answer notices kind tag .ok body
      ∧ parts = (if h.out.length ≤ 18 then 19 - h.out.length else 0)
      ∧ (a.sendThen kind tag State.pump).hlp = { h with
          out := h.out ++ (List.range parts).map fun j =>
            .notice (h.lost && j == 0) (.sheetPart m.number o (16 * j) ((List.range 16).map fun c => m.cellAt o (16 * j + c)))
          lost := h.lost && parts == 0 }
      ∧ (a.sendThen kind tag State.pump).tu = { u.tu with sending := some { order := o, parts := parts } }
      ∧ u.onlyChanges (a.sendThen kind tag State.pump) [.hlp, .tu] := by
  subst answered
  obtain ⟨queue, sent, kept⟩ := State.pump_sends (s := (taken u body).send kind tag) (o := o) image
  have replied := State.onlyChanges_send (taken u body) kind tag
  exact ⟨_, _, Hlp.answer_of (a := taken u body) rfl hlp kind tag, rfl, queue, sent,
    State.onlyChanges_trans (State.onlyChanges_mono replied (by simp)) kept (by simp)⟩

/-- The owner's part of SHEET, mode by mode, with no send in flight. -/
theorem sheetOwner_snapshot {s : State} (idle : s.tu.sending = none) (o : SheetOrder) :
    sheetOwner 0 o.code s = s.hostSnapshot.sheetReply none := by
  simp only [sheetOwner, show sheetModeOf 0 = some .snapshot from rfl, sheetOrderOf_code, idle]
  rfl

theorem sheetOwner_send {s : State} (idle : s.tu.sending = none) (o : SheetOrder) :
    sheetOwner 1 o.code s = if s.tu.image.isSome then (s.beginSend o).sheetReply (some 84) else refuse s .noImage := by
  simp only [sheetOwner, show sheetModeOf 1 = some .send from rfl, sheetOrderOf_code, idle]
  rfl

theorem sheetOwner_both {s : State} (idle : s.tu.sending = none) (o : SheetOrder) :
    sheetOwner 2 o.code s = (s.hostSnapshot.beginSend o).sheetReply (some 84) := by
  simp only [sheetOwner, show sheetModeOf 2 = some .exportBoth from rfl, sheetOrderOf_code, idle]
  rfl

theorem State.sheetReply_some {s : State} {m : Image} (image : s.tu.image = some m) (parts : Option Nat) :
    s.sheetReply parts = taken s (.sheet m.number m.isFinal parts) := by
  rw [State.sheetReply, image]

/-- The host's snapshot of a good frame (R174). -/
theorem State.hostSnapshot_spec (s : State) :
    s.restartSilence.hostSnapshot.tu = { s.tu with image := some (s.imageNow false), lastSnapshot := (s.imageNow false).number }
      ∧ s.restartSilence.hostSnapshot.hlp
        = s.hlp.raiseAll [.snapshotTaken (s.imageNow false).number s.mch.phase s.mch.matchTime]
      ∧ s.restartSilence.onlyChanges s.restartSilence.hostSnapshot [.hlp, .tu] := by
  obtain ⟨_, _, restarted⟩ := s.restartSilence_timer
  rw [restarted]
  exact ⟨rfl, rfl, fun b other => by cases b <;> simp_all [State.sameBlock]⟩

/-- Settles O54: the checks of SHEET, its three modes, and SHEET-STOP. -/
theorem sheetAndSheetStop : Obligations.SheetAndSheetStop := by
  refine ⟨fun s tag mode order accepted => ⟨_, congrArg Host.Outcome.next (State.goodFrameThen_eq accepted 0x1C tag (sheetOwner mode order) State.pump),
    fun bad => ?_, fun within known busy => ?_, fun o coded idle => ?_⟩,
    fun s tag accepted => ⟨_, congrArg Host.Outcome.next (State.goodFrame_eq accepted 0x1D tag sheetStopOwner), fun idle => ?_,
      fun d m sending image => ?_⟩⟩
  · refine State.refuses_sheet ?_ Status.noConfusion _ _ _
    unfold sheetOwner
    rcases bad with above | above
    · rw [sheetModeOf_above above]
    · rw [sheetOrderOf_above above]
      cases sheetModeOf mode <;> rfl
  · obtain ⟨m, mode_⟩ := sheetModeOf_within within
    obtain ⟨o, order_⟩ := sheetOrderOf_within known
    refine State.refuses_sheet ?_ Status.noConfusion _ _ _
    simp only [sheetOwner, mode_, order_]
    exact if_pos (by simpa using busy)
  · subst coded
    have tu : s.restartSilence.tu = s.tu := by simp
    have idle' : s.restartSilence.tu.sending = none := by rw [tu]; exact idle
    obtain ⟨snapTu, snapHlp, snapOnly⟩ := s.hostSnapshot_spec
    intro m snapped sends
    have image : s.restartSilence.hostSnapshot.tu.image = some m := by rw [snapTu]
    refine ⟨?_, ?_, ?_⟩
    · rintro rfl
      have answered : sheetOwner 0 o.code s.restartSilence = taken s.restartSilence.hostSnapshot (.sheet m.number false none) := by
        rw [sheetOwner_snapshot idle', State.sheetReply_some image]
        rfl
      have still : (sheetOwner 0 o.code s.restartSilence).sendThen 0x1C tag State.pump
          = (sheetOwner 0 o.code s.restartSilence).send 0x1C tag := by
        rw [answered]
        exact State.pumpUpTo_idle (.inl (by rw [Answered.send]; exact (congrArg Tu.sending snapTu).trans idle)) 24
      rw [still]
      refine ⟨by rw [answered]; exact snapTu, State.answers_of answered _ _ snapOnly snapHlp⟩
    · rintro rfl
      split
      · next blank => exact State.refuses_sheet (by rw [sheetOwner_send idle', tu, blank]; rfl) Status.noConfusion _ _ _
      · next stands image =>
        have image' : s.restartSilence.tu.image = some stands := by rw [tu]; exact image
        have answered : sheetOwner 1 o.code s.restartSilence
            = taken (s.restartSilence.beginSend o) (.sheet stands.number stands.isFinal (some 84)) := by
          rw [sheetOwner_send idle', tu, image, Option.isSome_some, if_pos rfl]
          exact State.sheetReply_some (s := s.restartSilence.beginSend o) image' _
        obtain ⟨h, parts, reply, count, queue, sent, kept⟩ := State.sheet_sends (s := s) answered image' (notices := [])
          (by rw [s.restartSilence_hlp]; rfl) 0x1C tag
        rw [tu] at sent
        refine ⟨⟨h, parts, reply, count, queue, ?_, ?_, ?_, kept⟩, ?_⟩
        all_goals rw [sent]
        exact image
    · rintro rfl
      have answered : sheetOwner 2 o.code s.restartSilence
          = taken (s.restartSilence.hostSnapshot.beginSend o) (.sheet m.number m.isFinal (some 84)) := by
        rw [sheetOwner_both idle']
        exact State.sheetReply_some (s := s.restartSilence.hostSnapshot.beginSend o) image _
      obtain ⟨h, parts, reply, count, queue, sent, kept⟩ := State.sheet_sends answered image snapHlp 0x1C tag
      rw [snapTu] at sent
      refine ⟨⟨h, parts, reply, count, queue, ?_, ?_, ?_, State.onlyChanges_trans snapOnly kept (by simp)⟩, ?_⟩
      all_goals rw [sent]
  · have tu : s.restartSilence.tu = s.tu := by simp
    exact State.answers_of (u := s.restartSilence) (by rw [sheetStopOwner, tu, idle]) _ _ (fun b _ => by cases b <;> rfl) s.restartSilence_hlp
  · obtain ⟨_, _, restarted⟩ := s.restartSilence_timer
    intro idle
    have tu : s.restartSilence.tu = s.tu := by simp
    have answered : sheetStopOwner s.restartSilence = taken (s.restartSilence.endSend true).finalCheck (.sheetStopped d.parts) := by
      rw [sheetStopOwner, tu, sending]
    have ended := State.endSend_spec (s := s.restartSilence) (m := m) (d := d) (by rw [tu]; exact sending) (by rw [tu]; exact image) true
    obtain ⟨x, stopped⟩ : ∃ x, x = s.restartSilence.endSend true := ⟨_, rfl⟩
    rw [← stopped] at answered ended
    obtain ⟨final, hlp⟩ := x.finalCheck_spec
    obtain ⟨same, notices⟩ := State.finalTu_congr (s := idle) (t := x) (by rw [ended, tu]) (by rw [ended, restarted]; rfl)
      (by rw [ended, restarted]; rfl)
    rw [answered]
    refine ⟨final.trans same, State.answers_of rfl _ _ (fun b other => ?_) ?_⟩
    · rw [stopped]
      cases b <;> simp_all [State.sameBlock]
    · rw [hlp, notices, ended, s.restartSilence_hlp]
      rfl

end Sys2Proof.Machine

/-! Settles O42: the asks of an evaluation of the windows (R114 to R117, R125), and SET-WINDOW (R115, R134). -/
namespace Sys2Proof.Machine

/-! ## The asks of an evaluation -/

/-- What the evaluation of one goal asks for. -/
def windowAsksOf (phase : Phase) (i : Index) (r : Option ElementRecord) : List BusAsk :=
  match r with
  | some r => match r.part with
    | .goal p => litChange i p.lit (p.evaluated phase).lit
        ++ if p.window = .opened ∧ (p.evaluated phase).window = .closing then [.closing i] else []
    | .gate _ | .station _ | .carriage _ => []
  | none => []

theorem GoalPart.evaluated_closed {p : GoalPart} (closed : p.window = .closed) (phase : Phase) : p.evaluated phase =
    if windowDesired p.control p.phaseSet phase then p.opening.relit else p := by
  simp only [GoalPart.evaluated, closed, GoalPart.opening_relit]

theorem GoalPart.evaluated_opened {p : GoalPart} (opened : p.window = .opened) (phase : Phase) : p.evaluated phase =
    if windowDesired p.control p.phaseSet phase then p
    else { p with window := .closing, reopenWanted := false, closingInMatch := phase.inMatch || phase == .ended } := by
  simp only [GoalPart.evaluated, opened]

theorem GoalPart.evaluated_closing {p : GoalPart} (closing : p.window = .closing) (phase : Phase) :
    p.evaluated phase = { p with reopenWanted := windowDesired p.control p.phaseSet phase } := by
  simp only [GoalPart.evaluated, closing]

theorem State.windowAsks_eq (s : State) (phase : Phase) : s.windowAsks phase = indices.flatMap fun i => windowAsksOf phase i (s.elem i) := by
  refine List.flatMap_congr fun i _ => ?_
  cases stands : s.elem i with
  | none => simp [State.goalAt, stands, windowAsksOf]
  | some r =>
    cases part : r.part with
    | goal p =>
      simp only [State.goalAt, stands, part, windowAsksOf]
      cases window : p.window with
      | closed =>
        rw [GoalPart.evaluated_closed window]
        cases wanted : windowDesired p.control p.phaseSet phase <;> simp [GoalPart.opening_relit, litChange, window, eq_comm]
      | opened =>
        rw [GoalPart.evaluated_opened window]
        cases wanted : windowDesired p.control p.phaseSet phase <;> simp [litChange, window]
      | closing => simp [GoalPart.evaluated_closing window, litChange, window]
    | _ => simp [State.goalAt, stands, part, windowAsksOf]

section
variable {s : State} {i : Index} {p : GoalPart}

theorem State.driven_relightGoal (goal : s.goalAt i = some p) : s.driven (s.relightGoal i) (litChange i p.lit p.relit.lit) := by
  rw [State.relightGoal, goal]
  dsimp only
  split
  · next same =>
    rw [GoalPart.relit, same, litChange_same]
    exact State.driven_of_ebc rfl rfl
  · next other =>
    rw [GoalPart.relit, litChange, if_neg other]
    have first : s.driven (s.setGoal i { p with lit := p.lampMode.lit p.filled }) [] := State.driven_of_ebc (by simp) (by simp)
    exact first.trans (State.driven_askLamp i _)

theorem State.driven_openWindow (goal : s.goalAt i = some p) : s.driven (s.openWindow i) (litChange i p.lit p.opening.relit.lit) := by
  obtain ⟨r, stands, part⟩ := State.goal_some goal
  have opening : (s.setGoal i p.opening).goalAt i = some p.opening := by
    refine State.goal_of (r := r.setPart (.goal p.opening)) ?_ rfl
    rw [State.elem_setGoal, if_pos rfl, stands, Option.map_some]
  have first : s.driven (s.setGoal i p.opening) [] := State.driven_of_ebc (by simp) (by simp)
  rw [State.openWindow, goal]
  exact (first.trans (State.driven_relightGoal opening)).still rfl rfl

theorem State.driven_beginClose (s : State) (i : Index) : s.driven (s.beginClose i) [.closing i] := by
  have first : s.driven (s.modGoal i fun p =>
      { p with window := .closing, reopenWanted := false, closingInMatch := s.mch.phase.inMatch || s.mch.phase == .ended }) [] :=
    State.driven_of_ebc (by simp) (by simp)
  exact first.trans (State.driven_askClosing i)

/-- The evaluation of a goal touches the bus by its asks alone. -/
theorem State.driven_evaluateGoal (s : State) (i : Index) : s.driven (s.evaluateGoal i) (windowAsksOf s.mch.phase i (s.elem i)) := by
  unfold State.evaluateGoal
  cases goal : s.goalAt i with
  | none =>
    have none_ : windowAsksOf s.mch.phase i (s.elem i) = [] := by
      unfold windowAsksOf
      split
      · next r stands => split <;> simp_all [State.goalAt]
      · rfl
    rw [none_]
    exact State.driven_of_ebc rfl rfl
  | some p =>
    obtain ⟨r, stands, part⟩ := State.goal_some goal
    simp only [stands, windowAsksOf, part]
    cases window : p.window with
    | closed =>
      rw [GoalPart.evaluated_closed window]
      cases wanted : windowDesired p.control p.phaseSet s.mch.phase with
      | true => simpa using State.driven_openWindow goal
      | false => simpa using State.driven_of_ebc (s := s) rfl rfl
    | opened =>
      rw [GoalPart.evaluated_opened window]
      cases wanted : windowDesired p.control p.phaseSet s.mch.phase with
      | true => simpa [window] using State.driven_of_ebc (s := s) rfl rfl
      | false => simpa using s.driven_beginClose i
    | closing =>
      rw [GoalPart.evaluated_closing window]
      have still : s.driven (s.setGoal i { p with reopenWanted := windowDesired p.control p.phaseSet s.mch.phase }) [] :=
        State.driven_of_ebc (by simp) (by simp)
      simpa [window] using still

end

/-- The asks of one element's evaluation stand behind all of them. -/
theorem State.windowAsks_alone {s : State} {phase : Phase} {i : Index} {q : BusAsk} (here : q ∈ windowAsksOf phase i (s.elem i)) :
    q ∈ s.windowAsks phase ∧ ∀ x ∈ s.windowAsks phase, ¬ x.overrides q := by
  have asked (j : Index) (x : BusAsk) (mine : x ∈ windowAsksOf phase j (s.elem j)) :
      x = .closing j ∨ ∃ r p, s.elem j = some r ∧ r.part = .goal p ∧ x = .lamp j (p.evaluated phase).lit := by
    unfold windowAsksOf at mine
    split at mine
    · next r stands =>
      split at mine
      · next p part =>
        rcases List.mem_append.mp mine with lamp | closing
        · unfold litChange at lamp
          split at lamp
          · cases lamp
          · exact .inr ⟨r, p, stands, part, List.mem_singleton.mp lamp⟩
        · split at closing
          · exact .inl (List.mem_singleton.mp closing)
          · cases closing
      all_goals cases mine
    · cases mine
  rw [State.windowAsks_eq]
  refine ⟨List.mem_flatMap.mpr ⟨i, List.mem_finRange i, here⟩, fun x there drives => ?_⟩
  obtain ⟨j, _, there⟩ := List.mem_flatMap.mp there
  rcases asked i q here with rfl | ⟨r, p, stands, part, rfl⟩
  · rcases asked j x there with rfl | ⟨r, p, stands, part, rfl⟩ <;> exact drives
  · rcases asked j x there with rfl | ⟨r', p', stands', part', rfl⟩
    · exact drives
    · obtain ⟨rfl, other⟩ := drives
      simp_all

/-- An evaluation of every window touches the bus by its asks alone. -/
theorem State.driven_evaluateWindows (s : State) : s.driven s.evaluateWindows (s.windowAsks s.mch.phase) := by
  have goals := State.eachIndex_driven (P := fun t => t.mch = s.mch) (f := fun i t => t.evaluateGoal i)
    (g := fun _ r => r.map (ElementRecord.onGoal fun p => p.evaluated s.mch.phase)) (asks := windowAsksOf s.mch.phase)
    (fun i t h => by simp [h]) (fun i t j h => by rw [State.elem_evaluateGoal, h]) (fun i t h => h ▸ t.driven_evaluateGoal i) (s := s) rfl
  rw [State.windowAsks_eq]
  exact goals.still (by simp [State.evaluateWindows]) (by simp [State.evaluateWindows])

/-- Every window evaluated at an entry to a phase, seen from the state before the entry. -/
theorem State.windowsEvaluated_of {s u t : State} (elem : ∀ i, u.elem i = s.elem i) (before : s.driven u []) (elems : t.elems = u.evaluateWindows.elems)
    (bus : t.ebc = u.evaluateWindows.ebc) (clock : t.now = u.now) (phase : t.mch.phase = u.mch.phase) : s.windowsEvaluated t := by
  have asks : u.windowAsks u.mch.phase = s.windowAsks t.mch.phase := by
    rw [State.windowAsks_eq, State.windowAsks_eq, phase]
    exact List.flatMap_congr fun i _ => by rw [elem]
  have drives := before.trans u.driven_evaluateWindows
  rw [asks] at drives
  have drives : s.driven t (s.windowAsks t.mch.phase) := drives.still bus (clock.trans (by simp))
  obtain ⟨records, _⟩ := u.evaluateWindows_spec
  refine ⟨fun i => ?_, fun i p goal opened closes => ?_, drives.1⟩
  · rw [State.elem_of_elems elems, records, elem, phase]
  · obtain ⟨r, stands, part⟩ := State.goal_some goal
    have here : BusAsk.closing i ∈ windowAsksOf t.mch.phase i (s.elem i) := by
      simp [windowAsksOf, stands, part, GoalPart.evaluated_opened opened, opened, closes]
    obtain ⟨among, alone⟩ := State.windowAsks_alone here
    exact drives.isAsked among alone

end Sys2Proof.Machine

/-! Settles O42: SET-WINDOW (R115, R134). -/
namespace Sys2Proof.Machine

theorem windowDesired_iff (control : WindowControl) (set : BitVec 4) (phase : Phase) :
    windowDesired control set phase = true ↔ phase ≠ .ended ∧ (control = .forcedOpen
      ∨ (control = .auto ∧ ((phase = .opening ∧ set.getLsbD 0 = true) ∨ (phase = .transition ∧ set.getLsbD 1 = true)
        ∨ (phase = .play ∧ set.getLsbD 2 = true) ∨ (phase = .finale ∧ set.getLsbD 3 = true)))) := by
  cases control <;> cases phase <;> simp [windowDesired, Phase.inSet]

theorem windowControlOf_code (c : WindowControl) : windowControlOf c.code = some c := by
  cases c <;> rfl

theorem windowControlOf_above {b : Byte} (above : 2 < b.toNat) : windowControlOf b = none := by
  unfold windowControlOf
  split
  · omega
  · omega
  · omega
  · rfl

section
variable {s : State} {index : Byte} {c : WindowControl} {i : Index} {r : ElementRecord}

theorem setWindowOwner_undefined (names : index.toNat = i.val) (none_ : s.elem i = none) :
    setWindowOwner index c.code s = refuse s .noSuchElement := by
  simp only [setWindowOwner, windowControlOf_code, indexOf_val names, none_]

theorem setWindowOwner_goal {p : GoalPart} (names : index.toNat = i.val) (stands : s.elem i = some r) (part : r.part = .goal p) :
    setWindowOwner index c.code s = taken ((s.setGoal i { p with control := c }).evaluateGoal i)
      (.window (((s.setGoal i { p with control := c }).evaluateGoal i).windowShown i)) := by
  simp only [setWindowOwner, windowControlOf_code, indexOf_val names, stands, part]

theorem setWindowOwner_station {p : StationPart} (names : index.toNat = i.val) (stands : s.elem i = some r) (part : r.part = .station p) :
    setWindowOwner index c.code s = taken ((s.setStation i { p with control := c }).evaluateStation i)
      (.window (((s.setStation i { p with control := c }).evaluateStation i).windowShown i)) := by
  simp only [setWindowOwner, windowControlOf_code, indexOf_val names, stands, part]

/-- The notice of a goal's evaluation, told by the part after it. -/
theorem openNotice_goal (phase : Phase) (i : Index) (r : ElementRecord) (p : GoalPart) : openNotice phase i (some (r.setPart (.goal p))) =
    if p.window = .closed ∧ (p.evaluated phase).window = .opened then
      [.goal i (p.evaluated phase).windowNumber (.opened (p.evaluated phase).quota)] else [] := by
  simp only [openNotice, ElementRecord.setPart]
  cases window : p.window with
  | closed =>
    rw [GoalPart.evaluated_closed window]
    cases wanted : windowDesired p.control p.phaseSet phase <;> simp [GoalPart.opening_relit, window]
  | opened => simp
  | closing => simp

/-- The records, notices and asks after a goal's window control was set. -/
theorem State.setGoalControl_spec (stands : s.elem i = some r) (p : GoalPart) (c : WindowControl) :
    let q := GoalPart.evaluated { p with control := c } s.mch.phase
    let t := (s.setGoal i { p with control := c }).evaluateGoal i
    s.elemsBut t i ∧ t.elem i = some { r with part := .goal q }
      ∧ t.hlp = s.hlp.raiseAll (if p.window = .closed ∧ q.window = .opened then [.goal i q.windowNumber (.opened q.quota)] else [])
      ∧ s.driven t (litChange i p.lit q.lit ++ if p.window = .opened ∧ q.window = .closing then [.closing i] else []) := by
  intro q t
  have set : (s.setGoal i { p with control := c }).elem i = some (r.setPart (.goal { p with control := c })) := by
    rw [State.elem_setGoal, if_pos rfl, stands, Option.map_some]
  have phase : (s.setGoal i { p with control := c }).mch.phase = s.mch.phase := by simp
  refine ⟨fun j other => ?_, ?_, ?_, ?_⟩
  · rw [State.elem_evaluateGoal, if_neg other, State.elem_setGoal, if_neg other]
  · rw [State.elem_evaluateGoal, if_pos rfl, set, phase]
    rfl
  · rw [State.hlp_evaluateGoal, set, phase, (State.setGoal_frame s i _).1]
    rw [openNotice_goal]
  · have first : s.driven (s.setGoal i { p with control := c }) [] := State.driven_of_ebc (by simp) (by simp)
    have drives := State.driven_evaluateGoal (s.setGoal i { p with control := c }) i
    rw [set, phase] at drives
    exact first.trans drives

theorem State.setStationControl_spec (stands : s.elem i = some r) (p : StationPart) (c : WindowControl) :
    let t := (s.setStation i { p with control := c }).evaluateStation i
    s.elemsBut t i ∧ t.elem i = some { r with part := .station (StationPart.evaluated { p with control := c } s.mch.phase) } := by
  intro t
  have set : (s.setStation i { p with control := c }).elem i = some (r.setPart (.station { p with control := c })) := by
    rw [State.setStation, State.elem_setPart, if_pos rfl, stands, Option.map_some]
  have phase : (s.setStation i { p with control := c }).mch.phase = s.mch.phase := by simp
  refine ⟨fun j other => ?_, ?_⟩
  · rw [State.elem_evaluateStation, if_neg other, State.setStation, State.elem_setPart, if_neg other]
  · rw [State.elem_evaluateStation, if_pos rfl, set, phase]
    rfl

end

/-- Settles O42: the checks, and the window evaluated with the new control. -/
theorem setWindowEvaluatesTheWindow : Obligations.SetWindowEvaluatesTheWindow := by
  refine ⟨windowDesired_iff, fun s tag index control accepted =>
    ⟨_, congrArg Host.Outcome.next (State.goodFrame_eq accepted 0x13 tag (setWindowOwner index control)), fun bad => ?_, fun i c names coded => ?_⟩⟩
  · refine State.refuses_of ?_ _ _
    unfold setWindowOwner
    rcases bad with above | above
    · rw [indexOf_above above]
      cases windowControlOf control <;> rfl
    · rw [windowControlOf_above above]
  · subst coded
    have phase := s.restartSilence_phase
    split
    · next none_ => exact State.refuses_of (setWindowOwner_undefined names ((s.restartSilence_elem i).trans none_)) _ _
    · next r stands =>
      have stands' := (s.restartSilence_elem i).trans stands
      split
      · next p part => exact State.refuses_of (by simp only [setWindowOwner, windowControlOf_code, indexOf_val names, stands', part]) _ _
      · next p part => exact State.refuses_of (by simp only [setWindowOwner, windowControlOf_code, indexOf_val names, stands', part]) _ _
      · next p part =>
        have spec := State.setStationControl_spec stands' p c
        rw [phase] at spec
        obtain ⟨others, record⟩ := spec
        intro q
        have shown : ((s.restartSilence.setStation i { p with control := c }).evaluateStation i).windowShown i
            = if q.windowOpen then .opened else .closed := by
          rw [State.windowShown, record]
        have answered := setWindowOwner_station (c := c) names stands' part
        rw [shown] at answered
        refine ⟨fun j other => ?_, ?_, State.answers_of answered _ _ (fun b other => ?_) ?_⟩
        · rw [answered, Answered.send_elem, taken, others j other, s.restartSilence_elem]
        · rw [answered, Answered.send_elem, taken, record]
        · cases b <;> simp_all [State.sameBlock]
        · simp
      · next p part =>
        have spec := State.setGoalControl_spec stands' p c
        rw [phase] at spec
        obtain ⟨others, record, notices, drives⟩ := spec
        have drives := State.driven_restartSilence drives
        intro q
        have shown : ((s.restartSilence.setGoal i { p with control := c }).evaluateGoal i).windowShown i = q.window := by
          rw [State.windowShown, record]
        have answered := setWindowOwner_goal (c := c) names stands' part
        rw [shown] at answered
        have sent : s.driven ((setWindowOwner index c.code s.restartSilence).send 0x13 tag)
            (litChange i p.lit q.lit ++ if p.window = .opened ∧ q.window = .closing then [.closing i] else []) := by
          rw [answered]
          exact drives.still rfl rfl
        refine ⟨fun j other => ?_, ?_, State.answers_of answered _ _ (fun b other => ?_) ?_, sent.1, fun opened closing => ?_, fun changed => ?_⟩
        · rw [answered, Answered.send_elem, taken, others j other, s.restartSilence_elem]
        · rw [answered, Answered.send_elem, taken, record]
        · cases b <;> simp_all [State.sameBlock]
        · rw [notices, s.restartSilence_hlp]
        · refine sent.isAsked (q := .closing i) (by simp [opened, closing]) fun x _ drives => ?_
          cases x <;> exact drives
        · refine sent.isAsked (q := .lamp i q.lit) (by simp [litChange, Ne.symm changed]) fun x here drives => ?_
          rcases List.mem_append.mp here with lamp | close
          · rw [litChange, if_neg (Ne.symm changed)] at lamp
            obtain rfl := List.mem_singleton.mp lamp
            exact drives.2 rfl
          · split at close
            · obtain rfl := List.mem_singleton.mp close
              exact drives
            · cases close

end Sys2Proof.Machine

/-! Settles O46: ARM and START (R155, R156); walks of the robot records. -/
namespace Sys2Proof.Machine

/-! ## Walks of the slots -/

/-- A walk over every slot whose steps each change their own record only and raise notices of it. -/
theorem State.eachSlot_walk {P : State → Prop} {f : Slot → State → State} {g : Slot → RobotRecord → RobotRecord}
    {notices : Slot → RobotRecord → List Notice} (keeps : ∀ k t, P t → P (f k t))
    (robot : ∀ k t j, P t → (f k t).robot j = if j = k then g k (t.robot k) else t.robot j)
    (limits : ∀ k t, P t → (f k t).roster = { t.roster with robots := (f k t).roster.robots })
    (raises : ∀ k t, P t → (f k t).hlp = t.hlp.raiseAll (notices k (t.robot k))) {s : State} (h : P s) :
    P (s.eachSlot f) ∧ (∀ j, (s.eachSlot f).robot j = g j (s.robot j))
      ∧ (s.eachSlot f).roster = { s.roster with robots := (s.eachSlot f).roster.robots }
      ∧ (s.eachSlot f).hlp = s.hlp.raiseAll (slots.flatMap fun k => notices k (s.robot k)) := by
  have walk (l : List Slot) : l.Nodup → ∀ t, P t →
      P (l.foldl (fun t k => f k t) t) ∧ (∀ j, (l.foldl (fun t k => f k t) t).robot j = if j ∈ l then g j (t.robot j) else t.robot j)
        ∧ (l.foldl (fun t k => f k t) t).roster = { t.roster with robots := (l.foldl (fun t k => f k t) t).roster.robots }
        ∧ (l.foldl (fun t k => f k t) t).hlp = t.hlp.raiseAll (l.flatMap fun k => notices k (t.robot k)) := by
    induction l with
    | nil => exact fun _ t ht => ⟨ht, fun j => by simp, rfl, rfl⟩
    | cons k l ih =>
      intro once t ht
      obtain ⟨fresh, once⟩ := List.nodup_cons.mp once
      obtain ⟨holds, robots, rest, hlp⟩ := ih once (f k t) (keeps k t ht)
      refine ⟨holds, fun j => ?_, ?_, ?_⟩
      · rw [List.foldl_cons, robots, robot k t _ ht]
        by_cases here : j = k
        · subst here
          simp [fresh]
        · simp [here]
      · rw [List.foldl_cons, rest, limits k t ht]
      · have same : (l.flatMap fun j => notices j ((f k t).robot j)) = l.flatMap fun j => notices j (t.robot j) :=
          List.flatMap_congr fun j here => by rw [robot k t j ht, if_neg (by rintro rfl; exact fresh here)]
        rw [List.foldl_cons, hlp, raises k t ht, same, List.flatMap_cons, Hlp.raiseAll_append]
  obtain ⟨holds, robots, rest⟩ := walk slots (List.nodup_finRange 24) s h
  exact ⟨holds, fun j => (robots j).trans (if_pos (List.mem_finRange j)), rest⟩

/-- A walk that changes each robot record by a function of it and does nothing else. -/
theorem State.eachSlot_robots {f : Slot → State → State} {g : RobotRecord → RobotRecord}
    (robot : ∀ k t j, (f k t).robot j = if j = k then g (t.robot k) else t.robot j)
    (limits : ∀ k t, (f k t).roster = { t.roster with robots := (f k t).roster.robots }) (s : State) (hlp : ∀ k t, (f k t).hlp = t.hlp) :
    (∀ j, (s.eachSlot f).robot j = g (s.robot j)) ∧ (s.eachSlot f).roster = { s.roster with robots := (s.eachSlot f).roster.robots } := by
  obtain ⟨_, robots, rest, _⟩ := State.eachSlot_walk (P := fun _ => True) (f := f) (g := fun _ => g) (notices := fun _ _ => [])
    (fun _ _ _ => trivial) (fun k t j _ => robot k t j) (fun k t _ => limits k t) (fun k t _ => hlp k t) (s := s) trivial
  exact ⟨robots, rest⟩

/-- A robot record that is changed on a condition, and its limits. -/
theorem State.robot_modRobot_when (s : State) (k j : Slot) {c : Prop} [Decidable c] (f : RobotRecord → RobotRecord) :
    (if c then s.modRobot k f else s).robot j = if j = k then if c then f (s.robot k) else s.robot k else s.robot j := by
  split
  · rw [State.robot_modRobot]
  · split
    · next here => rw [here]
    · rfl

theorem State.roster_modRobot_when (s : State) (k : Slot) {c : Prop} [Decidable c] (f : RobotRecord → RobotRecord) :
    (if c then s.modRobot k f else s).roster = { s.roster with robots := (if c then s.modRobot k f else s).roster.robots } := by
  split <;> rfl

theorem State.hlp_modRobot_when (s : State) (k : Slot) {c : Prop} [Decidable c] (f : RobotRecord → RobotRecord) :
    (if c then s.modRobot k f else s).hlp = s.hlp := by
  split <;> rfl

/-- A robot record that READY makes ACTIVE at START (R52). -/
def RobotRecord.activated (r : RobotRecord) : RobotRecord := if r.state = .ready then { r with state := .active } else r

theorem State.activateReady_spec (s : State) :
    (∀ k, s.activateReady.robot k = (s.robot k).activated)
      ∧ s.activateReady.roster = { s.roster with robots := s.activateReady.roster.robots } := by
  unfold State.activateReady
  exact State.eachSlot_robots (g := RobotRecord.activated) (fun k t j => t.robot_modRobot_when k j _) (fun k t => t.roster_modRobot_when k _) s fun k t => t.hlp_modRobot_when k _

/-- A robot record at ENDED (R52). -/
def RobotRecord.readied (r : RobotRecord) : RobotRecord :=
  if r.state = .active ∨ r.state = .benched then { r with state := .ready, bench := none } else r

theorem State.robotsToReady_spec (s : State) :
    (∀ k, s.robotsToReady.robot k = (s.robot k).readied)
      ∧ s.robotsToReady.roster = { s.roster with robots := s.robotsToReady.roster.robots } := by
  unfold State.robotsToReady
  exact State.eachSlot_robots (g := RobotRecord.readied) (fun k t j => t.robot_modRobot_when k j _) (fun k t => t.roster_modRobot_when k _) s fun k t => t.hlp_modRobot_when k _

/-! ## ARM and START -/

theorem State.allVacant_iff (s : State) : s.allVacant = true ↔ ∀ k, (s.robot k).state = .vacant := by
  simp [State.allVacant, slots]

theorem State.allUndefined_iff (s : State) : s.allUndefined = true ↔ ∀ i, s.elem i = none := by
  simp [State.allUndefined, indices]

theorem State.someNotReady_iff (s : State) : s.someNotReady = true ↔ ∃ k, (s.robot k).state = .assigned ∨ (s.robot k).state = .linked := by
  simp [State.someNotReady, slots]

theorem Durations.first_eq (d : Durations) : d.firstPhase = d.first := rfl

theorem yesNoOf_above {b : Byte} (above : 1 < b.toNat) : yesNoOf b = none := by
  unfold yesNoOf
  split
  · omega
  · omega
  · rfl

theorem yesNoOf_within {b : Byte} (within : b.toNat ≤ 1) : yesNoOf b = some (decide (b ≠ 0)) := by
  have codes : b = 0 ∨ b = 1 := by
    have : b.toNat = 0 ∨ b.toNat = 1 := by omega
    exact this.imp (fun zero => BitVec.eq_of_toNat_eq zero) fun one => BitVec.eq_of_toNat_eq one
  rcases codes with rfl | rfl <;> rfl

/-- A phase entered: the windows follow it, and its notice precedes theirs. -/
theorem State.evaluateWindows_notices (s : State) (p : Phase) (cause : PhaseCause) (remaining : Nat) :
    (s.setPhase p cause remaining).evaluateWindows.hlp
      = s.hlp.raiseAll (.phase p cause s.mch.matchTime remaining s.held :: s.openNotices p) := by
  rw [(State.evaluateWindows_spec _).2]
  have same : (s.setPhase p cause remaining).openNotices p = s.openNotices p := by
    rw [State.openNotices_eq, State.openNotices_eq]
    rfl
  exact congrArg (Hlp.raiseAll _) same

end Sys2Proof.Machine

/-! Settles O46: ARM and START (R155, R156). -/
namespace Sys2Proof.Machine

theorem State.allVacant_restartSilence (s : State) : s.restartSilence.allVacant = s.allVacant := by
  simp [State.allVacant]

theorem State.allUndefined_restartSilence (s : State) : s.restartSilence.allUndefined = s.allUndefined := by
  simp [State.allUndefined]

theorem State.someNotReady_restartSilence (s : State) : s.restartSilence.someNotReady = s.someNotReady := by
  simp [State.someNotReady]

/-- The windows' evaluation is told by the records, the bus and the phase alone. -/
theorem State.windowsEvaluated_congr {s u t v : State} (windows : u.windowsEvaluated v) (elem : ∀ i, u.elem i = s.elem i) (bus : u.ebc = s.ebc)
    (clock : u.now = s.now) (after : t.ebc = v.ebc) (phase : t.mch.phase = v.mch.phase) (records : t.elems = v.elems := by rfl) :
    s.windowsEvaluated t := by
  obtain ⟨record, closes, asks⟩ := windows
  have goals (i : Index) : u.goalAt i = s.goalAt i := by unfold State.goalAt; rw [elem]
  have same : u.windowAsks v.mch.phase = s.windowAsks t.mch.phase := by
    rw [State.windowAsks_eq, State.windowAsks_eq, phase]
    exact List.flatMap_congr fun i _ => by rw [elem]
  refine ⟨fun i => ?_, fun i p goal opened closed => ?_, ?_⟩
  · rw [State.elem_of_elems records, record, elem, phase]
  · exact (State.isAsked_of_ebc after (.closing i)).mpr (closes i p ((goals i).trans goal) opened (phase ▸ closed))
  · rw [after, asks, same]
    exact State.ebc_asksAll_congr _ bus clock

/-- A reply moves no block but the host link port. -/
theorem Answered.send_mch (a : Answered) (kind tag : Byte) : (a.send kind tag).mch = a.state.mch := rfl
theorem Answered.send_elems (a : Answered) (kind tag : Byte) : (a.send kind tag).elems = a.state.elems := rfl
theorem Answered.send_ebc (a : Answered) (kind tag : Byte) : (a.send kind tag).ebc = a.state.ebc := rfl
theorem Answered.send_roster (a : Answered) (kind tag : Byte) : (a.send kind tag).roster = a.state.roster := rfl

theorem State.windowsEvaluated_send {s u : State} (windows : s.windowsEvaluated u) (body : ReplyBody) (kind tag : Byte) :
    s.windowsEvaluated ((taken u body).send kind tag) :=
  State.windowsEvaluated_congr windows (fun _ => rfl) rfl rfl (Answered.send_ebc ..) (congrArg Mch.phase (Answered.send_mch ..))
    (Answered.send_elems ..)

/-- What ARM leaves. -/
def State.armed (s : State) : State := ((s.setMch s.mch.startSilence).setPhase .staged .arm s.mch.durations.firstPhase.2).evaluateWindows

theorem State.onlyChanges_armed (s : State) : s.onlyChanges s.armed [.hlp, .elems, .ebc, .mch] :=
  fun b other => by cases b <;> simp_all [State.sameBlock, State.armed, State.setPhase]

theorem State.armed_mch (s : State) : s.armed.mch = { s.mch with
    phase := .staged, remaining := s.mch.durations.first.2
    silenceElapsed := if s.mch.hostLimit = 0 then s.mch.silenceElapsed else 0
    silenceExpired := s.mch.hostLimit == 0 && s.mch.silenceExpired } := by
  have kept : s.armed.mch = { s.mch.startSilence with phase := .staged, remaining := s.mch.durations.firstPhase.2 } := by
    simp [State.armed, State.setPhase]
  rw [kept, Mch.startSilence, Durations.first_eq]
  by_cases limit : s.mch.hostLimit = 0 <;> simp [limit]

theorem State.armed_windows (s : State) : s.windowsEvaluated s.armed := by
  refine State.windowsEvaluated_of (u := (s.setMch s.mch.startSilence).setPhase .staged .arm s.mch.durations.firstPhase.2)
    (fun i => ?_) (State.driven_of_ebc ?_ ?_) rfl rfl ?_ ?_
  all_goals simp [State.setPhase, State.armed]

theorem State.armed_hlp (s : State) : s.armed.hlp = s.hlp.raiseAll
    (.phase .staged .arm s.mch.matchTime s.mch.durations.first.2 s.held :: s.openNotices .staged) := by
  have notices := (s.setMch s.mch.startSilence).evaluateWindows_notices .staged .arm s.mch.durations.firstPhase.2
  have time : s.mch.startSilence.matchTime = s.mch.matchTime ∧ s.mch.startSilence.stack = s.mch.stack := by
    unfold Mch.startSilence
    split <;> exact ⟨rfl, rfl⟩
  have held : (s.setMch s.mch.startSilence).held = s.held := congrArg (fun l : List Hold => !l.isEmpty) time.2
  have opens : (s.setMch s.mch.startSilence).openNotices .staged = s.openNotices .staged := rfl
  rw [held, opens] at notices
  refine notices.trans ?_
  rw [show (s.setMch s.mch.startSilence).mch.matchTime = s.mch.matchTime from time.1]
  rfl

theorem State.onlyChanges_startMatch (s : State) : s.onlyChanges s.startMatch [.hlp, .roster, .elems, .ebc, .mch] :=
  fun b other => by cases b <;> simp_all [State.sameBlock]

/-- What START leaves: the facts that O46 names. -/
theorem State.startMatch_spec (s : State) :
    s.startMatch.mch = { s.mch with phase := s.mch.durations.first.1, remaining := s.mch.durations.first.2, matchTime := 0, tenthTimer := 0 }
      ∧ (∀ k, s.startMatch.robot k = (s.robot k).activated)
      ∧ s.startMatch.roster = { s.roster with robots := s.startMatch.roster.robots } ∧ s.windowsEvaluated s.startMatch
      ∧ s.onlyChanges s.startMatch [.hlp, .roster, .elems, .ebc, .mch]
      ∧ s.startMatch.hlp = s.hlp.raiseAll (.phase s.mch.durations.first.1 .start 0 s.mch.durations.first.2 s.held
          :: s.openNotices s.mch.durations.first.1) := by
  obtain ⟨u, entered⟩ : ∃ u, u = (s.setMch { s.mch with matchTime := 0, tenthTimer := 0 }).setPhase s.mch.durations.first.1 .start
      s.mch.durations.first.2 := ⟨_, rfl⟩
  have starts : s.startMatch = u.activateReady.evaluateWindows := by rw [entered]; rfl
  obtain ⟨robots, limits⟩ := u.activateReady_spec
  have kept := u.activateReady_frame
  obtain ⟨hlp, rcc, elems, ebc, mch, tu, now, pending⟩ := kept
  have blocks : u.roster = s.roster ∧ u.elems = s.elems ∧ u.ebc = s.ebc ∧ u.now = s.now
      ∧ u.mch = { s.mch with phase := s.mch.durations.first.1, remaining := s.mch.durations.first.2, matchTime := 0, tenthTimer := 0 }
      ∧ u.hlp = s.hlp.raise (.phase s.mch.durations.first.1 .start 0 s.mch.durations.first.2 s.held) := by
    rw [entered]
    exact ⟨rfl, rfl, rfl, rfl, rfl, rfl⟩
  obtain ⟨roster', elems', ebc', now', mch', hlp'⟩ := blocks
  have record (i : Index) : u.activateReady.elem i = s.elem i := by
    rw [State.elem_of_elems elems, State.elem_of_elems elems']
  have roster : s.startMatch.roster = u.activateReady.roster := by rw [starts]; simp
  have mch'' : s.startMatch.mch = u.mch := by rw [starts]; simp
  refine ⟨mch''.trans mch', fun k => ?_, ?_, ?_, s.onlyChanges_startMatch, ?_⟩
  · rw [State.robot_of_roster roster, robots, State.robot_of_roster roster']
  · rw [roster, limits, roster']
  · exact State.windowsEvaluated_of record (State.driven_of_ebc (ebc.trans ebc') (now.trans now')) (by rw [starts]) (by rw [starts])
      (by rw [starts]; simp) (by rw [mch'', mch])
  · have opens : u.activateReady.openNotices u.mch.phase = s.openNotices s.mch.durations.first.1 := by
      rw [State.openNotices_eq, State.openNotices_eq, mch']
      exact List.flatMap_congr fun i _ => by rw [record]
    rw [starts, (State.evaluateWindows_spec _).2, hlp, mch, opens, hlp']
    rfl

/-- Settles O46: the checks of ARM and START, and the phases they enter. -/
theorem armAndStartEnterPhases : Obligations.ArmAndStartEnterPhases := by
  refine ⟨fun s tag accepted => ⟨_, congrArg Host.Outcome.next (State.goodFrame_eq accepted 0x09 tag armOwner), fun other => ?_, fun setup bare => ?_,
      fun setup robots elements => ?_⟩,
    fun s tag force accepted => ⟨_, congrArg Host.Outcome.next (State.goodFrame_eq accepted 0x0A tag (startOwner force)), fun above => ?_,
      fun within other => ?_, fun within staged bare => ?_, fun within staged robots => ?_⟩⟩
  · exact State.refuses_of (by rw [armOwner, s.restartSilence_phase, if_pos other]) _ _
  · refine State.refuses_of ?_ _ _
    rw [armOwner, s.restartSilence_phase, if_neg (not_not.mpr setup), s.allVacant_restartSilence, s.allUndefined_restartSilence, if_pos]
    exact Bool.or_eq_true_iff.mpr (bare.imp s.allVacant_iff.mpr s.allUndefined_iff.mpr)
  · have answered : armOwner s.restartSilence = taken s.armed .empty := by
      rw [armOwner, s.restartSilence_phase, if_neg (not_not.mpr setup), s.allVacant_restartSilence, s.allUndefined_restartSilence, if_neg,
        State.restartSilence_setup s setup]
      · rfl
      · intro bare
        obtain ⟨k, filled⟩ := robots
        obtain ⟨i, defined⟩ := elements
        exact (Bool.or_eq_true_iff.mp bare).elim (fun all => filled (s.allVacant_iff.mp all k)) fun all => defined (s.allUndefined_iff.mp all i)
    rw [answered]
    refine ⟨(Answered.send_mch _ _ _).trans s.armed_mch, State.windowsEvaluated_send s.armed_windows _ _ _, State.answers_of rfl _ _ ?_ s.armed_hlp⟩
    rw [State.restartSilence_setup s setup]
    exact s.onlyChanges_armed
  · exact State.refuses_of (by rw [startOwner, yesNoOf_above above]) _ _
  · refine State.refuses_of ?_ _ _
    simp only [startOwner, yesNoOf_within within]
    rw [s.restartSilence_phase, if_pos other]
  · refine State.refuses_of ?_ _ _
    simp only [startOwner, yesNoOf_within within]
    rw [s.restartSilence_phase, if_neg (not_not.mpr staged), s.allVacant_restartSilence, if_pos (s.allVacant_iff.mpr bare)]
  · have some_ : ¬ s.allVacant = true := fun bare => by
      obtain ⟨k, filled⟩ := robots
      exact filled (s.allVacant_iff.mp bare k)
    have owner : startOwner force s.restartSilence = if s.someNotReady && !decide (force ≠ 0) then refuse s.restartSilence .notReady
        else taken s.restartSilence.startMatch .empty := by
      simp only [startOwner, yesNoOf_within within]
      rw [s.restartSilence_phase, if_neg (not_not.mpr staged), s.allVacant_restartSilence, if_neg some_, s.someNotReady_restartSilence]
    intro late
    refine ⟨fun zero behind => ?_, fun ready => ?_⟩
    · exact State.refuses_of (by rw [owner, if_pos (by simp [zero, s.someNotReady_iff.mpr behind])]) _ _
    · have answered : startOwner force s.restartSilence = taken s.restartSilence.startMatch .empty := by
        rw [owner, if_neg]
        intro both
        obtain ⟨behind, zero⟩ := Bool.and_eq_true_iff.mp both
        exact ready (by simpa using zero) (s.someNotReady_iff.mp behind)
      obtain ⟨mch, robot, limits, windows, only, hlp⟩ := s.restartSilence.startMatch_spec
      obtain ⟨_, _, restarted⟩ := s.restartSilence_timer
      have durations : s.restartSilence.mch.durations = s.mch.durations ∧ s.restartSilence.held = s.held := by
        rw [restarted]
        exact ⟨rfl, rfl⟩
      have opens (p : Phase) : s.restartSilence.openNotices p = s.openNotices p := by
        rw [State.openNotices_eq, State.openNotices_eq]
        exact List.flatMap_congr fun i _ => by rw [s.restartSilence_elem]
      rw [durations.1] at mch
      rw [durations.1, durations.2, opens, s.restartSilence_hlp] at hlp
      rw [s.restartSilence_frame.2.2.1] at limits
      intro first
      rw [answered]
      generalize s.restartSilence.startMatch = t at *
      refine ⟨(Answered.send_mch _ _ _).trans mch, fun k => ?_, ?_, ?_, State.answers_of rfl _ _ only hlp⟩
      · exact (Answered.send_robot ..).trans ((robot k).trans (congrArg RobotRecord.activated (s.restartSilence_robot k)))
      · exact (Answered.send_roster ..).trans limits
      · exact State.windowsEvaluated_send (State.windowsEvaluated_congr windows s.restartSilence_elem (by simp) (by simp) rfl rfl) _ _ _

end Sys2Proof.Machine

/-! Settles O47: the ends of the phases (R158, R159). -/
namespace Sys2Proof.Machine

/-! ## Claims emptied (R40, R137) -/

/-- A record whose claims were emptied. -/
def ElementRecord.unclaimed (r : ElementRecord) : ElementRecord :=
  { r with claim := ClaimPart.empty, part := if r.claim.holder.isSome then r.part.holderSeen false else r.part }

/-- The lamp drive of a station whose holder goes. -/
def departureLampOf (i : Index) (r : Option ElementRecord) : List BusAsk :=
  litChange i (litOf r) (litOf (r.map ElementRecord.unclaimed))

theorem State.elem_emptyClaim (s : State) (i j : Index) :
    (s.emptyClaim i).elem j = if j = i then (s.elem i).map ElementRecord.unclaimed else s.elem j := by
  unfold State.emptyClaim
  dsimp only
  cases stands : s.elem i with
  | none =>
    have free : s.holder i = none := by simp [State.holder, stands]
    rw [free, if_neg (by simp), State.elem_modClaim, stands]
    rfl
  | some r =>
    have holder : s.holder i = r.claim.holder := by simp [State.holder, stands]
    rw [holder]
    cases held : r.claim.holder with
    | none =>
      rw [if_neg (by simp), State.elem_modClaim, stands]
      simp [ElementRecord.unclaimed, held]
    | some k =>
      rw [if_pos Option.isSome_some, State.elem_holderChanged, State.elem_modClaim, State.elem_modClaim, if_pos rfl, stands]
      split <;> simp [ElementRecord.unclaimed, held, ClaimPart.empty]

theorem State.driven_emptyClaim (s : State) (i : Index) : s.driven (s.emptyClaim i) (departureLampOf i (s.elem i)) := by
  have after : (s.emptyClaim i).elem i = (s.elem i).map ElementRecord.unclaimed := by rw [State.elem_emptyClaim, if_pos rfl]
  have first : s.driven (s.modClaim i fun _ => ClaimPart.empty) [] :=
    State.driven_of_ebc (by simp [State.modClaim]) (by simp [State.modClaim])
  have before : litOf ((s.modClaim i fun _ => ClaimPart.empty).elem i) = litOf (s.elem i) := by
    rw [State.elem_modClaim, if_pos rfl]
    cases s.elem i <;> rfl
  rw [departureLampOf, ← after]
  unfold State.emptyClaim at *
  dsimp only at *
  split
  · have told := State.driven_holderChanged (s.modClaim i fun _ => ClaimPart.empty) i
    rw [State.litAt_eq, State.litAt_eq, before] at told
    exact first.trans told
  · rw [before, litChange_same]
    exact first

theorem State.departureLamps_eq (s : State) : s.departureLamps = indices.flatMap fun i => departureLampOf i (s.elem i) := by
  rw [State.departureLamps, List.filterMap_eq_flatMap_toList]
  refine List.flatMap_congr fun i _ => ?_
  cases stands : s.elem i with
  | none => simp [State.stationAt, stands, departureLampOf, litOf, litChange]
  | some r =>
    have holder : s.holder i = r.claim.holder := by simp [State.holder, stands]
    have lit : litOf (some r.unclaimed) = if r.claim.holder.isSome then litOf (some { r with part := r.part.holderSeen false })
        else litOf (some r) := by
      unfold ElementRecord.unclaimed
      split <;> rfl
    rw [departureLampOf, Option.map_some, lit, holder]
    cases held : r.claim.holder with
    | none =>
      simp only [Option.isSome_none, Bool.false_eq_true, if_false, false_and, litChange_same]
      split <;> rfl
    | some k =>
      rw [Option.isSome_some, if_pos rfl, litOf_holderSeen]
      cases part : r.part with
      | station p => cases mode : p.lampMode <;> cases lit : p.lit <;> simp [State.stationAt, stands, part, litOf, litChange, mode, lit, LampMode.lit]
      | _ => simp [State.stationAt, stands, part]

/-- The claims of the whole field emptied: the records, the notice and the bus. -/
theorem State.emptyClaims_spec (s : State) :
    (∀ i, s.emptyClaims.elem i = (s.elem i).map ElementRecord.unclaimed)
      ∧ s.emptyClaims.hlp = s.hlp.raise (.claim (.cleared s.holders s.waitersTotal)) ∧ s.driven s.emptyClaims s.departureLamps := by
  obtain ⟨_, elem, hlp⟩ := State.eachIndex_walk (fun _ => True) (fun i t => t.emptyClaim i) (fun _ r => r.map ElementRecord.unclaimed)
    (fun _ _ => []) (fun _ _ _ => trivial) (fun i t j _ => t.elem_emptyClaim i j) (fun i t _ => by simp) s trivial
  have drives := State.eachIndex_driven (P := fun _ => True) (f := fun i t => t.emptyClaim i) (g := fun _ r => r.map ElementRecord.unclaimed)
    (fun _ _ _ => trivial) (fun i t j _ => t.elem_emptyClaim i j) (fun i t _ => t.driven_emptyClaim i) (s := s) trivial
  have none_ : (indices.flatMap fun _ => ([] : List Notice)) = [] := List.flatMap_eq_nil_iff.mpr (by simp)
  rw [none_, Hlp.raiseAll_nil] at hlp
  refine ⟨fun i => ?_, ?_, ?_⟩
  · rw [State.emptyClaims, State.elem_raiseClaim, elem]
  · rw [State.emptyClaims, State.raiseClaim_hlp, hlp]
  · rw [State.departureLamps_eq]
    exact drives.still (by simp [State.emptyClaims]) (by simp [State.emptyClaims])

/-! ## The entry to ENDED (Table 8-4) -/

theorem windowDesired_ended (control : WindowControl) (set : BitVec 4) : windowDesired control set .ended = false := rfl

/-- At ENDED a goal asks for a closing poll when its window was open, and nothing else. -/
theorem windowAsksOf_ended (i : Index) (r : ElementRecord) : windowAsksOf .ended i (some r) =
    match r.part with
    | .goal p => if p.window = .opened then [.closing i] else []
    | _ => [] := by
  unfold windowAsksOf
  cases part : r.part with
  | goal p =>
    cases window : p.window with
    | closed => simp [part, GoalPart.evaluated_closed window, windowDesired_ended, window]
    | opened => simp [part, GoalPart.evaluated_opened window, windowDesired_ended]
    | closing => simp [part, GoalPart.evaluated_closing window, window]
  | _ => simp [part]

theorem KindPart.holderSeen_goal {part : KindPart} {p : GoalPart} (held : Bool) : part.holderSeen held = .goal p ↔ part = .goal p := by
  cases part <;> simp [KindPart.holderSeen]

theorem ElementRecord.unclaimed_goal {r : ElementRecord} {p : GoalPart} : r.unclaimed.part = .goal p ↔ r.part = .goal p := by
  unfold ElementRecord.unclaimed
  split
  · exact KindPart.holderSeen_goal false
  · rfl

theorem ElementRecord.atEnd_eq (r : ElementRecord) : r.atEnd = { r.unclaimed with part := r.unclaimed.part.evaluated .ended } := rfl

/-- The evaluation at ENDED asks the same before and after the claims were emptied. -/
theorem windowAsksOf_unclaimed (i : Index) (r : Option ElementRecord) :
    windowAsksOf .ended i (r.map ElementRecord.unclaimed) = windowAsksOf .ended i r := by
  cases r with
  | none => rfl
  | some r =>
    rw [Option.map_some, windowAsksOf_ended, windowAsksOf_ended]
    cases part : r.part with
    | goal p => rw [ElementRecord.unclaimed_goal.mpr part]
    | _ =>
      cases after : r.unclaimed.part with
      | goal p => rw [ElementRecord.unclaimed_goal.mp after] at part; cases part
      | _ => rfl

theorem openNotice_ended (i : Index) (r : Option ElementRecord) : openNotice .ended i r = [] := by
  unfold openNotice
  split
  · split
    · simp [windowDesired_ended]
    · rfl
  · rfl

/-- A goal's window is CLOSING after the entry to ENDED when it was open or closing before it. -/
theorem ElementRecord.atEnd_closing (r : ElementRecord) :
    (match r.atEnd.part with
      | .goal p => p.window == WindowState.closing
      | _ => false)
    = match r.part with
      | .goal p => p.window == WindowState.opened || p.window == WindowState.closing
      | _ => false := by
  rw [ElementRecord.atEnd_eq]
  cases part : r.part with
  | goal p =>
    simp only [ElementRecord.unclaimed_goal.mpr part, KindPart.evaluated]
    cases window : p.window with
    | closed => simp [GoalPart.evaluated_closed window, windowDesired_ended, window]
    | opened => simp [GoalPart.evaluated_opened window, windowDesired_ended]
    | closing => simp [GoalPart.evaluated_closing window, window]
  | _ =>
    cases after : r.unclaimed.part with
    | goal p => rw [ElementRecord.unclaimed_goal.mp after] at part; cases part
    | _ => simp [KindPart.evaluated]

theorem State.closingGoals_atEnd {s t : State} (elem : ∀ i, t.elem i = (s.elem i).map ElementRecord.atEnd) : t.closingGoals = s.closingAtEnd := by
  refine List.filter_congr fun i _ => ?_
  rw [State.goalAt_eq, State.goalAt_eq, elem]
  cases s.elem i with
  | none => rfl
  | some r =>
    have closes := r.atEnd_closing
    simp only [Option.map_some, Option.bind_some]
    cases after : r.atEnd.part <;> cases before : r.part <;> simp_all

/-- The check for the final snapshot depends on the tally unit, the match time and the phase alone. -/
theorem State.finalTaken_congr {s t : State} (tu : t.tu = s.tu) (phase : t.mch.phase = s.mch.phase) (time : t.mch.matchTime = s.mch.matchTime)
    (wait : List Index) : t.finalTaken wait = s.finalTaken wait ∧ t.finalNotices wait = s.finalNotices wait := by
  unfold State.finalTaken State.finalNotices State.imageNow
  rw [tu, phase, time]
  exact ⟨rfl, rfl⟩

theorem State.onlyChanges_enterEnded (s : State) (cause : PhaseCause) :
    s.onlyChanges (s.enterEnded cause) [.hlp, .roster, .elems, .ebc, .mch, .tu] :=
  fun b other => by cases b <;> simp_all [State.sameBlock]

/-- The entry to ENDED. -/
theorem State.enterEnded_spec (s : State) (cause : PhaseCause) :
    s.ends (s.enterEnded cause) ∧ (s.enterEnded cause).hlp = s.hlp.raiseAll (s.endNotices cause) := by
  obtain ⟨a, entered⟩ : ∃ a, a = s.setPhase .ended cause 0 := ⟨_, rfl⟩
  have blocks : a.elem = s.elem ∧ a.roster = s.roster ∧ a.ebc = s.ebc ∧ a.now = s.now ∧ a.tu = s.tu
      ∧ a.mch = { s.mch with phase := .ended, remaining := 0 } ∧ a.hlp = s.hlp.raise (.phase .ended cause s.mch.matchTime 0 s.held) := by
    rw [entered]
    exact ⟨rfl, rfl, rfl, rfl, rfl, rfl, rfl⟩
  obtain ⟨elem₁, roster₁, ebc₁, now₁, tu₁, mch₁, hlp₁⟩ := blocks
  obtain ⟨elem₂, hlp₂, drives₂⟩ := a.emptyClaims_spec
  obtain ⟨robots₃, limits₃⟩ := a.emptyClaims.robotsToReady_spec
  obtain ⟨hlp₃, _, elems₃, ebc₃, mch₃, tu₃, now₃, _⟩ := a.emptyClaims.robotsToReady_frame
  obtain ⟨b, ready⟩ : ∃ b, b = a.emptyClaims.robotsToReady := ⟨_, rfl⟩
  rw [← ready] at robots₃ limits₃ hlp₃ elems₃ ebc₃ mch₃ tu₃ now₃
  have mchb : b.mch = { s.mch with phase := .ended, remaining := 0 } := by rw [mch₃]; simp [mch₁]
  have tub : b.tu = s.tu := by rw [tu₃]; simp [tu₁]
  have elemb (i : Index) : b.elem i = (s.elem i).map ElementRecord.unclaimed := by rw [State.elem_of_elems elems₃, elem₂, elem₁]
  obtain ⟨elem₄, hlp₄⟩ := b.evaluateWindows_spec
  have drives₄ := b.driven_evaluateWindows
  rw [mchb] at elem₄ hlp₄ drives₄
  obtain ⟨c, evaluated⟩ : ∃ c, c = b.evaluateWindows := ⟨_, rfl⟩
  have kept : c.mch = b.mch ∧ c.tu = b.tu ∧ c.roster = b.roster := by rw [evaluated]; simp
  obtain ⟨mchc, tuc, rosterc⟩ := kept
  rw [← evaluated] at elem₄ hlp₄ drives₄
  have elemc (i : Index) : c.elem i = (s.elem i).map ElementRecord.atEnd := by
    rw [elem₄, elemb, Option.map_map]
    rfl
  have closing : c.closingGoals = s.closingAtEnd := State.closingGoals_atEnd elemc
  have last : s.enterEnded cause = c.awaitFinal s.closingAtEnd := by
    rw [← closing, evaluated, ready, entered]
    rfl
  obtain ⟨tu₅, hlp₅⟩ := c.awaitFinal_spec s.closingAtEnd
  obtain ⟨d, ended⟩ : ∃ d, d = c.awaitFinal s.closingAtEnd := ⟨_, rfl⟩
  have still : d.mch = c.mch ∧ d.roster = c.roster ∧ d.elems = c.elems ∧ d.ebc = c.ebc ∧ d.now = c.now := by rw [ended]; simp
  obtain ⟨mchd, rosterd, elemsd, ebcd, nowd⟩ := still
  have only := s.onlyChanges_enterEnded cause
  rw [last] at only ⊢
  rw [← ended] at only tu₅ hlp₅ ⊢
  have lamps : a.departureLamps = s.departureLamps := by rw [State.departureLamps_eq, State.departureLamps_eq, elem₁]
  have asks : b.windowAsks .ended = s.windowAsks .ended := by
    rw [State.windowAsks_eq, State.windowAsks_eq]
    exact List.flatMap_congr fun i _ => by rw [elemb, windowAsksOf_unclaimed]
  rw [lamps] at drives₂
  rw [asks] at drives₄
  have drives : s.driven d (s.departureLamps ++ s.windowAsks .ended) :=
    (((State.driven_of_ebc ebc₁ now₁).trans (drives₂.still ebc₃ now₃)).trans drives₄).still ebcd nowd
  have rosterr : d.roster = b.roster := rosterd.trans rosterc
  have robots (k : Slot) : d.robot k = (s.robot k).readied := by
    rw [State.robot_of_roster rosterr, robots₃, State.robot_of_roster (s := a) (by simp), State.robot_of_roster roster₁]
  have limits : d.roster = { s.roster with robots := d.roster.robots } := by
    rw [rosterr, limits₃]
    simp [roster₁]
  obtain ⟨taken_, told⟩ := State.finalTaken_congr (s := { s with mch := { s.mch with phase := .ended, remaining := 0 } }) (t := c)
    (tuc.trans tub) (by rw [mchc, mchb]) (by rw [mchc, mchb]) s.closingAtEnd
  refine ⟨⟨only, mchd.trans (mchc.trans mchb), fun i => (congrFun (State.elem_of_elems elemsd) i).trans (elemc i), fun i p goal opened _ => ?_,
    drives.1, robots, limits, tu₅.trans taken_⟩, ?_⟩
  · obtain ⟨r, stands, part⟩ := State.goal_some goal
    have here : BusAsk.closing i ∈ windowAsksOf .ended i (s.elem i) := by
      rw [stands, windowAsksOf_ended, part]
      simp [opened]
    refine drives.isAsked (q := .closing i) (List.mem_append_right _ (State.windowAsks_alone here).1) fun x _ drives => ?_
    cases x <;> exact drives
  · have opens : b.openNotices .ended = [] := by
      rw [State.openNotices_eq]
      exact List.flatMap_eq_nil_iff.mpr fun i _ => openNotice_ended i _
    have counts : a.holders = s.holders ∧ a.waitersTotal = s.waitersTotal := by
      unfold State.holders State.waitersTotal State.holder State.waiters
      rw [elem₁]
      exact ⟨rfl, rfl⟩
    rw [hlp₅, told, hlp₄, opens, hlp₃, hlp₂, counts.1, counts.2, hlp₁]
    rfl

end Sys2Proof.Machine

/-! Settles O47: END-MATCH and the running out of a phase (R158, R159). -/
namespace Sys2Proof.Machine

theorem State.onlyChanges_enterNext (s : State) (p : Phase) (remaining : Nat) :
    s.onlyChanges (s.enterNext p remaining) [.hlp, .elems, .ebc, .mch] :=
  fun b other => by cases b <;> simp_all [State.sameBlock, State.enterNext, State.setPhase]

/-- The entry to the next match phase. -/
theorem State.enterNext_spec (s : State) (p : Phase) (remaining : Nat) :
    s.onlyChanges (s.enterNext p remaining) [.hlp, .elems, .ebc, .mch]
      ∧ (s.enterNext p remaining).mch = { s.mch with phase := p, remaining := remaining } ∧ s.windowsEvaluated (s.enterNext p remaining)
      ∧ (s.enterNext p remaining).hlp = s.hlp.raiseAll (.phase p .ranOut s.mch.matchTime remaining s.held :: s.openNotices p) := by
  refine ⟨s.onlyChanges_enterNext p remaining, by simp [State.enterNext, State.setPhase], ?_, s.evaluateWindows_notices p .ranOut remaining⟩
  refine State.windowsEvaluated_of (u := s.setPhase p .ranOut remaining) (fun i => ?_) (State.driven_of_ebc ?_ ?_) rfl rfl ?_ ?_
  all_goals simp [State.setPhase, State.enterNext]

/-- The next phase that has a duration, phase by phase. -/
theorem State.runOut_eq {s : State} (playing : s.mch.phase.inMatch = true) : s.runOut =
    if s.mch.phase = .opening ∧ s.mch.durations.transition ≠ 0 then s.enterNext .transition s.mch.durations.transition
    else if (s.mch.phase = .opening ∨ s.mch.phase = .transition) ∧ s.mch.durations.play ≠ 0 then s.enterNext .play s.mch.durations.play
    else if s.mch.phase ≠ .finale ∧ s.mch.durations.finale ≠ 0 then s.enterNext .finale s.mch.durations.finale
    else s.enterEnded .ranOut := by
  unfold State.runOut
  by_cases transition : s.mch.durations.transition = 0 <;> by_cases play : s.mch.durations.play = 0 <;>
    by_cases finale : s.mch.durations.finale = 0
  all_goals cases phase : s.mch.phase <;> simp_all [Durations.after, Phase.inMatch]

theorem State.endNotices_restartSilence (s : State) (cause : PhaseCause) : s.restartSilence.endNotices cause = s.endNotices cause := by
  obtain ⟨_, _, restarted⟩ := s.restartSilence_timer
  rw [restarted]
  rfl

theorem State.ends_send {s u : State} (ends : s.ends u) (body : ReplyBody) (kind tag : Byte) : s.ends ((taken u body).send kind tag) := by
  obtain ⟨only, mch, elem, closes, bus, robots, limits, tu⟩ := ends
  exact ⟨State.onlyChanges_trans only (State.onlyChanges_send (taken u body) kind tag) (by simp), mch, elem, closes, bus, robots, limits, tu⟩

/-- Settles O47: both ways out of a match phase. -/
theorem phasesEnd : Obligations.PhasesEnd := by
  refine ⟨fun s tag accepted => ⟨_, congrArg Host.Outcome.next (State.goodFrame_eq accepted 0x0B tag endMatchOwner), fun outside => ?_, fun playing => ?_⟩,
    fun s runs due => ⟨s.runOut, ?_, ?_⟩⟩
  · exact State.refuses_of (by rw [endMatchOwner, s.restartSilence_phase, outside, if_neg Bool.false_ne_true]) _ _
  · have answered : endMatchOwner s.restartSilence = taken (s.restartSilence.enterEnded .endMatch) .empty := by
      rw [endMatchOwner, s.restartSilence_phase, if_pos playing]
    obtain ⟨ends, hlp⟩ := s.restartSilence.enterEnded_spec .endMatch
    rw [s.restartSilence_hlp, s.endNotices_restartSilence] at hlp
    rw [answered]
    generalize s.restartSilence.enterEnded .endMatch = t at *
    exact ⟨State.ends_send ends _ _ _, Hlp.answer_of rfl hlp _ _⟩
  · exact congrArg Host.Outcome.next (if_pos (by rw [runs, decide_eq_true due]; rfl))
  · have playing : s.mch.phase.inMatch = true := (Bool.and_eq_true_iff.mp runs).1
    have leads := State.runOut_eq playing
    generalize s.runOut = t at *
    have next {p : Phase} {remaining : Nat} (entered : t = s.enterNext p remaining) :=
      entered.symm ▸ s.enterNext_spec p remaining
    have ended (entered : t = s.enterEnded .ranOut) := entered.symm ▸ s.enterEnded_spec .ranOut
    intro d enters
    split
    · next early =>
      rw [if_pos early] at leads
      exact next leads
    · next early =>
      rw [if_neg early] at leads
      split
      · next middle =>
        rw [if_pos middle] at leads
        exact next leads
      · next middle =>
        rw [if_neg middle] at leads
        split
        · next late =>
          rw [if_pos late] at leads
          exact next leads
        · next late =>
          rw [if_neg late] at leads
          exact ended leads

end Sys2Proof.Machine

/-! What CLEAR-MATCH does to the records, the robots and the bus (R18, R67, R99, R130, R138, R151). -/
namespace Sys2Proof.Machine

/-! ## The records -/

/-- A station part after CLEAR-MATCH (R138). -/
def StationPart.cleared (p : StationPart) : StationPart :=
  { p with control := .auto, windowOpen := false, accrual := 0, trespassEpisode := false }

/-- A kind part whose HALTED carriage CLEAR-MATCH stops (R151). -/
def KindPart.unhalted : KindPart → KindPart
  | .carriage p => if p.runState = .halted then .carriage (p.stand .stopped) else .carriage p
  | .goal p => .goal p
  | .gate p => .gate p
  | .station p => .station p

/-- The four walks of CLEAR-MATCH over a record. -/
theorem ElementRecord.cleared_eq (r : ElementRecord) : r.cleared =
    let walked := (r.onGoal fun p => p.cleared.relit).onStation StationPart.cleared
    { walked with sticky := walked.sticky.afterClearMatch, part := walked.part.unhalted } := by
  obtain ⟨address, alliance, state, failures, epoch, reading, pollPeriod, faultHolds, holdLimit, guardTime, sticky, claim, part⟩ := r
  cases part with
  | goal p => cases mode : p.lampMode <;> simp [ElementRecord.cleared, ElementRecord.onGoal, ElementRecord.onStation, GoalPart.cleared,
      GoalPart.relit, KindPart.unhalted, LampMode.lit, Sticky.afterClearMatch, mode]
  | station p => simp [ElementRecord.cleared, ElementRecord.onGoal, ElementRecord.onStation, StationPart.cleared, KindPart.unhalted,
      Sticky.afterClearMatch]
  | gate p => simp [ElementRecord.cleared, ElementRecord.onGoal, ElementRecord.onStation, KindPart.unhalted, Sticky.afterClearMatch]
  | carriage p => simp [ElementRecord.cleared, ElementRecord.onGoal, ElementRecord.onStation, KindPart.unhalted, Sticky.afterClearMatch,
      CarriagePart.stand]

theorem State.elem_clearGoal (s : State) (i j : Index) : (s.clearGoal i).elem j =
    if j = i then (s.elem i).map (ElementRecord.onGoal fun p => p.cleared.relit) else s.elem j := by
  rw [State.clearGoal, State.elem_relightGoal]
  by_cases here : j = i
  · subst here
    rw [if_pos rfl, if_pos rfl, State.elem_modGoal, if_pos rfl, Option.map_map]
    refine congrArg (fun f => (s.elem j).map f) (funext fun r => ?_)
    cases part : r.part <;> simp [ElementRecord.onGoal, part]
  · rw [if_neg here, if_neg here, State.elem_modGoal, if_neg here]

theorem State.elem_clearStation (s : State) (i j : Index) : (s.clearStation i).elem j =
    if j = i then (s.elem i).map (ElementRecord.onStation StationPart.cleared) else s.elem j := s.elem_modStation i j _

theorem State.elem_stopHalted (s : State) (i j : Index) : (s.stopHalted i).elem j =
    if j = i then (s.elem i).map fun r => { r with part := r.part.unhalted } else s.elem j := by
  have same (r : ElementRecord) (stands : s.elem i = some r) (still : r.part.unhalted = r.part) :
      s.elem j = if j = i then (s.elem i).map fun r => { r with part := r.part.unhalted } else s.elem j := by
    split
    · next here => rw [here, stands, Option.map_some, still]
    · rfl
  unfold State.stopHalted State.carriageAt
  cases stands : s.elem i with
  | none => by_cases here : j = i <;> simp [here, stands]
  | some r =>
    rw [← stands]
    cases part : r.part with
    | carriage p =>
      by_cases halted : p.runState = .halted
      · have new : ElementRecord.setPart r (.carriage (p.stand .stopped)) = { r with part := r.part.unhalted } := by
          simp [ElementRecord.setPart, part, KindPart.unhalted, halted]
        simp only [stands, part, halted, if_true, State.setCarriage]
        rw [State.elem_setPart_of_defined stands, new, Option.map_some]
      · simpa [stands, part, halted] using same r stands (by rw [part]; simp [KindPart.unhalted, halted])
    | _ => simpa [stands, part] using same r stands (by rw [part]; rfl)

/-! ## The lamps (R125, R130) -/

/-- A lamp worked out again touches the bus by the drive of its change alone. -/
theorem State.driven_relightGoal_any (s : State) (i : Index) :
    s.driven (s.relightGoal i) (litChange i (litOf (s.elem i)) (litOf ((s.elem i).map (ElementRecord.onGoal GoalPart.relit)))) := by
  cases goal : s.goalAt i with
  | none =>
    have same := State.goal_none goal GoalPart.relit
    rw [same, litChange_same, State.relightGoal, goal]
    exact State.driven_of_ebc rfl rfl
  | some p =>
    obtain ⟨r, stands, part⟩ := State.goal_some goal
    have drives := State.driven_relightGoal goal
    rw [stands]
    simpa [litOf, part, ElementRecord.onGoal] using drives

theorem State.driven_clearGoal (s : State) (i : Index) : s.driven (s.clearGoal i)
    (litChange i (litOf (s.elem i)) (litOf ((s.elem i).map (ElementRecord.onGoal fun p => p.cleared.relit)))) := by
  have first : s.driven (s.modGoal i GoalPart.cleared) [] := State.driven_of_ebc (by simp) (by simp)
  have lamp := (s.modGoal i GoalPart.cleared).driven_relightGoal_any i
  rw [State.elem_modGoal, if_pos rfl, Option.map_map] at lamp
  have before : litOf ((s.elem i).map (ElementRecord.onGoal GoalPart.cleared)) = litOf (s.elem i) := by
    cases s.elem i with
    | none => rfl
    | some r => cases part : r.part <;> simp [litOf, ElementRecord.onGoal, part, GoalPart.cleared]
  have after : (ElementRecord.onGoal GoalPart.relit ∘ ElementRecord.onGoal GoalPart.cleared)
      = ElementRecord.onGoal fun p => p.cleared.relit := by
    funext r
    cases part : r.part <;> simp [ElementRecord.onGoal, part]
  rw [before, after] at lamp
  exact first.trans lamp

/-! ## The closing roles (R99) -/

/-- The bookkeeping of every index changed. -/
theorem State.eachIndex_modSched (s : State) (f : Sched → Sched) :
    (s.eachIndex fun i u => u.modSched i f).ebc = { s.ebc with sched := s.ebc.sched.map f } := by
  have walk (l : List Index) : l.Nodup → ∀ t : State, (l.foldl (fun u i => u.modSched i f) t).ebc
      = { t.ebc with sched := (l.foldl (fun u i => u.modSched i f) t).ebc.sched }
      ∧ ∀ j, (l.foldl (fun u i => u.modSched i f) t).sched j = if j ∈ l then f (t.sched j) else t.sched j := by
    induction l with
    | nil => exact fun _ t => ⟨rfl, fun j => by simp⟩
    | cons i l ih =>
      intro once t
      obtain ⟨fresh, once⟩ := List.nodup_cons.mp once
      obtain ⟨rest, marks⟩ := ih once (t.modSched i f)
      refine ⟨rest, fun j => ?_⟩
      rw [List.foldl_cons, marks, State.sched_modSched]
      by_cases here : j = i
      · subst here
        simp [fresh]
      · simp [here]
  obtain ⟨rest, marks⟩ := walk indices (List.nodup_finRange 48) s
  unfold State.eachIndex
  generalize indices.foldl (fun u i => u.modSched i f) s = u at *
  rw [rest]
  refine congrArg (fun sched => ({ s.ebc with sched := sched } : Ebc)) ?_
  ext i below
  have mark := marks ⟨i, below⟩
  rw [if_pos (show (⟨i, below⟩ : Index) ∈ indices from List.mem_finRange _)] at mark
  rw [Vector.getElem_map]
  exact mark

theorem State.clearRoles_ebc (s : State) : s.clearRoles.ebc = { s.ebc with
    queue := s.ebc.queue.map s.refreshRole, inFlight := s.ebc.inFlight.map InFlight.refreshRole
    sched := s.ebc.sched.map Sched.refreshMark } := by
  rw [State.clearRoles, State.eachIndex_modSched]
  rfl

theorem State.refreshRole_eq (s : State) (e : Entry) : s.refreshRole e =
    if e.op = .poll .closing then { e with op := .poll .refresh, cls := if s.waitedItsPeriod e then .control else .refresh } else e := by
  unfold State.refreshRole
  split <;> simp_all

theorem InFlight.refreshRole_eq (f : InFlight) : f.refreshRole =
    if f.entry.op = .poll .closing then { f with entry := { f.entry with op := .poll .refresh } } else f := by
  unfold InFlight.refreshRole
  split <;> simp_all

theorem State.refreshRole_notClosing (s : State) (e : Entry) : (s.refreshRole e).op ≠ .poll .closing := by
  rw [State.refreshRole_eq]
  split
  · simp
  · next other => exact other

theorem InFlight.refreshRole_notClosing (f : InFlight) : f.refreshRole.entry.op ≠ .poll .closing := by
  rw [InFlight.refreshRole_eq]
  split
  · simp
  · next other => exact other

theorem Sched.refreshMark_notClosing (c : Sched) : c.refreshMark.closingWanted = false := by
  unfold Sched.refreshMark
  split
  · rfl
  · next other => simpa using other

end Sys2Proof.Machine

/-! Settles O48: CLEAR-MATCH (R160). -/
namespace Sys2Proof.Machine

/-- A robot record after CLEAR-MATCH (R67). -/
def RobotRecord.pardoned (r : RobotRecord) : RobotRecord :=
  { r with state := if r.state = .ejected then .linked else r.state, ejectedMark := false }

theorem State.clearEjections_spec (s : State) :
    (∀ k, s.clearEjections.robot k = (s.robot k).pardoned)
      ∧ s.clearEjections.roster = { s.roster with robots := s.clearEjections.roster.robots } := by
  unfold State.clearEjections
  exact State.eachSlot_robots (g := RobotRecord.pardoned) (fun k t j => t.robot_modRobot k j _) (fun k t => rfl) s fun k t => rfl

/-- The walk of a function over every record. -/
theorem State.eachIndex_records {f : Index → State → State} {g : ElementRecord → ElementRecord}
    (elem : ∀ i t j, (f i t).elem j = if j = i then (t.elem i).map g else t.elem j) (hlp : ∀ i t, (f i t).hlp = t.hlp) (s : State) :
    (∀ j, (s.eachIndex f).elem j = (s.elem j).map g) ∧ (s.eachIndex f).hlp = s.hlp := by
  obtain ⟨_, records, notices⟩ := State.eachIndex_walk (fun _ => True) f (fun _ r => r.map g) (fun _ _ => []) (fun _ _ _ => trivial)
    (fun i t j _ => elem i t j) (fun i t _ => by rw [hlp]; rfl) s trivial
  have none_ : (indices.flatMap fun _ => ([] : List Notice)) = [] := List.flatMap_eq_nil_iff.mpr (by simp)
  exact ⟨records, by rw [notices, none_, Hlp.raiseAll_nil]⟩

/-- The SHEET_DONE of a send that CLEAR-MATCH stops (R179). -/
def State.stopNotices (s : State) : List Notice :=
  match s.tu.sending, s.tu.image with
  | some d, some m => [.sheetDone m.number d.order m.isFinal m.totals d.parts true]
  | _, _ => []

theorem State.clearTally_spec (s : State) :
    s.clearTally.tu = { s.tu with cells := Vector.replicate 1344 Cell.zero, totals := Totals.zero, image := none, sending := none
                                  finalWait := none }
      ∧ s.clearTally.hlp = s.hlp.raiseAll s.stopNotices := by
  unfold State.clearTally State.endSend State.stopNotices
  cases sending : s.tu.sending with
  | none => exact ⟨by simp [sending], rfl⟩
  | some d => cases image : s.tu.image <;> exact ⟨rfl, rfl⟩

/-- CLEAR-MATCH lights a lamp anew for a goal alone. -/
theorem ElementRecord.litOf_cleared (r : ElementRecord) :
    litOf (some r.cleared) = litOf (some (r.onGoal fun p => p.cleared.relit)) := by
  cases part : r.part with
  | goal p => cases mode : p.lampMode <;> simp [litOf, ElementRecord.cleared, ElementRecord.onGoal, part, GoalPart.cleared, GoalPart.relit,
      LampMode.lit, mode]
  | carriage p => by_cases halted : p.runState = .halted <;> simp [litOf, ElementRecord.cleared, ElementRecord.onGoal, part, halted]
  | _ => simp [litOf, ElementRecord.cleared, ElementRecord.onGoal, part]

/-- What the parts report of the clearing: the records, the robots, the tally, the notices and the bus. -/
theorem State.reportClear_spec (s : State) :
    (∀ i, s.reportClear.elem i = (s.elem i).map ElementRecord.cleared) ∧ (∀ k, s.reportClear.robot k = (s.robot k).pardoned)
      ∧ s.reportClear.roster = { s.roster with robots := s.reportClear.roster.robots } ∧ s.reportClear.mch = s.mch
      ∧ s.reportClear.tu = s.clearTally.tu ∧ s.reportClear.hlp = s.hlp.raiseAll s.stopNotices
      ∧ ∃ w : State, w.ebc = (s.asksLamps (s.lampChanges s.reportClear)).ebc ∧ w.now = s.now
          ∧ (∀ i, (w.elem i).map ElementRecord.pollPeriod = (s.elem i).map ElementRecord.pollPeriod)
          ∧ s.reportClear.ebc = w.clearRoles.ebc := by
  obtain ⟨a, tally⟩ : ∃ a, a = s.clearTally := ⟨_, rfl⟩
  obtain ⟨b, goals⟩ : ∃ b, b = a.eachIndex fun i u => u.clearGoal i := ⟨_, rfl⟩
  obtain ⟨c, stations⟩ : ∃ c, c = b.eachIndex fun i u => u.clearStation i := ⟨_, rfl⟩
  obtain ⟨d, robots⟩ : ∃ d, d = c.clearEjections := ⟨_, rfl⟩
  obtain ⟨e, flags⟩ : ∃ e, e = d.eachIndex fun i u => u.modSticky i Sticky.afterClearMatch := ⟨_, rfl⟩
  obtain ⟨f, roles⟩ : ∃ f, f = e.clearRoles := ⟨_, rfl⟩
  obtain ⟨t, halts⟩ : ∃ t, t = f.eachIndex fun i u => u.stopHalted i := ⟨_, rfl⟩
  have reports : s.reportClear = t := by rw [halts, roles, flags, robots, stations, goals, tally]; rfl
  obtain ⟨elemb, hlpb⟩ := State.eachIndex_records (fun i u j => u.elem_clearGoal i j) (fun i u => by simp) a
  obtain ⟨elemc, hlpc⟩ := State.eachIndex_records (fun i u j => u.elem_clearStation i j) (fun i u => by simp) b
  obtain ⟨eleme, hlpe⟩ := State.eachIndex_records (g := fun r => { r with sticky := r.sticky.afterClearMatch })
    (fun i u j => u.elem_modSticky i j Sticky.afterClearMatch) (fun i u => by simp) d
  obtain ⟨elemt, hlpt⟩ := State.eachIndex_records (fun i u j => u.elem_stopHalted i j) (fun i u => by simp) f
  obtain ⟨robotd, limitd⟩ := c.clearEjections_spec
  obtain ⟨hlpd, _, elemd, ebcd, mchd, tud, nowd, _⟩ := c.clearEjections_frame
  obtain ⟨hlpf, _, rosterf, elemf, mchf, tuf, nowf, _⟩ := e.clearRoles_frame
  have kept : (a.elems = s.elems ∧ a.ebc = s.ebc ∧ a.now = s.now ∧ a.roster = s.roster ∧ a.mch = s.mch)
      ∧ (b.roster = a.roster ∧ b.mch = a.mch ∧ b.tu = a.tu) ∧ (c.ebc = b.ebc ∧ c.now = b.now ∧ c.roster = b.roster ∧ c.mch = b.mch ∧ c.tu = b.tu)
      ∧ (e.ebc = d.ebc ∧ e.now = d.now ∧ e.roster = d.roster ∧ e.mch = d.mch ∧ e.tu = d.tu)
      ∧ t.ebc = f.ebc ∧ t.roster = f.roster ∧ t.mch = f.mch ∧ t.tu = f.tu := by
    refine ⟨?_, ?_, ?_, ?_, ?_⟩
    · rw [tally]; simp
    · rw [goals]; simp
    · rw [stations]; simp
    · rw [flags]; simp
    · rw [halts]; simp
  obtain ⟨⟨elemsa, ebca, nowa, rostera, mcha⟩, ⟨rosterb, mchb, tub⟩, ⟨ebcc, nowc, rosterc, mchc, tuc⟩, ⟨ebce, nowe, rostere, mche, tue⟩,
    ebct, rostert, mcht, tut⟩ := kept
  rw [← goals] at elemb hlpb
  rw [← stations] at elemc hlpc
  rw [← robots] at robotd limitd hlpd elemd ebcd mchd tud nowd
  rw [← flags] at eleme hlpe
  rw [← roles] at hlpf rosterf elemf mchf tuf nowf
  rw [← halts] at elemt hlpt
  have elem (i : Index) : t.elem i = (s.elem i).map ElementRecord.cleared := by
    rw [elemt, State.elem_of_elems elemf, eleme, State.elem_of_elems elemd, elemc, elemb, State.elem_of_elems elemsa, Option.map_map,
      Option.map_map, Option.map_map]
    refine congrArg (fun f => (s.elem i).map f) (funext fun r => ?_)
    exact r.cleared_eq.symm
  have robotsAfter : t.roster = d.roster := rostert.trans (rosterf.trans rostere)
  have robotsBefore : c.roster = s.roster := rosterc.trans (rosterb.trans rostera)
  have drives := State.eachIndex_driven (P := fun _ => True) (f := fun i u => u.clearGoal i)
    (g := fun _ r => r.map (ElementRecord.onGoal fun p => p.cleared.relit))
    (asks := fun i r => litChange i (litOf r) (litOf (r.map (ElementRecord.onGoal fun p => p.cleared.relit))))
    (fun _ _ _ => trivial) (fun i u j _ => u.elem_clearGoal i j) (fun i u _ => u.driven_clearGoal i) (s := a) trivial
  rw [← goals] at drives
  have lit (i : Index) : t.litAt i = litOf ((s.elem i).map (ElementRecord.onGoal fun p => p.cleared.relit)) := by
    rw [State.litAt_eq, elem]
    cases s.elem i with
    | none => rfl
    | some r => exact r.litOf_cleared
  have asks : (indices.flatMap fun i => litChange i (litOf (a.elem i)) (litOf ((a.elem i).map (ElementRecord.onGoal fun p => p.cleared.relit))))
      = indices.flatMap fun i => litChange i (s.litAt i) (t.litAt i) :=
    List.flatMap_congr fun i _ => by rw [lit, State.litAt_eq, State.elem_of_elems elemsa]
  rw [asks] at drives
  have drives : s.driven e (indices.flatMap fun i => litChange i (s.litAt i) (t.litAt i)) :=
    ((State.driven_of_ebc ebca nowa).trans drives).still (ebce.trans (ebcd.trans ebcc)) (nowe.trans (nowd.trans nowc))
  obtain ⟨talliesTu, talliesHlp⟩ := s.clearTally_spec
  rw [reports]
  refine ⟨elem, fun k => ?_, ?_, ?_, ?_, ?_, e, ?_, drives.2, fun i => ?_, ?_⟩
  · rw [State.robot_of_roster robotsAfter, robotd, State.robot_of_roster robotsBefore]
  · rw [robotsAfter, limitd, robotsBefore]
  · rw [mcht, mchf, mche, mchd, mchc, mchb, mcha]
  · rw [tut, tuf, tue, tud, tuc, tub, tally]
  · rw [hlpt, hlpf, hlpe, hlpd, hlpc, hlpb, tally, talliesHlp]
  · rw [drives.1, State.asksLamps_eq, State.lampChanges_asks]
  · rw [eleme, State.elem_of_elems elemd, elemc, elemb, State.elem_of_elems elemsa]
    cases s.elem i with
    | none => rfl
    | some r => cases part : r.part <;> simp [ElementRecord.onGoal, ElementRecord.onStation, part]
  · rw [ebct, roles]

/-! ## CLEAR-MATCH (R160) -/

/-- The notice of the holds that CLEAR-MATCH takes away (R160, R169). -/
def State.clearedNotices (s : State) : List Notice :=
  if s.mch.stack = [] ∧ s.mch.pendingSet = PendingSet.empty then []
  else [.hold 0 .setup (.cleared (s.mch.stack.reverse.map Hold.number)
    ((if s.mch.pendingSet.fieldStop then [.fieldStop] else [])
      ++ (if s.mch.pendingSet.elementFault.isSome then [.elementFault] else [])
      ++ if s.mch.pendingSet.hostLost then [.hostLost] else []))]

theorem PendingSet.causes_eq (p : PendingSet) : p.list.map Prod.fst = (if p.fieldStop then [.fieldStop] else [])
    ++ (if p.elementFault.isSome then [.elementFault] else []) ++ if p.hostLost then [.hostLost] else [] := by
  obtain ⟨stop, fault, lost⟩ := p
  cases stop <;> cases fault <;> cases lost <;> simp [PendingSet.list]

/-- The first changes of CLEAR-MATCH: the clock, the holds and two notices. -/
def State.clearedClock (s : State) : State :=
  ((s.setMch s.mch.cleared).noticeCleared s.mch).raise (.phase .setup .clearMatch 0 0 false)

theorem State.clearMatch_eq (s : State) : s.clearMatch = s.clearedClock.reportClear := by
  have kept : ((s.setMch s.mch.cleared).noticeCleared s.mch).mch = s.mch.cleared := by
    unfold State.noticeCleared
    split <;> rfl
  rw [State.clearMatch, State.clearedClock, State.held, kept]
  rfl

theorem State.clearedClock_spec (s : State) :
    s.onlyChanges s.clearedClock [.hlp, .mch] ∧ s.clearedClock.mch = s.mch.cleared
      ∧ s.clearedClock.hlp = s.hlp.raiseAll (s.clearedNotices ++ [.phase .setup .clearMatch 0 0 false]) := by
  unfold State.clearedClock State.noticeCleared State.clearedNotices
  have empty : s.mch.stack.isEmpty = true ↔ s.mch.stack = [] := List.isEmpty_iff
  by_cases bare : s.mch.stack = [] ∧ s.mch.pendingSet = PendingSet.empty
  · rw [if_pos bare, if_pos ⟨empty.mpr bare.1, bare.2⟩]
    exact ⟨fun b other => by cases b <;> simp_all [State.sameBlock], rfl, rfl⟩
  · rw [if_neg bare, if_neg fun both => bare ⟨empty.mp both.1, both.2⟩, PendingSet.causes_eq]
    exact ⟨fun b other => by cases b <;> simp_all [State.sameBlock], rfl, rfl⟩

theorem State.onlyChanges_reportClear (s : State) : s.onlyChanges s.reportClear [.hlp, .roster, .elems, .ebc, .mch, .tu] :=
  fun b other => by cases b <;> simp_all [State.sameBlock]

/-- An entry's wait for its poll period depends on the wall time and the poll periods alone. -/
theorem State.waitedItsPeriod_eq {s w : State} (now : w.now = s.now)
    (periods : ∀ i, (w.elem i).map ElementRecord.pollPeriod = (s.elem i).map ElementRecord.pollPeriod) (e : Entry) :
    w.waitedItsPeriod e = match e.element.bind s.elem with
      | some r => decide (e.enteredAt + 20 * r.pollPeriod ≤ s.now)
      | none => false := by
  unfold State.waitedItsPeriod
  cases element : e.element with
  | none => rfl
  | some i =>
    have period := periods i
    simp only [Option.bind_some, now]
    cases mine : w.elem i <;> cases theirs : s.elem i <;> simp_all [Config.slicesPerMs, Nat.mul_comm]

theorem State.asksLamps_inFlight (s : State) (asks : List (Index × Bool)) : (s.asksLamps asks).ebc.inFlight = s.ebc.inFlight := by
  have one (t : State) (i : Index) (on : Bool) : (t.askLamp i on).ebc.inFlight = t.ebc.inFlight := by
    unfold State.askLamp
    split
    · rfl
    · split <;> rfl
  unfold State.asksLamps
  induction asks generalizing s with
  | nil => rfl
  | cons q asks ih => rw [List.foldl_cons, ih, one]

/-- Settles O48: the checks, and everything that CLEAR-MATCH clears. -/
theorem clearMatchClears : Obligations.ClearMatchClears := by
  intro s tag accepted
  have filters : s.restartSilence.mch.filtered = s.mch.filtered := by
    obtain ⟨_, _, restarted⟩ := s.restartSilence_timer
    rw [restarted]
    rfl
  refine ⟨_, congrArg Host.Outcome.next (State.goodFrame_eq accepted 0x0C tag clearMatchOwner), fun playing => ?_, fun outside stop => ?_,
    fun outside released => ?_⟩
  · exact State.refuses_of (by rw [clearMatchOwner, s.restartSilence_phase, if_pos playing]) _ _
  · exact State.refuses_of (by rw [clearMatchOwner, s.restartSilence_phase, outside, if_neg Bool.false_ne_true, filters, if_pos stop]) _ _
  · have answered : clearMatchOwner s.restartSilence = taken s.restartSilence.clearedClock.reportClear .empty := by
      rw [clearMatchOwner, s.restartSilence_phase, outside, if_neg Bool.false_ne_true, filters, released, if_neg Bool.false_ne_true,
        State.clearMatch_eq]
    obtain ⟨onlyClock, mchClock, hlpClock⟩ := s.restartSilence.clearedClock_spec
    obtain ⟨u, clock⟩ : ∃ u, u = s.restartSilence.clearedClock := ⟨_, rfl⟩
    rw [← clock] at onlyClock mchClock hlpClock answered
    obtain ⟨elem, robot, limits, mch, tu, hlp, w, lamps, now, periods, ebc⟩ := u.reportClear_spec
    have only := u.onlyChanges_reportClear
    obtain ⟨t, reported⟩ : ∃ t, t = u.reportClear := ⟨_, rfl⟩
    rw [← reported] at elem robot limits mch tu hlp lamps ebc only answered
    have rosteru : u.roster = s.roster := (onlyClock .roster (by simp)).trans (by simp)
    have elemsu : u.elems = s.elems := (onlyClock .elems (by simp)).trans (by simp)
    have ebcu : u.ebc = s.ebc := (onlyClock .ebc (by simp)).trans (by simp)
    have nowu : u.now = s.now := (onlyClock .now (by simp)).trans (by simp)
    have tuu : u.tu = s.tu := (onlyClock .tu (by simp)).trans (by simp)
    have lampsu : (u.asksLamps (u.lampChanges t)).ebc = (s.asksLamps (s.lampChanges t)).ebc := by
      rw [State.lampChanges_congr (s := s) (t := t) elemsu rfl]
      exact State.ebc_asksLamps_congr ebcu nowu _
    have changes : s.lampChanges ((taken t .empty).send 0x0C tag) = s.lampChanges t := State.lampChanges_congr rfl rfl
    have stops : u.stopNotices = s.stopNotices := by unfold State.stopNotices; rw [tuu]
    have notices : s.restartSilence.clearedNotices = s.clearedNotices := by
      obtain ⟨_, _, restarted⟩ := s.restartSilence_timer
      rw [restarted]
      rfl
    have same (e : Entry) : w.refreshRole e = if e.op = .poll .closing then { e with op := .poll .refresh, cls := if (match e.element.bind s.elem with
        | some r => decide (e.enteredAt + 20 * r.pollPeriod ≤ s.now)
        | none => false) = true then .control else .refresh } else e := by
      rw [State.refreshRole_eq, State.waitedItsPeriod_eq (s := s) (now.trans nowu)
        fun i => (periods i).trans (by rw [State.elem_of_elems elemsu])]
    rw [State.clearRoles_ebc, lamps, lampsu, State.asksLamps_inFlight] at ebc
    rw [answered]
    refine ⟨(Answered.send_mch ..).trans (mch.trans mchClock), ?_, fun i => ?_, fun k => ?_, ?_, ?_, ?_, ?_, ?_,
      State.answers_of rfl _ _ ?_ ?_⟩
    · rw [u.clearTally_spec.1, tuu] at tu
      exact tu
    · exact (Answered.send_elem ..).trans ((elem i).trans (by rw [State.elem_of_elems elemsu]))
    · exact (Answered.send_robot ..).trans ((robot k).trans (congrArg RobotRecord.pardoned (congrFun (State.robot_of_roster rosteru) k)))
    · rw [rosteru] at limits
      exact (Answered.send_roster ..).trans limits
    · rw [Answered.send_ebc, taken, ebc]
      intro e here
      obtain ⟨x, _, rfl⟩ := List.mem_map.mp here
      exact w.refreshRole_notClosing x
    · intro i
      rw [State.sched, Answered.send_ebc, taken, ebc]
      simp [Sched.refreshMark_notClosing]
    · rw [Answered.send_ebc, taken, ebc]
      intro f here
      obtain ⟨g, _, rfl⟩ := Option.map_eq_some_iff.mp here
      exact g.refreshRole_notClosing
    · rw [changes, Answered.send_ebc, taken, ebc, funext same, funext InFlight.refreshRole_eq]
      rfl
    · exact State.onlyChanges_trans (State.onlyChanges_mono onlyClock (by simp)) only (by simp)
    · rw [hlp, stops, hlpClock, notices, s.restartSilence_hlp, ← Hlp.raiseAll_append]
      rfl

end Sys2Proof.Machine

/-! What a tenth of match time does to the claims and the benches (R32, R33, R57). -/
namespace Sys2Proof.Machine

/-! ## The claims (R32, R33) -/

/-- The claim part of a record counts its tenth: the guard counts down, and the holder's held-for rises. -/
def ElementRecord.claimCounted (r : ElementRecord) : ElementRecord :=
  { r with claim := { r.claim with heldFor := if r.claim.holder.isSome then r.claim.heldFor + 1 else r.claim.heldFor
                                   guardRecord := guardTenth r.claim.guardRecord } }

theorem guardTenth_eq (g : Option Guard) : guardTenth g = match g with
    | some g => if 2 ≤ g.remaining then some { g with remaining := g.remaining - 1 } else none
    | none => none := by
  cases g with
  | none => rfl
  | some g =>
    by_cases least : g.remaining ≤ 1
    · have last : ¬ 2 ≤ g.remaining := by omega
      simp only [guardTenth, if_pos least, if_neg last]
    · have more : 2 ≤ g.remaining := by omega
      simp only [guardTenth, if_neg least, if_pos more]

/-- The notices of the claim part's tenth. -/
def expiryNotices (i : Index) (r : Option ElementRecord) : List Notice :=
  match r with
  | some r => match r.claim.holder with
    | some k => if r.holdLimit ≠ 0 ∧ r.holdLimit ≤ r.claim.heldFor + 1 then departureNotices i r.claim (.expired i k r.guardTime) else []
    | none => []
  | none => []

/-- The tenth of a free element's claim part counts its guard down. -/
theorem ElementRecord.claimsAfterTenth_free {r : ElementRecord} (free : r.claim.holder = none) : r.claimsAfterTenth = r.claimCounted := by
  simp only [ElementRecord.claimsAfterTenth, free, ElementRecord.claimCounted, guardTenth_eq]
  simp <;> rfl

theorem ElementRecord.claimsAfterTenth_held {r : ElementRecord} {k : Slot} (held : r.claim.holder = some k)
    (keeps : ¬ (r.holdLimit ≠ 0 ∧ r.holdLimit ≤ r.claim.heldFor + 1)) : r.claimsAfterTenth = r.claimCounted := by
  simp only [ElementRecord.claimsAfterTenth, held, if_neg keeps, ElementRecord.claimCounted, guardTenth_eq]
  simp <;> rfl

theorem ElementRecord.claimsAfterTenth_expired {r : ElementRecord} {k : Slot} (held : r.claim.holder = some k)
    (expires : r.holdLimit ≠ 0 ∧ r.holdLimit ≤ r.claim.heldFor + 1) : r.claimsAfterTenth =
      r.claimCounted.passedOn (if r.guardTime = 0 then guardTenth r.claim.guardRecord else some { slot := k, remaining := r.guardTime }) := by
  simp only [ElementRecord.claimsAfterTenth, held, if_pos expires, ElementRecord.passedOn, ElementRecord.claimCounted, guardTenth_eq] <;>
    rfl

/-- The claim part of one element at a tenth: its record, its notices and the lamp of a station whose holder changes. -/
theorem State.claimTenth_spec (s : State) (i : Index) :
    (∀ j, (s.claimTenth i).elem j = if j = i then (s.elem i).map ElementRecord.claimsAfterTenth else s.elem j)
      ∧ (s.claimTenth i).hlp = s.hlp.raiseAll (expiryNotices i (s.elem i))
      ∧ s.driven (s.claimTenth i) (litChange i (litOf (s.elem i)) (litOf ((s.elem i).map ElementRecord.claimsAfterTenth))) := by
  unfold State.claimTenth
  cases stands : s.elem i with
  | none => exact ⟨fun j => by split <;> simp_all, rfl, State.driven_of_ebc rfl rfl⟩
  | some r =>
    obtain ⟨t, counted⟩ : ∃ t, t = s.modClaim i fun c =>
      { c with heldFor := if r.claim.holder.isSome then r.claim.heldFor + 1 else r.claim.heldFor, guardRecord := guardTenth c.guardRecord } := ⟨_, rfl⟩
    have elem (j : Index) : t.elem j = if j = i then some r.claimCounted else s.elem j := by
      rw [counted, State.elem_modClaim, stands]
      rfl
    have first : s.driven t [] := State.driven_of_ebc (by simp [counted, State.modClaim]) (by simp [counted, State.modClaim])
    have hlp : t.hlp = s.hlp := by rw [counted, State.modClaim, (State.modElem_frame _ _ _).1]
    have plain (same : r.claimsAfterTenth = r.claimCounted) :
        (∀ j, t.elem j = if j = i then (some r).map ElementRecord.claimsAfterTenth else s.elem j)
          ∧ s.driven t (litChange i (litOf (some r)) (litOf ((some r).map ElementRecord.claimsAfterTenth))) := by
      have lit : litOf (some r.claimCounted) = litOf (some r) := rfl
      rw [Option.map_some, same, lit, litChange_same]
      exact ⟨elem, first⟩
    dsimp only
    rw [← counted]
    cases held : r.claim.holder with
    | none =>
      obtain ⟨record, drives⟩ := plain (ElementRecord.claimsAfterTenth_free held)
      rw [if_neg (by simp)]
      exact ⟨record, by rw [hlp]; simp [expiryNotices, held], drives⟩
    | some k =>
      by_cases expires : r.holdLimit ≠ 0 ∧ r.holdLimit ≤ r.claim.heldFor + 1
      · have after := ElementRecord.claimsAfterTenth_expired held expires
        obtain ⟨record, others, notices, drives⟩ := State.expire_spec (s := t) (i := i) (r := r.claimCounted) ((elem i).trans (if_pos rfl)) held rfl
        rw [if_pos (by simpa using expires), Option.map_some, after]
        refine ⟨fun j => ?_, ?_, first.trans drives⟩
        · split
          · next here => rw [here, record]; rfl
          · next other => rw [others j other, elem, if_neg other]
        · rw [notices, hlp]
          simp only [expiryNotices, held, if_pos expires]
          rfl
      · obtain ⟨record, drives⟩ := plain (ElementRecord.claimsAfterTenth_held held expires)
        rw [if_neg (by simpa using expires)]
        exact ⟨record, by rw [hlp]; simp only [expiryNotices, held, if_neg expires]; rfl, drives⟩

/-! ## The benches (R57) -/

/-- A robot record after a tenth of match time. -/
def RobotRecord.benchCounted (r : RobotRecord) : RobotRecord :=
  match r.state, r.bench with
  | .benched, some n => if n ≤ 1 then { r with state := .active, bench := none } else { r with bench := some (n - 1) }
  | _, _ => r

/-- The notice of a bench that ends at this tenth. -/
def benchNotices (k : Slot) (r : RobotRecord) : List Notice :=
  match r.state, r.bench with
  | .benched, some n => if n ≤ 1 then [.robot k .benchEnded] else []
  | _, _ => []

theorem State.benchTenth_spec (s : State) (k : Slot) :
    (∀ j, (s.benchTenth k).robot j = if j = k then (s.robot k).benchCounted else s.robot j)
      ∧ (s.benchTenth k).roster = { s.roster with robots := (s.benchTenth k).roster.robots }
      ∧ (s.benchTenth k).hlp = s.hlp.raiseAll (benchNotices k (s.robot k)) := by
  have idle (still : s.benchTenth k = s) (same : (s.robot k).benchCounted = s.robot k) (none_ : benchNotices k (s.robot k) = []) :
      (∀ j, (s.benchTenth k).robot j = if j = k then (s.robot k).benchCounted else s.robot j)
        ∧ (s.benchTenth k).roster = { s.roster with robots := (s.benchTenth k).roster.robots }
        ∧ (s.benchTenth k).hlp = s.hlp.raiseAll (benchNotices k (s.robot k)) := by
    rw [still, same, none_]
    exact ⟨fun j => by split <;> simp_all, rfl, rfl⟩
  cases state : (s.robot k).state with
  | benched =>
    cases bench : (s.robot k).bench with
    | none =>
      exact idle (by simp only [State.benchTenth, state, bench]) (by simp only [RobotRecord.benchCounted, state, bench])
        (by simp only [benchNotices, state, bench])
    | some n =>
      simp only [State.benchTenth, RobotRecord.benchCounted, benchNotices, state, bench]
      split
      · refine ⟨fun j => ?_, rfl, rfl⟩
        rw [State.unbench, State.robot_raiseRobot, State.robot_modRobot]
      · exact ⟨fun j => by simp [State.robot_modRobot, state], rfl, rfl⟩
  | _ =>
    exact idle (by simp only [State.benchTenth, state]) (by simp only [RobotRecord.benchCounted, state])
      (by simp only [benchNotices, state])

/-- A tenth leaves every robot's row with its alliance. -/
theorem RobotRecord.benchCounted_row (r : RobotRecord) :
    (r.benchCounted.state = .vacant ↔ r.state = .vacant) ∧ r.benchCounted.alliance = r.alliance := by
  unfold RobotRecord.benchCounted
  split
  · split <;> simp_all
  · simp

end Sys2Proof.Machine

/-! What a tenth of match time does to the stations and the tally (R135, R136). -/
namespace Sys2Proof.Machine

/-- A record after the station's part of a tenth. -/
def ElementRecord.stationCounted (q : ElementRecord) : ElementRecord :=
  match q.part with
  | .station p =>
    { q with
      sticky := { q.sticky with trespass := q.sticky.trespass || q.trespassed p }
      part := .station { p with trespassEpisode := p.trespassEpisode || q.trespassed p
                                accrual := if q.accruing p then if 9 ≤ p.accrual then 0 else p.accrual + 1 else p.accrual } }
  | _ => q

/-- The points that a record's station credits in a tenth, with their row. -/
def ElementRecord.creditNow (q : ElementRecord) : Option (Fin 28 × Nat) :=
  match q.part, q.claim.holder with
  | .station p, some k => if q.accruing p && decide (9 ≤ p.accrual) && p.pointsPerSecond != 0 then some (slotRow k, p.pointsPerSecond) else none
  | _, _ => none

theorem ElementRecord.afterTenth_eq (r : ElementRecord) : r.afterTenth = r.claimsAfterTenth.stationCounted := rfl

theorem ElementRecord.creditAtTenth_eq (r : ElementRecord) : r.creditAtTenth = r.claimsAfterTenth.creditNow := rfl

/-- The notice of a trespass in a tenth. -/
def trespassNotices (phase : Phase) (i : Index) (r : Option ElementRecord) : List Notice :=
  match r with
  | some r => match r.part with
    | .station p => if r.trespassed p then [.element i (.trespass phase)] else []
    | _ => []
  | none => []

section
variable {s : State} {i : Index} {q : ElementRecord} {p : StationPart} (stands : s.elem i = some q) (part : q.part = .station p)
include stands part

omit part in
theorem State.accrues_eq (p : StationPart) : s.accrues i p = q.accruing p := by
  simp [State.accrues, State.faulted, State.holder, stands, ElementRecord.accruing]

/-- The trespass test of a station that is trespassed on. -/
theorem State.trespassTest_acts (playing : s.mch.phase.inMatch = true) (test : q.trespassed p = true) : s.trespassTest i =
    ((s.setStation i { p with trespassEpisode := true }).modSticky i fun f => { f with trespass := true }).raiseElement i
      (.trespass s.mch.phase) := by
  have station := State.station_of stands part
  have holder : s.holder i = q.claim.holder := by simp [State.holder, stands]
  have fault : s.faulted i = q.inFault := by simp [State.faulted, stands]
  rw [State.trespassTest, station]
  simp only [playing, holder, fault]
  simp only [ElementRecord.trespassed] at test
  rw [if_pos (by simpa using test)]

theorem State.trespassTest_idle (playing : s.mch.phase.inMatch = true) (test : q.trespassed p = false) : s.trespassTest i = s := by
  have station := State.station_of stands part
  have holder : s.holder i = q.claim.holder := by simp [State.holder, stands]
  have fault : s.faulted i = q.inFault := by simp [State.faulted, stands]
  rw [State.trespassTest, station]
  simp only [playing, holder, fault]
  simp only [ElementRecord.trespassed] at test
  exact if_neg (by simpa using test)

end

/-- A trespass excludes an accrual: one wants the holder absent, the other present. -/
theorem ElementRecord.not_accruing {q : ElementRecord} {p : StationPart} (test : q.trespassed p = true) : q.accruing p = false := by
  have absent := (Bool.and_eq_true_iff.mp (Bool.and_eq_true_iff.mp test).1).2
  rw [ElementRecord.accruing, Option.isSome_eq_false_iff.mpr absent, Bool.and_false]

theorem State.addPoints_tu_congr {s t : State} (tu : t.tu = s.tu) (roster : t.roster = s.roster) (row : Fin 28) (column : Index)
    (points : Int) : (t.addPoints row column points).tu = (s.addPoints row column points).tu := by
  have owner : t.rowAlliance row = s.rowAlliance row := by
    unfold State.rowAlliance
    rw [State.robot_of_roster roster]
  unfold State.addPoints
  rw [tu, owner]
  rfl

/-- The tally unit after the credit of a tenth. -/
def State.creditTu (s : State) (i : Index) : Option (Fin 28 × Nat) → Tu
  | some (row, points) => (s.addPoints row i points).tu
  | none => s.tu

theorem State.credit_creditTu {s t : State} (tu : t.tu = s.tu) (roster : t.roster = s.roster) (row : Fin 28) (i : Index) (points : Nat) :
    (t.credit row i points).tu = s.creditTu i (if points != 0 then some (row, points) else none) := by
  unfold State.credit
  by_cases zero : points = 0
  · simp [zero, State.creditTu, tu]
  · simp only [zero, if_false, bne_iff_ne, ne_eq, not_false_eq_true, if_true]
    exact State.addPoints_tu_congr tu roster row i points

/-- A station at a tenth: its record, its notice, and the points it credits. -/
theorem State.stationTenth_spec {s : State} (playing : s.mch.phase.inMatch = true) (i : Index) :
    (∀ j, (s.stationTenth i).elem j = if j = i then (s.elem i).map ElementRecord.stationCounted else s.elem j)
      ∧ (s.stationTenth i).hlp = s.hlp.raiseAll (trespassNotices s.mch.phase i (s.elem i))
      ∧ (s.stationTenth i).tu = s.creditTu i ((s.elem i).bind ElementRecord.creditNow) := by
  have idle (still : s.stationTenth i = s) (same : (s.elem i).map ElementRecord.stationCounted = s.elem i)
      (none_ : trespassNotices s.mch.phase i (s.elem i) = []) (nothing : (s.elem i).bind ElementRecord.creditNow = none) :
      (∀ j, (s.stationTenth i).elem j = if j = i then (s.elem i).map ElementRecord.stationCounted else s.elem j)
        ∧ (s.stationTenth i).hlp = s.hlp.raiseAll (trespassNotices s.mch.phase i (s.elem i))
        ∧ (s.stationTenth i).tu = s.creditTu i ((s.elem i).bind ElementRecord.creditNow) := by
    rw [still, same, none_, nothing]
    exact ⟨fun j => by split <;> simp_all, rfl, rfl⟩
  cases station : s.stationAt i with
  | none =>
    have still : s.stationTenth i = s := by simp [State.stationTenth, State.trespassTest, State.accrue, station]
    cases stands : s.elem i with
    | none => exact stands ▸ idle still (by rw [stands]; rfl) (by rw [stands]; rfl) (by rw [stands]; rfl)
    | some q =>
      have other (p : StationPart) : q.part ≠ .station p := fun part => by
        rw [State.station_of stands part] at station
        cases station
      rw [← stands]
      refine idle still ?_ ?_ ?_
      all_goals
        rw [stands]
        cases part : q.part with
        | station p => exact absurd part (other p)
        | _ => simp [ElementRecord.stationCounted, trespassNotices, ElementRecord.creditNow, part]
  | some p =>
    obtain ⟨q, stands, part⟩ := State.station_some station
    have holder : s.holder i = q.claim.holder := by simp [State.holder, stands]
    cases test : q.trespassed p with
    | true =>
      have absent : q.claim.holder = none :=
        Option.isNone_iff_eq_none.mp (Bool.and_eq_true_iff.mp (Bool.and_eq_true_iff.mp test).1).2
      have counts := ElementRecord.not_accruing test
      obtain ⟨t, acts⟩ : ∃ t, t = s.trespassTest i := ⟨_, rfl⟩
      have noted := acts.trans (State.trespassTest_acts stands part playing test)
      have elem (j : Index) : t.elem j = if j = i then some q.stationCounted else s.elem j := by
        rw [noted, State.elem_raiseElement, State.elem_modSticky, State.setStation, State.elem_setPart_of_defined stands,
          State.elem_setPart_of_defined stands]
        split
        · simp [ElementRecord.stationCounted, part, test, counts, ElementRecord.setPart]
        · rfl
      have free : t.holder i = none := by
        rw [State.holder, elem, if_pos rfl]
        simpa [ElementRecord.stationCounted, part] using absent
      have still : s.stationTenth i = t := by
        rw [State.stationTenth, ← acts, State.accrue, free]
        cases t.stationAt i <;> rfl
      rw [still]
      refine ⟨fun j => by rw [elem, stands]; rfl, ?_, ?_⟩
      · rw [noted]
        simp [trespassNotices, stands, part, test, Hlp.raiseAll, State.raiseElement]
      · rw [noted]
        simp [ElementRecord.creditNow, stands, part, absent, State.creditTu]
    | false =>
      have first : s.trespassTest i = s := State.trespassTest_idle stands part playing test
      have none_ : trespassNotices s.mch.phase i (s.elem i) = [] := by simp [trespassNotices, stands, part, test]
      cases counts : q.accruing p with
      | false =>
        have still : s.stationTenth i = s := by
          rw [State.stationTenth, first, State.accrue, station]
          cases s.holder i with
          | none => rfl
          | some k => exact if_neg (by rw [State.accrues_eq stands, counts]; exact Bool.false_ne_true)
        refine idle still ?_ none_ ?_
        · have same : ({ q with part := .station p } : ElementRecord) = q := by rw [← part]
          simp [stands, ElementRecord.stationCounted, part, test, counts, same]
        · rw [stands, Option.bind_some, ElementRecord.creditNow, part]
          split <;> simp_all
      | true =>
        obtain ⟨k, held⟩ := Option.isSome_iff_exists.mp (Bool.and_eq_true_iff.mp counts).2
        have acts : s.stationTenth i = if 9 ≤ p.accrual then (s.setStation i { p with accrual := 0 }).credit (slotRow k) i p.pointsPerSecond
            else s.setStation i { p with accrual := p.accrual + 1 } := by
          rw [State.stationTenth, first, State.accrue, station, holder, held]
          dsimp only
          rw [if_pos (by rw [State.accrues_eq stands, counts])]
          by_cases full : 9 ≤ p.accrual
          · rw [if_pos full, if_pos (show 10 ≤ p.accrual + 1 by omega)]
          · rw [if_neg full, if_neg (show ¬ 10 ≤ p.accrual + 1 by omega)]
        have elem (n : Nat) (j : Index) : (s.setStation i { p with accrual := n }).elem j
            = if j = i then some (q.setPart (.station { p with accrual := n })) else s.elem j := by
          rw [State.setStation, State.elem_setPart_of_defined stands]
        have hlp : s.hlp = s.hlp.raiseAll (trespassNotices s.mch.phase i (s.elem i)) := by rw [none_]; rfl
        rw [acts]
        split
        · next full =>
          refine ⟨fun j => ?_, by simpa using hlp, ?_⟩
          · have credited : ((s.setStation i { p with accrual := 0 }).credit (slotRow k) i p.pointsPerSecond).elem j
                = (s.setStation i { p with accrual := 0 }).elem j := by simp [State.elem]
            rw [credited, elem, stands]
            simp [ElementRecord.stationCounted, part, test, counts, full, ElementRecord.setPart]
          · rw [State.credit_creditTu (s := s) (by simp) (by simp)]
            simp [ElementRecord.creditNow, stands, part, held, counts, full]
        · next short =>
          refine ⟨fun j => ?_, by simpa using hlp, ?_⟩
          · rw [elem, stands]
            simp [ElementRecord.stationCounted, part, test, counts, short, ElementRecord.setPart]
          · simp [ElementRecord.creditNow, stands, part, held, counts, short, State.creditTu]

end Sys2Proof.Machine

/-! Settles O49: a tenth of match time (R158, R32, R33, R57, R135, R136). -/
namespace Sys2Proof.Machine

/-! ## The tally over the stations of a tenth (R136) -/

/-- The tally unit after one element's credit, with the alliance of each row. -/
def Tu.credited (tu : Tu) (owner : Fin 28 → Option Alliance) (i : Index) : Option (Fin 28 × Nat) → Tu
  | some (row, points) =>
    { tu with
      cells := tu.cells.set (cellIndex row i).val ((tu.cell row i).add points)
      totals := match owner row with
        | some side => tu.totals.add side (((tu.cell row i).add points).value - (tu.cell row i).value)
        | none => tu.totals }
  | none => tu

theorem State.creditTu_eq (s : State) (i : Index) (c : Option (Fin 28 × Nat)) : s.creditTu i c = s.tu.credited s.rowAlliance i c := by
  cases c <;> rfl

theorem Tu.cell_credited (tu : Tu) (owner : Fin 28 → Option Alliance) (i : Index) (c : Option (Fin 28 × Nat)) (row : Fin 28) (j : Index) :
    (tu.credited owner i c).cell row j = if j = i then
      match c with
      | some (row', points) => if row = row' then (tu.cell row i).add points else tu.cell row i
      | none => tu.cell row i
    else tu.cell row j := by
  cases c with
  | none =>
    split
    · next here => rw [here]; rfl
    · rfl
  | some c =>
    obtain ⟨row', points⟩ := c
    have hit : (cellIndex row' i).val = (cellIndex row j).val ↔ row' = row ∧ i = j :=
      ⟨fun h => cellIndex_inj (Fin.ext h), fun ⟨h, g⟩ => by rw [h, g]⟩
    simp only [Tu.credited, Tu.cell, Vector.getElem_set, hit]
    by_cases column : j = i
    · by_cases same : row = row'
      · simp [column, same]
      · simp [column, same, Ne.symm same]
    · simp [column, Ne.symm column]

/-- What one element's credit adds to the totals, from the cells of `tu`. -/
def Tu.totalled (tu : Tu) (owner : Fin 28 → Option Alliance) (c : Index → Option (Fin 28 × Nat)) (totals : Totals) (i : Index) : Totals :=
  match c i with
  | some (row, points) => match owner row with
    | some side => totals.add side (((tu.cell row i).add points).value - (tu.cell row i).value)
    | none => totals
  | none => totals

/-- Credits to distinct columns: each cell takes its own, and the totals take them all. -/
theorem Tu.foldl_credited (owner : Fin 28 → Option Alliance) (c : Index → Option (Fin 28 × Nat)) (l : List Index) :
    l.Nodup → ∀ tu : Tu, ∃ u, u = l.foldl (fun u i => u.credited owner i (c i)) tu
      ∧ (∀ row i, u.cell row i = if i ∈ l then
          match c i with
          | some (row', points) => if row = row' then (tu.cell row i).add points else tu.cell row i
          | none => tu.cell row i
        else tu.cell row i)
      ∧ u = { tu with cells := u.cells, totals := l.foldl (tu.totalled owner c) tu.totals } := by
  induction l with
  | nil => exact fun _ tu => ⟨tu, rfl, fun row i => by simp, rfl⟩
  | cons j l ih =>
    intro once tu
    obtain ⟨fresh, once⟩ := List.nodup_cons.mp once
    obtain ⟨u, made, cells, rest⟩ := ih once (tu.credited owner j (c j))
    refine ⟨u, made, fun row i => ?_, ?_⟩
    · rw [cells, Tu.cell_credited]
      by_cases here : i = j
      · rw [here, if_neg fresh, if_pos rfl, if_pos List.mem_cons_self]
      · simp [here]
    · have first : (tu.credited owner j (c j)).totals = tu.totalled owner c tu.totals j := by
        unfold Tu.credited Tu.totalled
        cases c j <;> rfl
      have later : l.foldl ((tu.credited owner j (c j)).totalled owner c) (tu.totalled owner c tu.totals j)
          = l.foldl (tu.totalled owner c) (tu.totalled owner c tu.totals j) := by
        refine List.foldl_ext _ _ _ fun totals i here => ?_
        have apart : i ≠ j := fun same => fresh (same ▸ here)
        simp only [Tu.totalled, Tu.cell_credited, if_neg apart]
      rw [List.foldl_cons, ← later, ← first, rest]
      cases c j <;> rfl

/-- The tally unit over a walk of the elements, each of whose steps changes it by its own element's record. -/
theorem State.foldl_tu {P : State → Prop} {f : Index → State → State} {g : Index → Option ElementRecord → Option ElementRecord}
    {c : Index → Option ElementRecord → Tu → Tu} (keeps : ∀ i t, P t → P (f i t))
    (elem : ∀ i t j, P t → (f i t).elem j = if j = i then g i (t.elem i) else t.elem j)
    (tallies : ∀ i t, P t → (f i t).tu = c i (t.elem i) t.tu) (l : List Index) :
    ∀ (s : State), l.Nodup → P s → (l.foldl (fun t i => f i t) s).tu = l.foldl (fun tu i => c i (s.elem i) tu) s.tu := by
  induction l with
  | nil => exact fun _ _ _ => rfl
  | cons i l ih =>
    intro s nodup h
    obtain ⟨fresh, nodup⟩ := List.nodup_cons.mp nodup
    rw [List.foldl_cons, List.foldl_cons, ih (f i s) nodup (keeps i s h), tallies i s h]
    exact List.foldl_ext _ _ _ fun tu j here => by rw [elem i s j h, if_neg (by rintro rfl; exact fresh here)]

/-! ## The stages of a tenth -/

/-- The claims' part of a tenth, over every element. -/
theorem State.claimTenths_spec (s : State) {t : State} (walked : t = s.eachIndex fun i u => u.claimTenth i) :
    (∀ i, t.elem i = (s.elem i).map ElementRecord.claimsAfterTenth)
      ∧ t.hlp = s.hlp.raiseAll (indices.flatMap fun i => expiryNotices i (s.elem i))
      ∧ s.driven t (indices.flatMap fun i => litChange i (litOf (s.elem i)) (litOf ((s.elem i).map ElementRecord.claimsAfterTenth)))
      ∧ t.roster = s.roster ∧ t.mch = s.mch ∧ t.tu = s.tu := by
  obtain ⟨_, elem, hlp⟩ := State.eachIndex_walk (fun _ => True) (fun i u => u.claimTenth i) (fun _ r => r.map ElementRecord.claimsAfterTenth)
    expiryNotices (fun _ _ _ => trivial) (fun i t j _ => (t.claimTenth_spec i).1 j) (fun i t _ => (t.claimTenth_spec i).2.1) s trivial
  have drives := State.eachIndex_driven (P := fun _ => True) (f := fun i u => u.claimTenth i) (g := fun _ r => r.map ElementRecord.claimsAfterTenth)
    (asks := fun i r => litChange i (litOf r) (litOf (r.map ElementRecord.claimsAfterTenth)))
    (fun _ _ _ => trivial) (fun i t j _ => (t.claimTenth_spec i).1 j) (fun i t _ => (t.claimTenth_spec i).2.2) (s := s) trivial
  rw [← walked] at elem hlp drives
  exact ⟨elem, hlp, drives, by simp [walked], by simp [walked], by simp [walked]⟩

/-- The benches' part of a tenth, over every slot. -/
theorem State.benchTenths_spec (s : State) {t : State} (walked : t = s.eachSlot fun k u => u.benchTenth k) :
    (∀ k, t.robot k = (s.robot k).benchCounted) ∧ t.roster = { s.roster with robots := t.roster.robots }
      ∧ t.hlp = s.hlp.raiseAll (slots.flatMap fun k => benchNotices k (s.robot k))
      ∧ t.elems = s.elems ∧ t.ebc = s.ebc ∧ t.now = s.now ∧ t.mch = s.mch ∧ t.tu = s.tu := by
  obtain ⟨_, robot, rest, hlp⟩ := State.eachSlot_walk (P := fun _ => True) (f := fun k u => u.benchTenth k) (g := fun _ => RobotRecord.benchCounted)
    (notices := benchNotices) (fun _ _ _ => trivial) (fun k t j _ => (t.benchTenth_spec k).1 j) (fun k t _ => (t.benchTenth_spec k).2.1)
    (fun k t _ => (t.benchTenth_spec k).2.2) (s := s) trivial
  rw [← walked] at robot rest hlp
  exact ⟨robot, rest, hlp, by simp [walked], by simp [walked], by simp [walked], by simp [walked], by simp [walked]⟩

/-- The stations' part of a tenth, over every element. -/
theorem State.stationTenths_spec {s : State} (playing : s.mch.phase.inMatch = true) {t : State} (walked : t = s.eachIndex fun i u => u.stationTenth i) :
    (∀ i, t.elem i = (s.elem i).map ElementRecord.stationCounted)
      ∧ t.hlp = s.hlp.raiseAll (indices.flatMap fun i => trespassNotices s.mch.phase i (s.elem i))
      ∧ t.tu = indices.foldl (fun tu i => tu.credited s.rowAlliance i ((s.elem i).bind ElementRecord.creditNow)) s.tu
      ∧ t.roster = s.roster ∧ t.mch = s.mch ∧ t.ebc = s.ebc ∧ t.now = s.now := by
  have keeps (i : Index) (t : State) (h : t.mch = s.mch ∧ t.roster = s.roster) : (t.stationTenth i).mch = s.mch ∧ (t.stationTenth i).roster = s.roster := by
    simpa using h
  have spec (i : Index) (t : State) (h : t.mch = s.mch ∧ t.roster = s.roster) := State.stationTenth_spec (s := t) (by rw [h.1]; exact playing) i
  obtain ⟨_, elem, hlp⟩ := State.eachIndex_walk (fun t => t.mch = s.mch ∧ t.roster = s.roster) (fun i u => u.stationTenth i)
    (fun _ r => r.map ElementRecord.stationCounted) (trespassNotices s.mch.phase) keeps (fun i t j h => (spec i t h).1 j)
    (fun i t h => by rw [(spec i t h).2.1, h.1]) s ⟨rfl, rfl⟩
  have tu := State.foldl_tu (P := fun t => t.mch = s.mch ∧ t.roster = s.roster) (f := fun i u => u.stationTenth i)
    (g := fun _ r => r.map ElementRecord.stationCounted)
    (c := fun i r tu => tu.credited s.rowAlliance i (r.bind ElementRecord.creditNow)) keeps (fun i t j h => (spec i t h).1 j)
    (fun i t h => by rw [(spec i t h).2.2, State.creditTu_eq, funext (State.rowAlliance_congr h.2)]) indices s (List.nodup_finRange 48) ⟨rfl, rfl⟩
  have walk : s.eachIndex (fun i u => u.stationTenth i) = indices.foldl (fun u i => u.stationTenth i) s := rfl
  rw [← walk] at tu
  rw [← walked] at elem hlp tu
  exact ⟨elem, hlp, tu, by simp [walked], by simp [walked], by simp [walked], by simp [walked]⟩

/-- A tenth leaves a row with its alliance. -/
theorem State.rowAlliance_benchCounted {s t : State} (robot : ∀ k, t.robot k = (s.robot k).benchCounted) : t.rowAlliance = s.rowAlliance := by
  funext row
  simp only [State.rowAlliance, robot]
  split
  · next below =>
    obtain ⟨vacant, side⟩ := (s.robot ⟨row.val, below⟩).benchCounted_row
    simp only [vacant, side]
  · rfl

/-- The station's part leaves the lit state. -/
theorem litOf_stationCounted (r : Option ElementRecord) : litOf (r.map ElementRecord.stationCounted) = litOf r := by
  cases r with
  | none => rfl
  | some r =>
    rw [Option.map_some, ElementRecord.stationCounted]
    cases part : r.part <;> simp [litOf, part]

theorem trespassNotices_eq (phase : Phase) (i : Index) (r : Option ElementRecord) : trespassNotices phase i (r.map ElementRecord.claimsAfterTenth) =
    match r with
    | some r => match r.claimsAfterTenth.part with
      | .station p => if r.claimsAfterTenth.trespassed p then [.element i (.trespass phase)] else []
      | _ => []
    | none => [] := by
  cases r <;> rfl

theorem State.tenthNotices_eq (s : State) : s.tenthNotices = (indices.flatMap fun i => expiryNotices i (s.elem i))
    ++ (slots.flatMap fun k => benchNotices k (s.robot k))
    ++ indices.flatMap fun i => trespassNotices s.mch.phase i ((s.elem i).map ElementRecord.claimsAfterTenth) := by
  simp only [trespassNotices_eq]
  rfl

theorem State.onlyChanges_handTenth (s : State) :
    s.onlyChanges (s.setMch s.mch.tenth).handTenth [.hlp, .roster, .elems, .ebc, .mch, .tu] :=
  fun b other => by cases b <;> simp_all [State.sameBlock]

/-- The handler of a tenth, before it looks at phase remaining. -/
theorem State.handTenth_spec {s u : State} (runs : s.mch.phase.inMatch = true) (handed : u = (s.setMch s.mch.tenth).handTenth) :
    u.mch = s.mch.tenth
      ∧ (∀ i, u.elem i = (s.elem i).map ElementRecord.afterTenth)
      ∧ (∀ k, u.robot k = (s.robot k).benchCounted)
      ∧ u.roster = { s.roster with robots := u.roster.robots }
      ∧ (∀ row i, u.tu.cell row i = match (s.elem i).bind ElementRecord.creditAtTenth with
          | some (row', points) => if row = row' then (s.tu.cell row i).add points else s.tu.cell row i
          | none => s.tu.cell row i)
      ∧ u.tu = { s.tu with cells := u.tu.cells, totals := s.totalsAfterTenth }
      ∧ u.hlp = s.hlp.raiseAll s.tenthNotices ∧ u.ebc = (s.asksLamps (s.lampChanges u)).ebc := by
  obtain ⟨o, started⟩ : ∃ o, o = s.setMch s.mch.tenth := ⟨_, rfl⟩
  have elem₀ (i : Index) : o.elem i = s.elem i := by rw [started]; rfl
  obtain ⟨a, claims⟩ : ∃ a, a = o.eachIndex fun i u => u.claimTenth i := ⟨_, rfl⟩
  obtain ⟨b, benches⟩ : ∃ b, b = a.eachSlot fun k u => u.benchTenth k := ⟨_, rfl⟩
  have last : u = b.eachIndex fun i u => u.stationTenth i := by rw [handed, benches, claims, started]; rfl
  obtain ⟨elem₁, hlp₁, drives₁, roster₁, mch₁, tu₁⟩ := o.claimTenths_spec claims
  obtain ⟨robot₂, rest₂, hlp₂, elems₂, ebc₂, now₂, mch₂, tu₂⟩ := a.benchTenths_spec benches
  have mch : b.mch = s.mch.tenth := by rw [mch₂, mch₁, started]; rfl
  obtain ⟨elem₃, hlp₃, tu₃, roster₃, mch₃, ebc₃, now₃⟩ := State.stationTenths_spec (by rw [mch]; exact runs) last
  have robot₀ (k : Slot) : a.robot k = s.robot k := by rw [State.robot_of_roster roster₁, started]; rfl
  have elemb (i : Index) : b.elem i = (s.elem i).map ElementRecord.claimsAfterTenth := by
    rw [State.elem_of_elems elems₂, elem₁, elem₀]
  have elem (i : Index) : u.elem i = (s.elem i).map ElementRecord.afterTenth := by
    rw [elem₃, elemb, Option.map_map]
    rfl
  have robot (k : Slot) : u.robot k = (s.robot k).benchCounted := by rw [State.robot_of_roster roster₃, robot₂, robot₀]
  have owner : b.rowAlliance = s.rowAlliance :=
    State.rowAlliance_benchCounted fun k => by rw [robot₂, robot₀]
  have tub : b.tu = s.tu := by rw [tu₂, tu₁, started]; rfl
  have counts (i : Index) : (b.elem i).bind ElementRecord.creditNow = (s.elem i).bind ElementRecord.creditAtTenth := by
    rw [elemb]
    cases s.elem i <;> rfl
  simp only [counts, owner, tub] at tu₃
  obtain ⟨tu, made, cells, totals⟩ := Tu.foldl_credited s.rowAlliance (fun i => (s.elem i).bind ElementRecord.creditAtTenth) indices
    (List.nodup_finRange 48) s.tu
  rw [← made] at tu₃
  refine ⟨mch₃.trans mch, elem, robot, ?_, fun row i => ?_, ?_, ?_, ?_⟩
  · rw [roster₃, rest₂, roster₁, started]
    rfl
  · rw [tu₃, cells, if_pos (show i ∈ indices from List.mem_finRange i)]
  · rw [tu₃]
    exact totals
  · have notices : indices.flatMap (fun i => expiryNotices i (o.elem i)) = indices.flatMap fun i => expiryNotices i (s.elem i) :=
      List.flatMap_congr fun i _ => by rw [elem₀]
    simp only [mch, elemb] at hlp₃
    simp only [robot₀] at hlp₂
    rw [State.tenthNotices_eq, hlp₃, hlp₂, hlp₁, notices, ← Hlp.raiseAll_append, ← Hlp.raiseAll_append, started, List.append_assoc]
    rfl
  · have lit (i : Index) : u.litAt i = litOf ((s.elem i).map ElementRecord.claimsAfterTenth) := by
      rw [State.litAt_eq, elem₃, litOf_stationCounted, elemb]
    have asks : (indices.flatMap fun i => litChange i (litOf (o.elem i)) (litOf ((o.elem i).map ElementRecord.claimsAfterTenth)))
        = (indices.filter fun _ => true).flatMap fun i => litChange i (s.litAt i) (u.litAt i) := by
      rw [List.filter_eq_self.mpr fun _ _ => rfl]
      exact List.flatMap_congr fun i _ => by rw [elem₀, lit, State.litAt_eq]
    rw [asks] at drives₁
    have first : s.driven o [] := State.driven_of_ebc (by rw [started]; rfl) (by rw [started]; rfl)
    exact State.lamps_of_driven (p := fun _ => true) (((first.trans drives₁).still ebc₂ now₂).still ebc₃ now₃) (by simp)

theorem execMatchTenth_eq {s : State} (runs : s.matchRuns = true) : exec .matchTenth s = .next s.matchTenth :=
  congrArg Host.Outcome.next (if_pos runs)

/-- The tenth that leaves no phase remaining runs the phase out (assumption 3). -/
theorem State.matchTenth_eq {s u : State} (runs : s.matchRuns = true) (handed : u = (s.setMch s.mch.tenth).handTenth) (mch : u.mch = s.mch.tenth) :
    if 2 ≤ s.mch.remaining then exec .matchTenth s = .next u else exec .matchTenth s = exec .ranOut u := by
  have made : s.matchTenth = if u.mch.remaining = 0 then u.runOut else u := by rw [handed]; rfl
  have left : u.mch.remaining = s.mch.remaining - 1 := by rw [mch]; rfl
  have still : u.matchRuns = true := by
    rw [← runs, State.matchRuns, State.held, mch]
    rfl
  rw [execMatchTenth_eq runs, made]
  split
  · next more => rw [if_neg (by omega)]
  · next last =>
    have due : (u.matchRuns && decide (u.mch.remaining ≤ 1)) = true := by
      rw [still, Bool.true_and, decide_eq_true_eq]
      omega
    rw [if_pos (by omega)]
    exact (congrArg Host.Outcome.next (if_pos due)).symm

theorem State.accrual_onlyChanges (s : State) (i : Index) : s.onlyChanges (s.accrue i) [.elems, .tu] :=
  fun b other => by cases b <;> simp_all [State.sameBlock]

/-- Settles O49: the claims, the benches and the stations in turn; the tallies credit distinct columns. -/
theorem tenthOfMatchTime : Obligations.TenthOfMatchTime := by
  unfold Obligations.TenthOfMatchTime
  refine ⟨fun s runs => ?_, fun s stopped => congrArg Host.Outcome.next (if_neg (by rw [stopped]; exact Bool.false_ne_true)), ?_⟩
  · have playing : s.mch.phase.inMatch = true := (Bool.and_eq_true_iff.mp runs).1
    obtain ⟨u, handed⟩ : ∃ u, u = (s.setMch s.mch.tenth).handTenth := ⟨_, rfl⟩
    obtain ⟨mch, elem, robot, rest⟩ := State.handTenth_spec playing handed
    exact ⟨u, State.matchTenth_eq runs handed mch, handed ▸ s.onlyChanges_handTenth, mch, elem, robot, rest⟩
  · intro s i r p k runs stands part held counts full
    have station : s.stationAt i = some p := State.station_of stands part
    have holder : s.holder i = some k := by simp [State.holder, stands, held]
    have acts : s.accrue i = (s.setStation i { p with accrual := 0 }).credit (slotRow k) i p.pointsPerSecond := by
      rw [State.accrue, station, holder]
      dsimp only
      rw [if_pos (by rw [State.accrues_eq stands, counts]), if_pos (show 10 ≤ p.accrual + 1 by omega)]
    have elem (j : Index) : (s.accrue i).elem j = if j = i then some (r.setPart (.station { p with accrual := 0 })) else s.elem j := by
      have credited : ((s.setStation i { p with accrual := 0 }).credit (slotRow k) i p.pointsPerSecond).elem j
          = (s.setStation i { p with accrual := 0 }).elem j := by simp [State.elem]
      rw [acts, credited, State.setStation, State.elem_setPart_of_defined stands]
    refine ⟨s.accrue i, ?_, s.accrual_onlyChanges i, fun j other => (elem j).trans (if_neg other), (elem i).trans (if_pos rfl), ?_⟩
    · refine congrArg Host.Outcome.next ?_
      rw [station]
      exact if_pos (by rw [runs, Bool.true_and, decide_eq_true_eq]; exact full)
    · rw [acts, State.credit_eq]
      simp only [State.creditedTu, State.rowAlliance_congr (State.setStation_frame _ _ _).2.2.1]
      simp

end Sys2Proof.Machine

/-! Settles O5: reading and writing the bytes of a request (Table 11-2). -/
namespace Sys2Proof.Machine

/-! ## Two-byte fields -/

theorem halfBytes_half (hi lo : Byte) : halfBytes (half hi lo) = [hi, lo] := by
  have high : (half hi lo).extractLsb' 8 8 = hi := BitVec.extractLsb'_append_of_eq (w := 8) (k := 1) (i := 1) rfl
  have low : (half hi lo).extractLsb' 0 8 = lo :=
    (BitVec.extractLsb'_append_of_lt (w := 8) (k := 1) (i := 0) Nat.one_pos).trans BitVec.extractLsb'_eq_self
  rw [halfBytes, high, low]

theorem half_halfBytes (w : Half) : half (w.extractLsb' 8 8) (w.extractLsb' 0 8) = w :=
  BitVec.extractLsb'_append_extractLsb' (w := 8) (len := 8)

@[simp] theorem halfBytes_length (w : Half) : (halfBytes w).length = 2 := rfl

/-! ## SET-TIMING -/

theorem takeByte_eq_some {present : Bool} {l rest : List Byte} {field : Option Byte} :
    takeByte present l = some (field, rest) ↔ field.isSome = present ∧ l = giveByte field ++ rest := by
  cases present with
  | false => cases field <;> simp [takeByte, giveByte, eq_comm]
  | true => cases l <;> cases field <;> simp [takeByte, giveByte, eq_comm]

theorem takeHalf_eq_some {present : Bool} {l rest : List Byte} {field : Option Half} :
    takeHalf present l = some (field, rest) ↔ field.isSome = present ∧ l = giveHalf field ++ rest := by
  cases present with
  | false => cases field <;> simp [takeHalf, giveHalf, eq_comm]
  | true =>
    cases field with
    | none => cases l with
      | nil => simp [takeHalf]
      | cons hi l => cases l <;> simp [takeHalf]
    | some w =>
      cases l with
      | nil => simp [takeHalf, giveHalf, halfBytes]
      | cons hi l => cases l with
        | nil => simp [takeHalf, giveHalf, halfBytes]
        | cons lo l =>
          simp only [takeHalf, giveHalf, Option.some.injEq, Prod.mk.injEq, Option.isSome_some, true_and]
          constructor
          · rintro ⟨rfl, rfl⟩
            rw [halfBytes_half]
            rfl
          · intro same
            simp only [halfBytes, List.cons_append, List.nil_append, List.cons.injEq] at same
            obtain ⟨rfl, rfl, rfl⟩ := same
            exact ⟨half_halfBytes w, rfl⟩

/-- The byte with the given bits, bit 0 first. -/
def byteOfBits (b0 b1 b2 b3 b4 b5 b6 b7 : Bool) : Byte :=
  byteOf (b0.toNat + 2 * b1.toNat + 4 * b2.toNat + 8 * b3.toNat + 16 * b4.toNat + 32 * b5.toNat + 64 * b6.toNat + 128 * b7.toNat)

theorem byteOfBits_bits : ∀ b0 b1 b2 b3 b4 b5 b6 b7 : Bool, let b := byteOfBits b0 b1 b2 b3 b4 b5 b6 b7
    b.getLsbD 0 = b0 ∧ b.getLsbD 1 = b1 ∧ b.getLsbD 2 = b2 ∧ b.getLsbD 3 = b3 ∧ b.getLsbD 4 = b4 ∧ b.getLsbD 5 = b5
      ∧ b.getLsbD 6 = b6 ∧ b.getLsbD 7 = b7 := by decide

theorem eq_byteOfBits (b : Byte) : b = byteOfBits (b.getLsbD 0) (b.getLsbD 1) (b.getLsbD 2) (b.getLsbD 3) (b.getLsbD 4) (b.getLsbD 5)
    (b.getLsbD 6) (b.getLsbD 7) := by
  obtain ⟨h0, h1, h2, h3, h4, h5, h6, h7⟩ := byteOfBits_bits (b.getLsbD 0) (b.getLsbD 1) (b.getLsbD 2) (b.getLsbD 3) (b.getLsbD 4)
    (b.getLsbD 5) (b.getLsbD 6) (b.getLsbD 7)
  refine BitVec.eq_of_getLsbD_eq fun i below => ?_
  interval_cases i
  · exact h0.symm
  · exact h1.symm
  · exact h2.symm
  · exact h3.symm
  · exact h4.symm
  · exact h5.symm
  · exact h6.symm
  · exact h7.symm

theorem presenceByte_eq (f : TimingFields) : presenceByte f = byteOfBits f.interval.isSome f.silenceLimit.isSome f.dropLimit.isSome
    f.openingTenths.isSome f.transitionTenths.isSome f.playTenths.isSome f.finaleTenths.isSome f.hostSilence.isSome := rfl

/-- The fields of a SET-TIMING and its body name each other. -/
theorem decodeTiming_eq_some {presence : Byte} {l : List Byte} {f : TimingFields} :
    decodeTiming presence l = some f ↔ encodeTiming f = presence :: l := by
  unfold decodeTiming
  simp only [Option.bind_eq_some_iff, Prod.exists, takeByte_eq_some, takeHalf_eq_some]
  unfold encodeTiming
  rw [presenceByte_eq, List.cons.injEq]
  constructor
  · rintro ⟨a, _, ⟨h0, rfl⟩, b, _, ⟨h1, rfl⟩, c, _, ⟨h2, rfl⟩, d, _, ⟨h3, rfl⟩, e, _, ⟨h4, rfl⟩, g, _, ⟨h5, rfl⟩, h, _, ⟨h6, rfl⟩,
      k, rest, ⟨h7, rfl⟩, whole⟩
    cases rest with
    | nil =>
      cases whole
      dsimp only
      rw [h0, h1, h2, h3, h4, h5, h6, h7]
      exact ⟨(eq_byteOfBits presence).symm, by simp⟩
    | cons x rest => cases whole
  · rintro ⟨rfl, rfl⟩
    obtain ⟨h0, h1, h2, h3, h4, h5, h6, h7⟩ := byteOfBits_bits f.interval.isSome f.silenceLimit.isSome f.dropLimit.isSome
      f.openingTenths.isSome f.transitionTenths.isSome f.playTenths.isSome f.finaleTenths.isSome f.hostSilence.isSome
    exact ⟨_, _, ⟨h0.symm, rfl⟩, _, _, ⟨h1.symm, rfl⟩, _, _, ⟨h2.symm, rfl⟩, _, _, ⟨h3.symm, rfl⟩, _, _, ⟨h4.symm, rfl⟩, _, _,
      ⟨h5.symm, rfl⟩, _, _, ⟨h6.symm, rfl⟩, _, [], ⟨h7.symm, (List.append_nil _).symm⟩, rfl⟩

/-! ## Requests -/

/-- What a well-formed request is written as reads as that request. -/
theorem decodeBody_encoded {i : Instr} {kind tag : Byte} {body : List Byte} (sound : i.wf = true)
    (encoded : encodeRequest i = some (kind, tag, body)) : decodeBody kind.toNat tag body = some i := by
  cases i with
  | setTiming tag f =>
    cases encoded
    have read : decodeTiming (presenceByte f) (encodeTiming f).tail = some f := decodeTiming_eq_some.mpr rfl
    exact congrArg (Option.map (Instr.setTiming tag)) read
  | defineElement tag f =>
    cases encoded
    exact if_pos (eq_of_beq sound)
  | assignRobot tag slot team alliance =>
    cases encoded
    exact congrArg (fun w => some (Instr.assignRobot tag slot w alliance)) (half_halfBytes team)
  | adjust tag row column points =>
    cases encoded
    exact congrArg (fun w => some (Instr.adjust tag row column w)) (half_halfBytes points)
  | _ => cases encoded <;> rfl

/-- A request read from a body is well formed and written as that body. -/
theorem encodeRequest_decoded {n : Nat} {i : Instr} {tag : Byte} {body : List Byte} (decoded : decodeBody n tag body = some i) :
    i.wf = true ∧ ∃ kind : Byte, kind.toNat = n ∧ 1 ≤ n ∧ n ≤ 0x1D ∧ encodeRequest i = some (kind, tag, body) := by
  unfold decodeBody at decoded
  split at decoded
  case h_3 =>
    split at decoded
    · obtain ⟨f, read, rfl⟩ := Option.map_eq_some_iff.mp decoded
      exact ⟨rfl, 0x03, rfl, by decide, by decide, by rw [encodeRequest, decodeTiming_eq_some.mp read]⟩
    · cases decoded
  case h_5 =>
    split at decoded
    · split at decoded
      · next length =>
        cases decoded
        exact ⟨beq_of_eq length, 0x05, rfl, by decide, by decide, rfl⟩
      · cases decoded
    · cases decoded
  case h_7 =>
    split at decoded
    · cases decoded
      exact ⟨rfl, 0x07, rfl, by decide, by decide, by rw [encodeRequest, halfBytes_half]; rfl⟩
    · cases decoded
  case h_27 =>
    split at decoded
    · cases decoded
      exact ⟨rfl, 0x1B, rfl, by decide, by decide, by rw [encodeRequest, halfBytes_half]⟩
    · cases decoded
  case h_30 => cases decoded
  all_goals
    split at decoded
    · cases decoded
      exact ⟨rfl, _, rfl, by decide, by decide, rfl⟩
    · cases decoded

/-- The KIND of a request is one of the 29. -/
theorem encodeRequest_kind {i : Instr} {kind tag : Byte} {body : List Byte} (encoded : encodeRequest i = some (kind, tag, body)) :
    1 ≤ kind.toNat ∧ kind.toNat ≤ 0x1D := by
  cases i with
  | _ => cases encoded <;> decide

theorem decodeRequest_encoded {i : Instr} {kind tag : Byte} {body : List Byte} (sound : i.wf = true)
    (encoded : encodeRequest i = some (kind, tag, body)) : decodeRequest kind tag body = .request i := by
  obtain ⟨least, most⟩ := encodeRequest_kind encoded
  rw [decodeRequest, if_neg (by omega), decodeBody_encoded sound encoded]

/-- Settles O5: writing what was read, and reading what was written. -/
theorem decodeOfEncodedRequests : Obligations.DecodeOfEncodedRequests := by
  unfold Obligations.DecodeOfEncodedRequests
  refine ⟨fun i kind tag body => decodeRequest_encoded, fun i kind tag body decoded => ?_⟩
  unfold decodeRequest at decoded
  split at decoded
  · cases decoded
  · split at decoded
    · next read =>
      cases decoded
      obtain ⟨_, kind', same, _, _, encoded⟩ := encodeRequest_decoded read
      rwa [BitVec.eq_of_toNat_eq same] at encoded
    · cases decoded

end Sys2Proof.Machine

/-! Settles O6, O7 and O8: the assembly and the dispatch of request frames (R182 to R184, R190). -/
namespace Sys2Proof.Machine

/-! ## CRC fields -/

theorem splitCrc_append (counted : List Byte) {crc : List Byte} (length : crc.length = 2) : splitCrc (counted ++ crc) = (counted, crc) := by
  simp [splitCrc, length]

theorem crcRight_iff {crc : Half} {field : List Byte} : crcRight crc field = true ↔ field = halfBytes crc := beq_iff_eq

/-! ## Bytes, one after another -/

theorem receiveBytes_append (first second : List Byte) : ∀ {s t : State}, receiveBytes first s = .next t →
    receiveBytes (first ++ second) s = receiveBytes second t := by
  induction first with
  | nil =>
    intro s t arrives
    cases arrives
    rfl
  | cons b first ih =>
    intro s t arrives
    rw [List.cons_append, receiveBytes]
    rw [receiveBytes] at arrives
    cases one : receiveByte b s with
    | next u => rw [one] at arrives; exact ih arrives
    | fault r => rw [one] at arrives; cases arrives
    | refused r => rw [one] at arrives; cases arrives

/-- One byte alone. -/
theorem receiveBytes_one (b : Byte) (s : State) : receiveBytes [b] s = receiveByte b s := by
  rw [receiveBytes]
  cases receiveByte b s <;> rfl

theorem receiveBytes_next {b : Byte} {s t : State} (arrives : receiveByte b s = .next t) (rest : List Byte) :
    receiveBytes (b :: rest) s = receiveBytes rest t := by
  rw [receiveBytes, arrives]

section
variable {s : State} (listens : s.listening = true)
include listens

/-- While hunting, 5Eh begins a frame and any other byte is skipped. -/
theorem receiveByte_hunting (idle : s.hlp.rx = []) (b : Byte) :
    receiveByte b s = .next (if b = 0x5E#8 then s.setRx [b] else s) := by
  simp only [receiveByte, listens, idle, if_true]

theorem receiveByte_len {sync : Byte} (synced : s.hlp.rx = [sync]) (b : Byte) :
    receiveByte b s = .next (if badLen b then s.setRx [] else s.setRx [sync, b]) := by
  simp only [receiveByte, listens, synced, if_true]

theorem receiveByte_collects {sync len : Byte} {rest : List Byte} (begun : s.hlp.rx = sync :: len :: rest) (b : Byte) :
    receiveByte b s = if len.toNat + 2 ≤ rest.length + 1 then wholeFrame (len :: (rest ++ [b])) (s.setRx [])
      else .next (s.setRx (sync :: len :: (rest ++ [b]))) := by
  simp only [receiveByte, listens, begun, if_true]

end

theorem State.setRx_setRx (s : State) (rx rx' : List Byte) : (s.setRx rx).setRx rx' = s.setRx rx' := rfl

theorem State.setRx_rx (s : State) (rx : List Byte) : (s.setRx rx).hlp.rx = rx := rfl

theorem State.setRx_listening (s : State) (rx : List Byte) : (s.setRx rx).listening = s.listening := rfl

/-- The bytes behind LEN are collected until the frame is whole. -/
theorem receiveBytes_collects {sync len last : Byte} (bytes : List Byte) : ∀ {s : State} {rest : List Byte}, s.listening = true →
    s.hlp.rx = sync :: len :: rest → rest.length + bytes.length + 1 = len.toNat + 2 →
    receiveBytes (bytes ++ [last]) s = wholeFrame (len :: (rest ++ (bytes ++ [last]))) (s.setRx []) := by
  induction bytes with
  | nil =>
    intro s rest listens begun whole
    rw [List.length_nil] at whole
    rw [List.nil_append, receiveBytes_one, receiveByte_collects listens begun, if_pos (by omega)]
  | cons b bytes ih =>
    intro s rest listens begun whole
    rw [List.length_cons] at whole
    have step := (receiveByte_collects listens begun b).trans (if_neg (by omega))
    rw [List.cons_append, receiveBytes_next step, ih (s := s.setRx (sync :: len :: (rest ++ [b]))) listens (s.setRx_rx _)
      (by rw [List.length_append, List.length_singleton]; omega), State.setRx_setRx, List.append_assoc]
    rfl

/-- A frame of the right length, received while hunting, is checked as a whole. -/
theorem receiveBytes_frame {s : State} (listens : s.listening = true) (idle : s.hlp.rx = []) {len : Byte} (least : 2 ≤ len.toNat)
    (most : len.toNat ≤ 250) {behind : List Byte} (whole : behind.length = len.toNat + 2) :
    receiveBytes (0x5E#8 :: len :: behind) s = wholeFrame (len :: behind) (s.setRx []) := by
  have first := receiveByte_hunting listens idle 0x5E#8
  rw [if_pos rfl] at first
  have second := receiveByte_len (s := s.setRx [0x5E#8]) listens rfl len
  rw [if_neg (by simp [badLen]; omega)] at second
  obtain rfl | ⟨bytes, last, rfl⟩ := List.eq_nil_or_concat behind
  · cases whole
  · rw [List.concat_eq_append] at whole ⊢
    rw [List.length_append, List.length_singleton] at whole
    rw [receiveBytes_next first, receiveBytes_next second, receiveBytes_collects (s := (s.setRx [0x5E#8]).setRx [0x5E#8, len]) (rest := []) bytes listens rfl
      (by rw [List.length_nil]; omega), State.setRx_setRx, State.setRx_setRx, List.nil_append]

/-- A whole frame with the right CRC is dispatched. -/
theorem wholeFrame_sound (len kind tag : Byte) (body : List Byte) (s : State) :
    wholeFrame (len :: kind :: tag :: body ++ halfBytes (hostCrc (len :: kind :: tag :: body))) s = dispatchRequest kind tag body s := by
  simp only [wholeFrame, splitCrc_append _ (halfBytes_length _), crcRight_iff, if_true]

/-- A sound frame, received while hunting, is dispatched. -/
theorem receiveBytes_sound {s : State} (listens : s.listening = true) (idle : s.hlp.rx = []) (kind tag : Byte) {body : List Byte}
    (short : body.length ≤ 248) : receiveBytes (hostFrameBytes kind tag body) s = dispatchRequest kind tag body (s.setRx []) := by
  have len : (byteOf (body.length + 2)).toNat = body.length + 2 := by
    rw [byteOf, BitVec.toNat_ofNat]
    omega
  rw [← wholeFrame_sound (byteOf (body.length + 2))]
  exact receiveBytes_frame listens idle (by omega) (by omega) (by simp [len])

/-- Taking a whole frame leaves the receive buffer as it is while hunting. -/
theorem State.setRx_of_idle {s : State} (idle : s.hlp.rx = []) : s.setRx [] = { s with hlp := { s.hlp with rxGap := 0 } } := by
  rw [← idle]
  rfl

/-! ## Dispatch -/

/-- A request's own arm is what its owner is handed. -/
theorem handRequest_encoded {i : Instr} {kind tag : Byte} {body : List Byte} (encoded : encodeRequest i = some (kind, tag, body)) (s : State) :
    handRequest i s = exec i s := by
  cases i with
  | _ => cases encoded <;> rfl

theorem encodeTiming_length (f : TimingFields) : (encodeTiming f).length ≤ 13 := by
  have one (b : Option Byte) : (giveByte b).length ≤ 1 := by cases b <;> simp [giveByte]
  have two (w : Option Half) : (giveHalf w).length ≤ 2 := by cases w <;> simp [giveHalf]
  have := one f.interval
  have := one f.silenceLimit
  have := one f.dropLimit
  have := one f.hostSilence
  have := two f.openingTenths
  have := two f.transitionTenths
  have := two f.playTenths
  have := two f.finaleTenths
  simp only [encodeTiming, List.length_cons, List.length_append]
  omega

theorem encodeRequest_length {i : Instr} {kind tag : Byte} {body : List Byte} (sound : i.wf = true)
    (encoded : encodeRequest i = some (kind, tag, body)) : body.length ≤ 17 := by
  cases i with
  | setTiming tag f =>
    cases encoded
    have := encodeTiming_length f
    omega
  | defineElement tag f =>
    cases encoded
    have kind : f.kindPart.length = 9 := eq_of_beq sound
    simp [kind]
  | _ => cases encoded <;> simp

/-- Settles O6: the bytes of a sound frame are collected, its CRC is right, and its request is read back. -/
theorem hostFrameRunsItsRequest : Obligations.HostFrameRunsItsRequest := by
  unfold Obligations.HostFrameRunsItsRequest
  refine ⟨fun i kind tag body s sound encoded listens idle => ?_, fun first second s t => receiveBytes_append first second⟩
  have short := encodeRequest_length sound encoded
  rw [← State.setRx_of_idle idle, ← handRequest_encoded encoded]
  refine (receiveBytes_sound listens idle kind tag (by omega)).trans ?_
  rw [dispatchRequest, decodeRequest_encoded sound encoded]

/-! ## What is discarded -/

theorem badLen_iff {b : Byte} : badLen b = true ↔ b.toNat < 2 ∨ 250 < b.toNat := by simp [badLen]

theorem wholeFrame_unsound {len : Byte} {counted crc : List Byte} (two : crc.length = 2) (wrong : crc ≠ halfBytes (hostCrc (len :: counted)))
    (s : State) : wholeFrame (len :: (counted ++ crc)) s = .next s := by
  have parts : splitCrc (len :: (counted ++ crc)) = (len :: counted, crc) := splitCrc_append (len :: counted) two
  simp only [wholeFrame, parts]
  exact if_neg fun right => wrong (crcRight_iff.mp right)

/-- Settles O7: each unsound byte or frame empties the receive buffer. -/
theorem unsoundHostBytesAreDiscarded : Obligations.UnsoundHostBytesAreDiscarded := by
  unfold Obligations.UnsoundHostBytesAreDiscarded
  intro s hunting
  refine ⟨rfl, fun b => rfl, fun b one bad => ?_, fun listens idle b other => ?_, fun listens idle => ?_, fun listens synced b bad => ?_,
    fun listens idle len counted crc least most long two wrong => ?_⟩
  · exact congrArg Host.Outcome.next (if_pos (by simp [one, badLen_iff.mpr bad]))
  · exact (receiveBytes_one b s).trans ((receiveByte_hunting listens idle b).trans (congrArg Host.Outcome.next (if_neg other)))
  · exact (receiveBytes_one _ s).trans ((receiveByte_hunting listens idle _).trans (congrArg Host.Outcome.next (if_pos rfl)))
  · exact (receiveBytes_one b s).trans ((receiveByte_len listens synced b).trans
      (congrArg Host.Outcome.next (if_pos (badLen_iff.mpr bad))))
  · exact (receiveBytes_frame listens idle least most (by rw [List.length_append, long, two])).trans (wholeFrame_unsound two wrong _)

/-! ## What is refused or ignored -/

theorem decodeTiming_length {presence : Byte} {l : List Byte} {f : TimingFields} (read : decodeTiming presence l = some f) :
    l.length = presentBytes presence := by
  have written := decodeTiming_eq_some.mp read
  rw [encodeTiming, List.cons.injEq, presenceByte_eq] at written
  obtain ⟨rfl, rfl⟩ := written
  have one (b : Option Byte) : (giveByte b).length = b.isSome.toNat := by cases b <;> rfl
  have two (w : Option Half) : (giveHalf w).length = 2 * w.isSome.toNat := by cases w <;> rfl
  obtain ⟨h0, h1, h2, h3, h4, h5, h6, h7⟩ := byteOfBits_bits f.interval.isSome f.silenceLimit.isSome f.dropLimit.isSome
    f.openingTenths.isSome f.transitionTenths.isSome f.playTenths.isSome f.finaleTenths.isSome f.hostSilence.isSome
  simp only [presentBytes, h0, h1, h2, h3, h4, h5, h6, h7, List.length_append, one, two]
  omega

/-- The body of a request has the length its KIND calls for. -/
theorem bodyFits_encoded {i : Instr} {kind tag : Byte} {body : List Byte} (sound : i.wf = true)
    (encoded : encodeRequest i = some (kind, tag, body)) : bodyFits kind body := by
  cases i with
  | setTiming tag f =>
    cases encoded
    exact ⟨presenceByte f, (encodeTiming f).tail, rfl, decodeTiming_length (decodeTiming_eq_some.mpr rfl)⟩
  | defineElement tag f =>
    cases encoded
    have kind : f.kindPart.length = 9 := eq_of_beq sound
    simp [bodyFits, bodyLengths, kind]
  | _ => cases encoded <;> rfl

/-- A body of another length than its request calls for (R184). -/
theorem decodeRequest_misfit {kind tag : Byte} {body : List Byte} (named : kind ≠ 0) (known : kind.toNat ≤ 0x1D)
    (misfit : ¬ bodyFits kind body) : decodeRequest kind tag body = .badLength := by
  have nonzero : kind.toNat ≠ 0 := fun zero => named (BitVec.eq_of_toNat_eq zero)
  rw [decodeRequest, if_neg (by omega)]
  cases read : decodeBody kind.toNat tag body with
  | none => rfl
  | some i =>
    obtain ⟨sound, kind', same, _, _, encoded⟩ := encodeRequest_decoded read
    rw [BitVec.eq_of_toNat_eq same] at encoded
    exact absurd (bodyFits_encoded sound encoded) misfit

/-- Every host request is the arrival of a good frame. -/
theorem exec_request {i : Instr} (named : (encodeRequest i).isSome) :
    ∃ kind tag owner behind, ∀ s, exec i s = .next (State.goodFrameThen s kind tag owner behind) := by
  cases i with
  | _ => cases named <;> exact ⟨_, _, _, _, fun _ => rfl⟩

theorem receiveBytes_deaf {s : State} (deaf : s.listening = false) (bytes : List Byte) : receiveBytes bytes s = .next s := by
  induction bytes with
  | nil => rfl
  | cons b bytes ih =>
    have skips : receiveByte b s = .next s := if_neg (by rw [deaf]; exact Bool.false_ne_true)
    rw [receiveBytes_next skips, ih]

theorem Phase.stagedToFinale_iff (p : Phase) :
    p.stagedToFinale = true ↔ p = .staged ∨ p = .opening ∨ p = .transition ∨ p = .play ∨ p = .finale := by
  cases p <;> decide

theorem State.restartSilence_eq (s : State) : s.restartSilence = { s with mch :=
    if (s.mch.phase = .staged ∨ s.mch.phase = .opening ∨ s.mch.phase = .transition ∨ s.mch.phase = .play
        ∨ s.mch.phase = .finale) ∧ s.mch.hostLimit ≠ 0 then
      { s.mch with silenceElapsed := 0, silenceExpired := false }
    else s.mch } := by
  unfold State.restartSilence
  simp only [Bool.and_eq_true, Phase.stagedToFinale_iff, bne_iff_ne]
  split <;> rfl

/-- Settles O8: the two checks of the HLP, and what stands before them. -/
theorem framesThatAreRefusedOrIgnored : Obligations.FramesThatAreRefusedOrIgnored := by
  unfold Obligations.FramesThatAreRefusedOrIgnored
  refine ⟨fun s kind tag body accepted idle short => ?_, fun i s named => ⟨fun reset => ?_, fun running full => ?_, s.restartSilence_eq⟩⟩
  · intro hunting
    have listens : s.listening = true := (Bool.and_eq_true_iff.mp accepted).1
    have taken : s.setRx [] = hunting := State.setRx_of_idle idle
    have still : hunting.accepts = true := accepted
    have dispatched := receiveBytes_sound listens idle kind tag short
    rw [taken] at dispatched
    refine ⟨fun unknown => ⟨_, dispatched.trans ?_, State.refuses_of (a := refuse hunting.restartSilence .unknownRequest) rfl kind tag⟩,
      fun nonzero known misfit => ⟨_, dispatched.trans ?_, State.refuses_of (a := refuse hunting.restartSilence .badLength) rfl kind tag⟩⟩
    · have outside : kind.toNat = 0 ∨ 0x1D < kind.toNat := unknown.imp_left fun zero => by rw [zero]; rfl
      rw [dispatchRequest, decodeRequest, if_pos outside]
      exact congrArg Host.Outcome.next (State.goodFrame_eq still kind tag _)
    · rw [dispatchRequest, decodeRequest_misfit nonzero known misfit]
      exact congrArg Host.Outcome.next (State.goodFrame_eq still kind tag _)
  · have deaf : s.listening = false := by simp [State.listening, reset]
    obtain ⟨kind, tag, owner, behind, arrives⟩ := exec_request named
    refine ⟨?_, receiveBytes_deaf deaf⟩
    rw [arrives, State.goodFrameThen_turnedAway (by simp [State.accepts, deaf]), deaf]
    rfl
  · have listens : s.listening = true := by simp [State.listening, running]
    have roomless : s.replyRoom = false := decide_eq_false (show ¬ s.hlp.replies < 2 from Nat.not_lt.mpr full)
    obtain ⟨kind, tag, owner, behind, arrives⟩ := exec_request named
    rw [arrives, State.goodFrameThen_turnedAway (by simp [State.accepts, roomless]), listens]
    rfl

end Sys2Proof.Machine

/-! Settles O14: the settings a DEFINE-ELEMENT carries (R3, R113, R133, R140, R147). -/
namespace Sys2Proof.Machine

/-! ## Codes -/

theorem allianceOf_isSome {b : Byte} : (allianceOf b).isSome = true ↔ b.toNat ≤ 4 := by
  refine ⟨fun coded => ?_, allianceOf_within⟩
  by_contra above
  rw [allianceOf_above (by omega)] at coded
  cases coded

theorem yesNoOf_isSome {b : Byte} : (yesNoOf b).isSome = true ↔ b.toNat ≤ 1 := by
  refine ⟨fun coded => ?_, fun within => by rw [yesNoOf_within within]; rfl⟩
  by_contra above
  rw [yesNoOf_above (by omega)] at coded
  cases coded

theorem lampModeOf_isSome {b : Byte} : (lampModeOf b).isSome = true ↔ b.toNat ≤ 2 := by
  unfold lampModeOf
  split <;> simp_all
  omega

theorem endModeOf_isSome {b : Byte} : (endModeOf b).isSome = true ↔ b.toNat ≤ 1 := by
  unfold endModeOf
  split <;> simp_all
  omega

theorem phaseSetOf_isSome {b : Byte} : (phaseSetOf b).isSome = true ↔ b.toNat < 16 := by
  unfold phaseSetOf
  split <;> simp_all

theorem phaseSetOf_within {b : Byte} (within : b.toNat < 16) : phaseSetOf b = some (b.setWidth 4) := by
  rw [phaseSetOf, if_pos within, ← BitVec.setWidth_eq_extractLsb' (by decide)]

theorem kindOf_eq_some {b : Byte} {k : Kind} : kindOf b = some k ↔ b = k.code := by
  refine ⟨fun coded => BitVec.eq_of_toNat_eq ?_, fun same => by rw [same]; cases k <;> rfl⟩
  unfold kindOf at coded
  split at coded
  case h_5 => cases coded
  all_goals
    next code =>
    cases coded
    exact code

theorem kindOf_above {b : Byte} (above : 3 < b.toNat) : kindOf b = none := by
  unfold kindOf
  split
  case h_5 => rfl
  all_goals omega

theorem allianceOf_allianceCode (alliance : Option Alliance) : allianceOf (allianceCode alliance) = some alliance := by
  cases alliance with
  | none => rfl
  | some side => cases side <;> rfl

theorem endModeOf_code (mode : EndMode) : endModeOf mode.code = some mode := by cases mode <;> rfl

theorem half_toNat (high low : Byte) : (half high low).toNat = 256 * high.toNat + low.toNat := by
  rw [half, BitVec.toNat_append, ← Nat.shiftLeft_add_eq_or_of_lt low.isLt, Nat.shiftLeft_eq]
  omega

theorem exists_of_length_nine {l : List Byte} (nine : l.length = 9) :
    ∃ r0 r1 r2 r3 r4 r5 r6 r7 r8, l = [r0, r1, r2, r3, r4, r5, r6, r7, r8] := by
  match l, nine with
  | [r0, r1, r2, r3, r4, r5, r6, r7, r8], _ => exact ⟨r0, r1, r2, r3, r4, r5, r6, r7, r8, rfl⟩

/-! ## The coding check (R193) -/

theorem kindPartCoded_eq (k : Kind) (r0 r1 r2 r3 r4 r5 r6 r7 r8 : Byte) : kindPartCoded k [r0, r1, r2, r3, r4, r5, r6, r7, r8] =
    match k with
    | .goal => (phaseSetOf r0).isSome && (lampModeOf r4).isSome
    | .station => (phaseSetOf r0).isSome && (lampModeOf r2).isSome
    | .gate => true
    | .carriage => (endModeOf r8).isSome := by
  cases k <;> rfl

theorem fieldsCoded_iff {f : ElementFields} (nine : f.kindPart.length = 9) : fieldsCoded f = true ↔
    f.alliance.toNat ≤ 4 ∧ f.faultHolds.toNat ≤ 1
      ∧ (f.kind = 0 → (f.kindPart.getD 0 0).toNat < 16 ∧ (f.kindPart.getD 4 0).toNat ≤ 2)
      ∧ (f.kind = 2 → (f.kindPart.getD 0 0).toNat < 16 ∧ (f.kindPart.getD 2 0).toNat ≤ 2)
      ∧ (f.kind = 3 → (f.kindPart.getD 8 0).toNat ≤ 1) := by
  obtain ⟨r0, r1, r2, r3, r4, r5, r6, r7, r8, bytes⟩ := exists_of_length_nine nine
  unfold fieldsCoded
  rw [bytes, Bool.and_eq_true, Bool.and_eq_true, allianceOf_isSome, yesNoOf_isSome, and_assoc]
  refine and_congr_right fun _ => and_congr_right fun _ => ?_
  cases coded : kindOf f.kind with
  | none =>
    have other (k : Kind) : f.kind ≠ k.code := fun same => by rw [kindOf_eq_some.mpr same] at coded; cases coded
    have := other .goal
    have := other .station
    have := other .carriage
    simp_all [Kind.code]
  | some k =>
    rw [kindOf_eq_some.mp coded]
    cases k <;> simp [kindPartCoded_eq, Kind.code, phaseSetOf_isSome, lampModeOf_isSome, endModeOf_isSome]

/-! ## The record (R3, R4) -/

/-- The bytes that every kind shares lie in their ranges (R3). -/
def fieldsCommon (f : ElementFields) (k : Kind) (alliance : Option Alliance) : Prop :=
  f.index.toNat < 48 ∧ 1 ≤ f.address.toNat ∧ f.address.toNat ≤ 63
    ∧ (f.pollPeriod.toNat = 0 ∨ (2 ≤ f.pollPeriod.toNat ∧ f.pollPeriod.toNat ≤ 100))
    ∧ (k = .carriage → alliance = none) ∧ f.holdLimit.toNat ≤ 120 ∧ f.guardTime.toNat ≤ 30
    ∧ (¬ (k = .gate ∨ k = .station ∨ (k = .goal ∧ alliance = none)) → f.holdLimit.toNat = 0 ∧ f.guardTime.toNat = 0)

/-- The record around a kind part. -/
def fieldsRecord (f : ElementFields) (alliance : Option Alliance) (part : KindPart) : ElementRecord :=
  { address := f.address, alliance := alliance, state := .probing, failures := 0, epoch := none, reading := none,
    pollPeriod := if f.pollPeriod.toNat = 0 then 100 else 10 * f.pollPeriod.toNat, faultHolds := f.faultHolds == 1,
    holdLimit := 10 * f.holdLimit.toNat, guardTime := 10 * f.guardTime.toNat, sticky := Sticky.clear,
    claim := ClaimPart.empty, part := part }

theorem claimable_eq_true {k : Kind} {alliance : Option Alliance} :
    claimable k alliance = true ↔ k = .gate ∨ k = .station ∨ (k = .goal ∧ alliance = none) := by
  cases k <;> simp [claimable]

theorem pollPeriodOf_within {b : Byte} (within : b.toNat = 0 ∨ (2 ≤ b.toNat ∧ b.toNat ≤ 100)) :
    pollPeriodOf b = some (if b.toNat = 0 then 100 else 10 * b.toNat) := by
  unfold pollPeriodOf
  split
  · rfl
  · next nonzero => rw [if_pos (within.resolve_left nonzero), Nat.mul_comm]

theorem pollPeriodOf_outside {b : Byte} (outside : ¬ (b.toNat = 0 ∨ (2 ≤ b.toNat ∧ b.toNat ≤ 100))) : pollPeriodOf b = none := by
  rw [pollPeriodOf, if_neg (fun zero => outside (Or.inl zero)), if_neg fun within => outside (Or.inr within)]

section
variable {f : ElementFields} {k : Kind} {alliance : Option Alliance} (kind : f.kind = k.code) (side : f.alliance = allianceCode alliance)
  (holds : f.faultHolds.toNat ≤ 1)
include kind side holds

/-- Bytes in their ranges give the record around their kind part. -/
theorem recordOf_common {i : Index} (index : f.index.toNat = i.val) (common : fieldsCommon f k alliance) :
    recordOf f = (kindPartOf k f.kindPart).map fun part => (i, fieldsRecord f alliance part) := by
  obtain ⟨_, least, most, period, carriage, hold, guard, unclaimed⟩ := common
  have yes : decide (f.faultHolds ≠ 0) = (f.faultHolds == 1) := by
    have codes : f.faultHolds = 0 ∨ f.faultHolds = 1 := by
      have : f.faultHolds.toNat = 0 ∨ f.faultHolds.toNat = 1 := by omega
      exact this.imp (fun zero => BitVec.eq_of_toNat_eq zero) fun one => BitVec.eq_of_toNat_eq one
    rcases codes with code | code <;> rw [code] <;> rfl
  have unclaimable : ¬ (claimable k alliance = false ∧ (f.holdLimit.toNat ≠ 0 ∨ f.guardTime.toNat ≠ 0)) := by
    rintro ⟨never, some_⟩
    have := unclaimed fun claims => by rw [claimable_eq_true.mpr claims] at never; cases never
    omega
  simp only [recordOf, indexOf_val index, kindOf_eq_some.mpr kind, side, allianceOf_allianceCode, pollPeriodOf_within period,
    yesNoOf_within holds]
  rw [if_neg (by omega), if_neg (fun ⟨h, g⟩ => g (carriage h)), if_neg (by omega), if_neg unclaimable]
  cases kindPartOf k f.kindPart with
  | none => rfl
  | some part =>
    rw [yes, Nat.mul_comm f.holdLimit.toNat, Nat.mul_comm f.guardTime.toNat]
    rfl

/-- A byte outside its range gives no record. -/
theorem recordOf_uncommon (outside : ¬ fieldsCommon f k alliance) : recordOf f = none := by
  simp only [recordOf, kindOf_eq_some.mpr kind, side, allianceOf_allianceCode, yesNoOf_within holds]
  cases index : indexOf f.index with
  | none => rfl
  | some i =>
    have below : f.index.toNat < 48 := by
      by_contra above
      rw [indexOf_above (by omega)] at index
      cases index
    by_cases period : f.pollPeriod.toNat = 0 ∨ (2 ≤ f.pollPeriod.toNat ∧ f.pollPeriod.toNat ≤ 100)
    · rw [pollPeriodOf_within period]
      dsimp only
      split
      · rfl
      · next address =>
        split
        · rfl
        · next free =>
          split
          · rfl
          · next limits =>
            split
            · rfl
            · next unclaimed =>
              refine absurd ⟨below, by omega, by omega, period, fun carriage => ?_, by omega, by omega, fun never => ?_⟩ outside
              · by_contra owned
                exact free ⟨carriage, owned⟩
              · have none_ : claimable k alliance = false := Bool.eq_false_iff.mpr fun claims => never (claimable_eq_true.mp claims)
                by_contra some_
                exact unclaimed ⟨none_, by omega⟩
    · rw [pollPeriodOf_outside period]

end

theorem kindPartOf_gate (high low r2 r3 r4 r5 r6 r7 r8 : Byte) : kindPartOf .gate [high, low, r2, r3, r4, r5, r6, r7, r8] =
    if 5 ≤ 256 * high.toNat + low.toNat ∧ 256 * high.toNat + low.toNat ≤ 50 then
      some (.gate (gateStart (256 * high.toNat + low.toNat))) else none := by
  rw [← half_toNat]
  rfl

theorem kindPartOf_goal {set : Byte} (within : set.toNat < 16) (quota points bonus : Byte) (mode : LampMode) (r5 r6 r7 r8 : Byte) :
    kindPartOf .goal [set, quota, points, bonus, mode.code, r5, r6, r7, r8] = if points.toNat ≤ 100 then
      some (.goal (goalStart (set.setWidth 4) quota.toNat points.toNat bonus.toNat mode)) else none := by
  simp only [kindPartOf, phaseSetOf_within within, lampModeOf_code]

theorem kindPartOf_station {set : Byte} (within : set.toNat < 16) (points : Byte) (mode : LampMode) (r3 r4 r5 r6 r7 r8 : Byte) :
    kindPartOf .station [set, points, mode.code, r3, r4, r5, r6, r7, r8] = if points.toNat ≤ 50 then
      some (.station (stationStart (set.setWidth 4) points.toNat mode)) else none := by
  simp only [kindPartOf, phaseSetOf_within within, lampModeOf_code]

theorem kindPartOf_carriage (speeds : Vector Byte 8) (mode : EndMode) : kindPartOf .carriage (speeds.toList ++ [mode.code]) =
    if ∀ z : Fin 8, speeds[z.val].toNat ≤ 100 then some (.carriage (carriageStart (speeds.map (·.toNat)) mode)) else none := by
  obtain ⟨⟨l⟩, size⟩ := speeds
  match l, size with
  | [z0, z1, z2, z3, z4, z5, z6, z7], _ =>
    simp only [kindPartOf, Vector.toList, List.cons_append, List.nil_append, endModeOf_code]
    simp [Fin.forall_fin_succ]

theorem LampMode.startsLit_eq (mode : LampMode) : mode.startsLit = (mode == .on) := by cases mode <;> rfl

/-- Settles O14: the coding check by kind, the shared bytes, and each kind's part. -/
theorem definedRecordCarriesTheSettings : Obligations.DefinedRecordCarriesTheSettings := by
  unfold Obligations.DefinedRecordCarriesTheSettings
  refine ⟨fun f nine => fieldsCoded_iff nine, fun f above => ?_, fun f k alliance nine kind side holds => ?_⟩
  · simp only [recordOf, kindOf_above above]
    cases indexOf f.index <;> rfl
  · intro claims common record
    refine ⟨recordOf_uncommon kind side holds, fun i index within => ⟨?_, ?_, ?_, ?_⟩⟩
    · intro high low r2 r3 r4 r5 r6 r7 r8 gate bytes limit
      subst gate
      rw [recordOf_common kind side holds index within, bytes, kindPartOf_gate]
      exact apply_ite _ _ _ _
    · intro set quota points bonus lamp r5 r6 r7 r8 mode goal small code bytes
      subst goal code
      rw [recordOf_common kind side holds index within, bytes, kindPartOf_goal small, ← LampMode.startsLit_eq]
      exact apply_ite _ _ _ _
    · intro set points lamp r3 r4 r5 r6 r7 r8 mode station small code bytes
      subst station code
      rw [recordOf_common kind side holds index within, bytes, kindPartOf_station small, ← LampMode.startsLit_eq]
      exact apply_ite _ _ _ _
    · intro speeds mode carriage bytes
      subst carriage
      rw [recordOf_common kind side holds index within, bytes, kindPartOf_carriage]
      exact apply_ite _ _ _ _

end Sys2Proof.Machine

/-! Settles O13 and O15: DEFINE-ELEMENT starts a record afresh, REMOVE-ELEMENT undefines one (R3 to R6). -/
namespace Sys2Proof.Machine

/-! ## Asks leave the due time and what was asked for -/

theorem State.askLamp_dues (s : State) (i j : Index) (on : Bool) :
    ((s.askLamp i on).sched j).due = (s.sched j).due ∧ ((s.askLamp i on).sched j).owed = (s.sched j).owed := by
  unfold State.askLamp
  split
  · exact ⟨rfl, rfl⟩
  · split
    · rw [State.sched_modSched]
      split
      · next here => rw [here]; exact ⟨rfl, rfl⟩
      · exact ⟨rfl, rfl⟩
    · exact ⟨rfl, rfl⟩

theorem State.askRefresh_dues (s : State) (i j : Index) :
    ((s.askRefresh i).sched j).due = (s.sched j).due ∧ ((s.askRefresh i).sched j).owed = (s.sched j).owed := by
  unfold State.askRefresh
  split
  · exact ⟨rfl, rfl⟩
  · split
    · rw [State.sched_modSched]
      split
      · next here => rw [here]; exact ⟨rfl, rfl⟩
      · exact ⟨rfl, rfl⟩
    · exact ⟨rfl, rfl⟩

/-- An ask for a lamp drive leaves the polls that were asked for. -/
theorem State.askLamp_refreshAsked {s : State} {i : Index} (asked : s.refreshAsked i) (j : Index) (on : Bool) : (s.askLamp j on).refreshAsked i := by
  unfold State.askLamp
  split
  · rcases asked with waits | flies | marked
    · refine Or.inl ?_
      obtain ⟨e, here, poll⟩ := List.any_eq_true.mp waits
      refine List.any_eq_true.mpr ⟨e, List.mem_map.mpr ⟨e, here, if_neg fun lamp => ?_⟩, poll⟩
      obtain ⟨lamp, _⟩ := Bool.and_eq_true_iff.mp lamp
      obtain ⟨poll, _⟩ := Bool.and_eq_true_iff.mp poll
      cases op : e.op <;> simp [Entry.isLamp, Entry.isPoll, op] at lamp poll
    · exact Or.inr (Or.inl flies)
    · exact Or.inr (Or.inr marked)
  · split
    · refine asked.imp id (Or.imp id fun marked => ?_)
      rw [State.sched_modSched]
      split
      · next here => rw [here] at marked; exact marked
      · exact marked
    · refine asked.imp_left fun waits => ?_
      obtain ⟨e, here, poll⟩ := List.any_eq_true.mp waits
      exact List.any_eq_true.mpr ⟨e, List.mem_append_left _ here, poll⟩

theorem State.refreshAsked_of_ebc {s t : State} (bus : t.ebc = s.ebc) (i : Index) : t.refreshAsked i ↔ s.refreshAsked i := by
  simp only [State.refreshAsked, State.queued, State.pollInFlight, State.sched, bus]

theorem State.ebc_askRefresh_congr {s t : State} (bus : t.ebc = s.ebc) (clock : t.now = s.now) (i : Index) :
    (t.askRefresh i).ebc = (s.askRefresh i).ebc := by
  have polls : t.queued (fun e => e.isPoll && e.isFor i) = s.queued fun e => e.isPoll && e.isFor i := by rw [State.queued, bus]; rfl
  have flies : t.pollInFlight i = s.pollInFlight i := by unfold State.pollInFlight; rw [bus]
  unfold State.askRefresh
  rw [polls, flies, bus]
  split
  · exact bus
  · split
    · simp only [State.modSched, State.setSched, State.sched, bus, State.setEbc]
    · simp only [State.enter, bus, clock, State.setEbc]

/-! ## The new record (R4, R5) -/

/-- The first lamp drive of a record, as an ask. -/
def KindPart.firstLamps (i : Index) (part : KindPart) : List (Index × Bool) :=
  match part with
  | .goal p => [(i, p.lit)]
  | .station p => [(i, p.lit)]
  | .gate _ | .carriage _ => []

theorem State.askFirstLamp_eq (s : State) (i : Index) (part : KindPart) : s.askFirstLamp i part = s.asksLamps (part.firstLamps i) := by
  cases part <;> rfl

theorem State.askFirstLamp_dues (s : State) (i : Index) (part : KindPart) :
    ((s.askFirstLamp i part).sched i).due = (s.sched i).due ∧ ((s.askFirstLamp i part).sched i).owed = (s.sched i).owed := by
  cases part with
  | goal p => exact s.askLamp_dues i i p.lit
  | station p => exact s.askLamp_dues i i p.lit
  | _ => exact ⟨rfl, rfl⟩

theorem State.askFirstLamp_refreshAsked {s : State} {i : Index} (asked : s.refreshAsked i) (part : KindPart) :
    (s.askFirstLamp i part).refreshAsked i := by
  cases part with
  | goal p => exact State.askLamp_refreshAsked asked i p.lit
  | station p => exact State.askLamp_refreshAsked asked i p.lit
  | _ => exact asked

theorem State.onlyChanges_define (s : State) (i : Index) (r : ElementRecord) : s.onlyChanges (s.define i r) [.hlp, .roster, .elems, .ebc] :=
  fun b other => by cases b <;> simp_all [State.sameBlock]

theorem State.onlyChanges_define_new {s : State} {i : Index} (undefined : s.elem i = none) (r : ElementRecord) :
    s.onlyChanges (s.define i r) [.hlp, .elems, .ebc] := by
  intro b other
  by_cases roster : b = .roster
  · rw [roster]
    simp [State.sameBlock, State.define, undefined]
  · exact s.onlyChanges_define i r b (by simp_all)

/-- The bus of a new definition before it asks for anything. -/
def State.freshBus (s : State) (i : Index) : State :=
  let bus := if (s.elem i).isSome then s.busPutAway i else s.ebc
  { s with ebc := { bus with sched := bus.sched.set i.val { Sched.clear with due := some s.now, owed := true } } }

theorem State.freshBus_asks (s : State) (m : Mch) (i : Index) (lamps : List (Index × Bool)) :
    ((((s.setMch m).freshBus i).askRefresh i).asksLamps lamps).ebc = (((s.freshBus i).askRefresh i).asksLamps lamps).ebc := by
  have bus := State.ebc_askRefresh_congr (s := s.freshBus i) (t := (s.setMch m).freshBus i) rfl rfl i
  refine State.ebc_asksLamps_congr bus ?_ lamps
  simp only [State.askRefresh_frame]
  rfl

theorem State.freshBus_sched (s : State) (i : Index) : (s.freshBus i).sched i = { Sched.clear with due := some s.now, owed := true } := by
  simp [State.sched, State.freshBus]

/-- What a definition leaves of the table and the bus. -/
theorem State.define_leaves (s : State) (i : Index) (r : ElementRecord) {t : State} (made : t = s.define i r) :
    s.elemsBut t i ∧ t.elem i = some r ∧ (t.sched i).due = some s.now ∧ (t.sched i).owed = true ∧ t.refreshAsked i
      ∧ (∀ p, r.part = .goal p → t.lampAsked i p.lit) ∧ (∀ p, r.part = .station p → t.lampAsked i p.lit)
      ∧ t.ebc = (((s.freshBus i).askRefresh i).asksLamps (r.part.firstLamps i)).ebc := by
  obtain ⟨a, put⟩ : ∃ a, a = if (s.elem i).isSome then s.putAway i else s := ⟨_, rfl⟩
  obtain ⟨b, set⟩ : ∃ b, b = (a.setElem i (some r)).setSched i s.schedNew := ⟨_, rfl⟩
  have whole : t = ((b.askRefresh i).askFirstLamp i r.part).raiseElement i (.defined r.part.kind) := by rw [made, set, put]; rfl
  have elems : a.elems = s.elems := by
    rw [put]
    split
    · exact (s.putAway_spec i).2.2.2.2.2.2.2.2.1
    · rfl
  have bus : a.ebc = if (s.elem i).isSome then s.busPutAway i else s.ebc := by
    rw [put]
    split
    · exact s.putAway_ebc i
    · rfl
  have now : a.now = s.now := by
    rw [put]
    split <;> simp
  have fresh : b.ebc = (s.freshBus i).ebc ∧ b.now = (s.freshBus i).now := by
    rw [set]
    refine ⟨?_, now⟩
    simp only [State.setSched, State.setEbc, State.setElem, State.freshBus, bus]
    rfl
  have ebc : t.ebc = (((s.freshBus i).askRefresh i).asksLamps (r.part.firstLamps i)).ebc := by
    rw [whole, State.askFirstLamp_eq]
    refine (State.ebc_asksLamps_congr ?_ ?_ _ : _)
    · exact State.ebc_askRefresh_congr fresh.1 fresh.2 i
    · simpa using fresh.2
  have elem (j : Index) : t.elem j = if j = i then some r else s.elem j := by
    have same : t.elems = (a.setElem i (some r)).elems := by rw [whole, set]; simp
    rw [State.elem_of_elems same, State.elem_setElem, State.elem_of_elems elems]
  obtain ⟨x, asks⟩ : ∃ x, x = (s.freshBus i).askRefresh i := ⟨_, rfl⟩
  rw [← asks, ← State.askFirstLamp_eq] at ebc
  have sched : t.sched i = (x.askFirstLamp i r.part).sched i := by rw [State.sched, ebc]; rfl
  obtain ⟨due, owed⟩ := x.askFirstLamp_dues i r.part
  obtain ⟨due', owed'⟩ := (s.freshBus i).askRefresh_dues i i
  rw [← asks, State.freshBus_sched] at due' owed'
  refine ⟨fun j other => (elem j).trans (if_neg other), (elem i).trans (if_pos rfl), by rw [sched, due, due'], by rw [sched, owed, owed'],
    (State.refreshAsked_of_ebc ebc i).mpr (State.askFirstLamp_refreshAsked (asks ▸ State.askRefresh_asked _ i) r.part), fun p goal => ?_,
    fun p station => ?_, by rw [ebc, asks, State.askFirstLamp_eq]⟩
  · rw [goal] at ebc
    exact State.lampAsked_of_ebc ebc (x.askLamp_asked i p.lit)
  · rw [station] at ebc
    exact State.lampAsked_of_ebc ebc (x.askLamp_asked i p.lit)

/-- What a definition notices, and whom a redefinition fails. -/
theorem State.define_new {s : State} {i : Index} (undefined : s.elem i = none) (r : ElementRecord) :
    (s.define i r).hlp = s.hlp.raiseAll [.element i (.defined r.part.kind)] := by
  simp [State.define, undefined, Hlp.raiseAll]

theorem State.define_again {s : State} {i : Index} (defined : (s.elem i).isSome) (r : ElementRecord) :
    s.failsPutAway (s.define i r) i
      ∧ (s.define i r).hlp = s.hlp.raiseAll (s.discardNotices (·.isFor i) ++ [.element i (.defined r.part.kind)]) := by
  obtain ⟨notices, ⟨robots, limits⟩, _⟩ := s.putAway_spec i
  have roster : (s.define i r).roster = (s.putAway i).roster := by simp [State.define, defined]
  have hlp : (s.define i r).hlp = (s.putAway i).hlp.raise (.element i (.defined r.part.kind)) := by simp [State.define, defined]
  refine ⟨⟨fun k => by rw [State.robot_of_roster roster, robots], by rw [roster]; exact limits⟩, ?_⟩
  rw [hlp, notices, Hlp.raiseAll_append]
  rfl

/-! ## The requests -/

theorem State.addressTaken_iff (s : State) (i : Index) (address : Byte) :
    s.addressTaken i address = true ↔ ∃ j r, j ≠ i ∧ s.elem j = some r ∧ r.address = address := by
  unfold State.addressTaken
  rw [List.any_eq_true]
  constructor
  · rintro ⟨j, _, taken⟩
    obtain ⟨other, same⟩ := Bool.and_eq_true_iff.mp taken
    cases stands : s.elem j with
    | none => rw [stands] at same; cases same
    | some r =>
      rw [stands] at same
      exact ⟨j, r, bne_iff_ne.mp other, stands, beq_iff_eq.mp same⟩
  · rintro ⟨j, r, other, stands, same⟩
    exact ⟨j, List.mem_finRange j, by rw [stands]; simp [other, same]⟩

section
variable {s : State} (accepted : s.accepts = true) (tag : Byte)
include accepted

theorem execDefineElement_eq (f : ElementFields) : exec (.defineElement tag f) s = .next ((defineOwner f s.restartSilence).send 0x05 tag) :=
  congrArg Host.Outcome.next (State.goodFrame_eq accepted 0x05 tag (defineOwner f))

theorem execRemoveElement_eq (index : Byte) : exec (.removeElement tag index) s = .next ((removeOwner index s.restartSilence).send 0x06 tag) :=
  congrArg Host.Outcome.next (State.goodFrame_eq accepted 0x06 tag (removeOwner index))

end

/-- Settles O13: the checks in Table 1-2's order, then a record that starts afresh. -/
theorem defineElementStartsTheRecord : Obligations.DefineElementStartsTheRecord := by
  unfold Obligations.DefineElementStartsTheRecord
  intro s tag f accepted
  refine ⟨_, execDefineElement_eq accepted tag f, fun uncoded => State.refuses_of (by rw [defineOwner, uncoded]; rfl) _ _,
    fun coded late => State.refuses_of ?_ _ _, fun coded setup none_ => State.refuses_of ?_ _ _, fun i r coded setup asked => ⟨?_, fun free => ?_⟩⟩
  · rw [defineOwner, coded, if_neg (by decide), if_pos (by rwa [State.restartSilence_phase])]
  · rw [defineOwner, coded, if_neg (by decide), if_neg (by rw [State.restartSilence_phase, setup]; decide), none_]
  · rintro ⟨j, r', other, stands, same⟩
    refine State.refuses_of ?_ _ _
    have taken : s.restartSilence.addressTaken i r.address = true :=
      (State.addressTaken_iff ..).mpr ⟨j, r', other, (State.elem_congr (by simp) j).trans stands, same⟩
    rw [defineOwner, coded, if_neg (by decide), if_neg (by rw [State.restartSilence_phase, setup]; decide), asked]
    exact if_pos taken
  · have untaken : s.restartSilence.addressTaken i r.address = false := by
      refine Bool.eq_false_iff.mpr fun taken => ?_
      obtain ⟨j, r', other, stands, same⟩ := (State.addressTaken_iff ..).mp taken
      exact free j r' other ((State.elem_congr (by simp) j).symm.trans stands) same
    have owned : defineOwner f s.restartSilence = taken (s.restartSilence.define i r) .empty := by
      rw [defineOwner, coded, if_neg (by decide), if_neg (by rw [State.restartSilence_phase, setup]; decide), asked]
      exact if_neg (by rw [untaken]; decide)
    have new (undefined : s.elem i = none) := State.define_new (s := s.restartSilence) ((State.elem_congr (by simp) i).trans undefined) r
    have only (undefined : s.elem i = none) :=
      State.onlyChanges_define_new (s := s.restartSilence) ((State.elem_congr (by simp) i).trans undefined) r
    have again (defined : (s.elem i).isSome) :=
      State.define_again (s := s.restartSilence) (i := i) (by rwa [State.elem_congr (s := s) (by simp) i]) r
    have within := s.restartSilence.onlyChanges_define i r
    obtain ⟨t, made⟩ : ∃ t, t = s.restartSilence.define i r := ⟨_, rfl⟩
    rw [← made] at owned new only again within
    obtain ⟨others, record, due, owed, refresh, goal, station, ebc⟩ := State.define_leaves _ i r made
    rw [owned]
    obtain ⟨elapsed, expired, restarted⟩ := s.restartSilence_timer
    rw [restarted] at due others again new ebc
    refine ⟨fun j other => others j other, record, due, owed, refresh, goal, station, ?_, fun undefined => ?_, fun defined => ?_⟩
    · exact ebc.trans (s.freshBus_asks _ i _)
    · exact State.answers_of rfl _ _ (only undefined) (new undefined)
    · exact ⟨(again defined).1, State.answers_of rfl _ _ within (again defined).2⟩

/-! ## Removal (R6) -/

theorem State.onlyChanges_undefine (s : State) (i : Index) : s.onlyChanges (s.undefine i) [.hlp, .roster, .elems, .ebc] :=
  fun b other => by cases b <;> simp_all [State.sameBlock]

theorem State.undefine_spec (s : State) (i : Index) {t : State} (made : t = s.undefine i) :
    s.elemsBut t i ∧ t.elem i = none ∧ t.sched i = Sched.clear ∧ t.ebc.queue.any (·.isFor i) = false
      ∧ t.ebc = { s.busPutAway i with sched := (s.busPutAway i).sched.set i.val Sched.clear } ∧ s.failsPutAway t i
      ∧ t.hlp = s.hlp.raiseAll (s.discardNotices (·.isFor i) ++ [.element i .removed]) := by
  obtain ⟨notices, ⟨robots, limits⟩, _, _, _, _, _, _, elems, queue, _⟩ := s.putAway_spec i
  have bus := s.putAway_ebc i
  obtain ⟨a, put⟩ : ∃ a, a = s.putAway i := ⟨_, rfl⟩
  have whole : t = ((a.setElem i none).setSched i Sched.clear).raiseElement i .removed := by rw [made, put]; rfl
  rw [← put] at notices robots limits elems queue bus
  have elem (j : Index) : t.elem j = if j = i then none else s.elem j := by
    have same : t.elems = (a.setElem i none).elems := by rw [whole]; simp
    rw [State.elem_of_elems same, State.elem_setElem, State.elem_of_elems elems]
  have ebc : t.ebc = { a.ebc with sched := a.ebc.sched.set i.val Sched.clear } := by rw [whole]; rfl
  have roster : t.roster = a.roster := by rw [whole]; simp
  refine ⟨fun j other => (elem j).trans (if_neg other), (elem i).trans (if_pos rfl), by simp [State.sched, ebc], ?_, by rw [ebc, bus], ⟨fun k => ?_, ?_⟩, ?_⟩
  · rw [ebc, ← Bool.not_eq_true, List.any_eq_true]
    rintro ⟨e, here, mine⟩
    exact List.filter_eq_nil_iff.mp queue e here mine
  · rw [State.robot_of_roster roster, robots]
  · rw [roster]
    exact limits
  · rw [whole, State.raiseElement_hlp, Hlp.raiseAll_append, ← notices]
    simp [Hlp.raiseAll]

/-- Settles O15: the checks, then the old definition put away and the index UNDEFINED. -/
theorem removeElementUndefinesTheRecord : Obligations.RemoveElementUndefinesTheRecord := by
  unfold Obligations.RemoveElementUndefinesTheRecord
  intro s tag index accepted
  refine ⟨_, execRemoveElement_eq accepted tag index, fun late => State.refuses_of ?_ _ _, fun setup above => State.refuses_of ?_ _ _,
    fun i setup names => ⟨fun undefined => State.refuses_of ?_ _ _, fun defined => ?_⟩⟩
  · rw [removeOwner, if_pos (by rwa [State.restartSilence_phase])]
  · rw [removeOwner, if_neg (by rw [State.restartSilence_phase, setup]; decide), indexOf_above above]
  · rw [removeOwner, if_neg (by rw [State.restartSilence_phase, setup]; decide), indexOf_val names]
    exact if_neg (by rw [State.elem_congr (s := s) (by simp) i, undefined]; decide)
  · have owned : removeOwner index s.restartSilence = taken (s.restartSilence.undefine i) .empty := by
      rw [removeOwner, if_neg (by rw [State.restartSilence_phase, setup]; decide), indexOf_val names]
      exact if_pos (by rwa [State.elem_congr (s := s) (by simp) i])
    have only := s.restartSilence.onlyChanges_undefine i
    obtain ⟨t, made⟩ : ∃ t, t = s.restartSilence.undefine i := ⟨_, rfl⟩
    rw [← made] at owned only
    obtain ⟨others, record, sched, queue, ebc, fails, hlp⟩ := State.undefine_spec _ i made
    rw [owned]
    obtain ⟨elapsed, expired, restarted⟩ := s.restartSilence_timer
    rw [restarted] at others ebc fails hlp
    exact ⟨others, record, sched, queue, ebc, fails, State.answers_of rfl _ _ only hlp⟩

end Sys2Proof.Machine

/-! Settles O23 and O24: the frames the radio module delivers (R48, R72 to R77). -/
namespace Sys2Proof.Machine

/-! ## Soundness of a delivered frame (R72, R194) -/

theorem uplinkOf_unsound {bytes crc : List Byte} (two : crc.length = 2) (wrong : crc ≠ halfBytes (radioCrc bytes)) :
    uplinkOf (bytes ++ crc) = none := by
  simp only [uplinkOf, splitCrc_append bytes two]
  exact if_neg fun right => wrong (crcRight_iff.mp right)

theorem uplinkOf_slot (hi lo flags numberKind element operand : Byte) :
    uplinkOf (radioFrame [1#8, hi, lo, flags, numberKind, element, operand])
      = (slotFieldsOf hi lo flags numberKind element operand).map .slotFrame := by
  simp only [uplinkOf, radioFrame, splitCrc_append _ (halfBytes_length _), crcRight_iff, if_true]

theorem uplinkOf_join (teamHi teamLo idHi idLo kit : Byte) :
    uplinkOf (radioFrame [2#8, teamHi, teamLo, idHi, idLo, kit]) = some (.joinFrame (half teamHi teamLo) (half idHi idLo) kit) := by
  simp only [uplinkOf, radioFrame, splitCrc_append _ (halfBytes_length _), crcRight_iff, if_true]

theorem uplinkOf_untyped {bytes : List Byte} (slot : ¬ (bytes.length = 7 ∧ bytes.head? = some 1))
    (join : ¬ (bytes.length = 6 ∧ bytes.head? = some 2)) : uplinkOf (radioFrame bytes) = none := by
  simp only [uplinkOf, radioFrame, splitCrc_append _ (halfBytes_length _), crcRight_iff, if_true]
  split
  · exact absurd ⟨rfl, rfl⟩ slot
  · exact absurd ⟨rfl, rfl⟩ join
  · rfl

theorem State.deliver_none (s : State) {frame : List Byte} (unsound : uplinkOf frame = none) (window : Window) : s.deliver window frame = s := by
  unfold State.deliver
  rw [unsound]
  cases window <;> rfl

theorem State.deliver_slot (s : State) (k : Slot) {frame : List Byte} {f : SlotFields} (sound : uplinkOf frame = some (.slotFrame f)) :
    s.deliver (.reply k) frame = s.takeSlotFrame k f := by
  unfold State.deliver
  rw [sound]

/-! ## Slot frames (R73, R74) -/

/-- A frame may be taken in the reply slot: the first of the cycle, from a linked robot with the bound robot id (R73, R74). -/
def State.takes (s : State) (k : Slot) (robotId : Half) : Prop :=
  s.slotTaken k = false ∧ (s.robot k).state.isLinked = true ∧ (s.robot k).robotId = some robotId

/-- The state after a frame was taken, before its request is classified. -/
def State.heardFrom (s : State) (k : Slot) (ready : Bool) : State :=
  ((s.setRcc { s.rcc with takenSlots := s.rcc.takenSlots.set k.val true }).hear k).readyFlag k ready

theorem State.takes_iff (s : State) (k : Slot) (robotId : Half) :
    (!s.slotTaken k && (s.robot k).state.isLinked && (s.robot k).robotId == some robotId) = true ↔ s.takes k robotId := by
  simp [State.takes, and_assoc]

theorem State.takeSlotFrame_refused {s : State} {k : Slot} {f : SlotFields} (refused : ¬ s.takes k f.robotId) : s.takeSlotFrame k f = s :=
  if_neg fun taken => refused ((s.takes_iff k f.robotId).mp taken)

theorem State.takeSlotFrame_taken {s : State} {k : Slot} {f : SlotFields} (accepted : s.takes k f.robotId) : s.takeSlotFrame k f =
    match f.request with
    | some (number, q) => (s.heardFrom k f.ready).passRequest k number q
    | none => s.heardFrom k f.ready :=
  if_pos ((s.takes_iff k f.robotId).mpr accepted)

theorem slotFieldsOf_keepAlive (hi lo flags element operand : Byte) {numberKind : Byte} (zero : numberKind.extractLsb' 4 4 = 0#4) :
    slotFieldsOf hi lo flags numberKind element operand = some { robotId := half hi lo, ready := flags.getLsbD 0, request := none } :=
  if_pos zero

theorem slotFieldsOf_request (hi lo flags element operand : Byte) {numberKind : Byte} (nonzero : numberKind.extractLsb' 4 4 ≠ 0#4) :
    slotFieldsOf hi lo flags numberKind element operand = (robotRequestOf (numberKind.extractLsb' 0 4).toNat element operand).map fun q =>
      { robotId := half hi lo, ready := flags.getLsbD 0, request := some (numberKind.extractLsb' 4 4, q) } :=
  if_neg nonzero

theorem slotFieldsOf_robotId {hi lo flags numberKind element operand : Byte} {f : SlotFields}
    (sound : slotFieldsOf hi lo flags numberKind element operand = some f) : f.robotId = half hi lo := by
  by_cases zero : numberKind.extractLsb' 4 4 = 0#4
  · rw [slotFieldsOf_keepAlive _ _ _ _ _ zero] at sound
    cases sound
    rfl
  · rw [slotFieldsOf_request _ _ _ _ _ zero] at sound
    obtain ⟨q, _, rfl⟩ := Option.map_eq_some_iff.mp sound
    rfl

/-- A request kind that is none of the five, and an ACT whose setpoint is none of the two, make the frame unsound (R72). -/
theorem robotRequestOf_none {kind : BitVec 4} {element operand : Byte}
    (bad : kind = 0 ∨ 5 < kind.toNat ∨ (kind = 4 ∧ operand ≠ 1 ∧ operand ≠ 2)) : robotRequestOf kind.toNat element operand = none := by
  rcases bad with rfl | above | ⟨rfl, notOpen, notClose⟩
  · rfl
  · unfold robotRequestOf
    split
    case h_6 => rfl
    all_goals omega
  · have untargeted : gateTargetOf operand = none := by
      unfold gateTargetOf
      split
      · next one => exact absurd (BitVec.eq_of_toNat_eq one) notOpen
      · next two => exact absurd (BitVec.eq_of_toNat_eq two) notClose
      · rfl
    exact congrArg (Option.map (RobotRequest.act element)) untargeted

section
variable {s : State} {k : Slot} {hi lo flags numberKind element operand : Byte}

/-- A slot frame with an unsound request changes nothing. -/
theorem execSlotFrame_unsound (unsound : slotFieldsOf hi lo flags numberKind element operand = none) (window : Window) :
    exec (.slotFrame window (radioFrame [1#8, hi, lo, flags, numberKind, element, operand])) s = .next s :=
  congrArg Host.Outcome.next (s.deliver_none (by rw [uplinkOf_slot, unsound]; rfl) window)

theorem execSlotFrame_sound {f : SlotFields} (sound : slotFieldsOf hi lo flags numberKind element operand = some f) :
    exec (.slotFrame (.reply k) (radioFrame [1#8, hi, lo, flags, numberKind, element, operand])) s = .next (s.takeSlotFrame k f) :=
  congrArg Host.Outcome.next (s.deliver_slot k (by rw [uplinkOf_slot, sound]; rfl))

theorem execSlotFrame_elsewhere {window : Window} (other : ∀ j, window ≠ .reply j) :
    exec (.slotFrame window (radioFrame [1#8, hi, lo, flags, numberKind, element, operand])) s = .next s := by
  cases fields : slotFieldsOf hi lo flags numberKind element operand with
  | none => exact execSlotFrame_unsound fields window
  | some f =>
    have sound : uplinkOf (radioFrame [1#8, hi, lo, flags, numberKind, element, operand]) = some (.slotFrame f) := by
      rw [uplinkOf_slot, fields]
      rfl
    refine congrArg Host.Outcome.next ?_
    unfold State.deliver
    rw [sound]
    cases window with
    | reply j => exact absurd rfl (other j)
    | _ => rfl

theorem execSlotFrame_refused (refused : ¬ s.takes k (half hi lo)) :
    exec (.slotFrame (.reply k) (radioFrame [1#8, hi, lo, flags, numberKind, element, operand])) s = .next s := by
  cases fields : slotFieldsOf hi lo flags numberKind element operand with
  | none => exact execSlotFrame_unsound fields _
  | some f => rw [execSlotFrame_sound fields, State.takeSlotFrame_refused (by rwa [slotFieldsOf_robotId fields])]

theorem execSlotFrame_keepAlive (accepted : s.takes k (half hi lo)) (zero : numberKind.extractLsb' 4 4 = 0#4) :
    exec (.slotFrame (.reply k) (radioFrame [1#8, hi, lo, flags, numberKind, element, operand])) s
      = .next (s.heardFrom k (flags.getLsbD 0)) := by
  rw [execSlotFrame_sound (slotFieldsOf_keepAlive hi lo flags element operand zero), State.takeSlotFrame_taken accepted]

/-- A request of a frame that is taken runs behind what a keep-alive does. -/
theorem execSlotFrame_request (accepted : s.takes k (half hi lo)) (nonzero : numberKind.extractLsb' 4 4 ≠ 0#4) {q : RobotRequest}
    (request : robotRequestOf (numberKind.extractLsb' 0 4).toNat element operand = some q) :
    exec (.slotFrame (.reply k) (radioFrame [1#8, hi, lo, flags, numberKind, element, operand])) s
      = .next ((s.heardFrom k (flags.getLsbD 0)).passRequest k (numberKind.extractLsb' 4 4) q) := by
  have sound := slotFieldsOf_request hi lo flags element operand nonzero
  rw [request] at sound
  rw [execSlotFrame_sound sound, State.takeSlotFrame_taken accepted]

end

/-! ## What a frame taken does to its robot (R51, R53) -/

theorem State.onlyChanges_heardFrom (s : State) (k : Slot) (ready : Bool) : s.onlyChanges (s.heardFrom k ready) [.hlp, .rcc, .roster] :=
  fun b other => by cases b <;> simp_all [State.sameBlock, State.heardFrom]

/-- A frame taken ends the silence. -/
theorem State.hear_spec (s : State) (k : Slot) :
    s.robotsBut (s.hear k) k ∧ (s.hear k).robot k = { s.robot k with unheard := 0, silent := false }
      ∧ (s.hear k).hlp = s.hlp.raiseAll (if (s.robot k).silent then [.robot k .heard] else []) := by
  unfold State.hear
  dsimp only
  split
  · refine ⟨State.robotsBut_setRobot s k _, State.robot_setRobot_self s k _, rfl⟩
  · exact ⟨State.robotsBut_setRobot s k _, State.robot_setRobot_self s k _, rfl⟩

/-- The state a ready flag moves a robot to, with its notice (Table 3-5). -/
def RobotRecord.flagged (r : RobotRecord) (ready playing : Bool) : Option (RobotState × RobotNotice) :=
  match r.state, ready, playing, r.ejectedMark with
  | .linked, true, false, _ => some (.ready, .ready)
  | .linked, true, true, false => some (.active, .lateArrival)
  | .ready, false, _, _ => some (.linked, .notReady)
  | _, _, _, _ => none

theorem State.readyFlag_eq (s : State) (k : Slot) (ready : Bool) : s.readyFlag k ready =
    match (s.robot k).flagged ready s.mch.phase.inMatch with
    | some q => (s.setRobot k { s.robot k with state := q.1 }).raiseRobot k q.2
    | none => s := by
  unfold State.readyFlag RobotRecord.flagged
  cases state : (s.robot k).state with
  | linked =>
    cases ready with
    | false => simp [state]
    | true => cases playing : s.mch.phase.inMatch <;> cases mark : (s.robot k).ejectedMark <;> simp [state, mark]
  | ready => cases ready <;> simp [state]
  | _ => simp [state]

/-- The record of a robot whose frame was taken. -/
def RobotRecord.heard (r : RobotRecord) : RobotRecord := { r with unheard := 0, silent := false }

/-- A keep-alive that is taken: the robot is heard, then its ready flag applied. -/
theorem State.heardFrom_spec (s : State) (k : Slot) (ready : Bool) :
    s.robotsBut (s.heardFrom k ready) k ∧ (s.heardFrom k ready).rcc = { s.rcc with takenSlots := s.rcc.takenSlots.set k.val true }
      ∧ (s.heardFrom k ready).robot k = (match (s.robot k).flagged ready s.mch.phase.inMatch with
          | some q => { (s.robot k).heard with state := q.1 }
          | none => (s.robot k).heard)
      ∧ (s.heardFrom k ready).hlp = s.hlp.raiseAll ((if (s.robot k).silent then [.robot k .heard] else [])
          ++ match (s.robot k).flagged ready s.mch.phase.inMatch with
            | some q => [.robot k q.2]
            | none => []) := by
  obtain ⟨u, took⟩ : ∃ u, u = s.setRcc { s.rcc with takenSlots := s.rcc.takenSlots.set k.val true } := ⟨_, rfl⟩
  obtain ⟨others, record, hlp⟩ := u.hear_spec k
  obtain ⟨t, heard⟩ : ∃ t, t = u.hear k := ⟨_, rfl⟩
  have robots (j : Slot) : u.robot j = s.robot j := by rw [took]; rfl
  have raised : u.hlp = s.hlp := by rw [took]; rfl
  have rcc : t.rcc = { s.rcc with takenSlots := s.rcc.takenSlots.set k.val true } := by simp [heard, took]
  have mch : t.mch = s.mch := by simp [heard, took]
  rw [← heard, robots] at record hlp
  rw [← heard, took] at others
  rw [raised] at hlp
  have first : s.robotsBut t k := others
  have flag := t.readyFlag_eq k ready
  have same : (t.robot k).flagged ready t.mch.phase.inMatch = (s.robot k).flagged ready s.mch.phase.inMatch := by rw [record, mch]; rfl
  have last : s.heardFrom k ready = t.readyFlag k ready := by rw [heard, took]; rfl
  rw [same] at flag
  rw [last, flag, Hlp.raiseAll_append, ← hlp]
  cases (s.robot k).flagged ready s.mch.phase.inMatch with
  | none => exact ⟨first, rcc, record, rfl⟩
  | some q =>
    refine ⟨State.robotsBut_trans first (State.robotsBut_setRobot t k _), rcc, ?_, rfl⟩
    refine (State.robot_setRobot_self t k _).trans ?_
    rw [record]
    rfl

/-- Settles O23: the soundness checks, the acceptance checks, then the keep-alive and the request behind it. -/
theorem slotFrameIsTakenOnce : Obligations.SlotFrameIsTakenOnce := by
  unfold Obligations.SlotFrameIsTakenOnce
  refine ⟨fun _ _ _ => rfl, fun s window bytes crc two wrong => congrArg Host.Outcome.next (s.deliver_none (uplinkOf_unsound two wrong) window),
    fun s window bytes slot join => congrArg Host.Outcome.next (s.deliver_none (uplinkOf_untyped slot join) window),
    fun s k hi lo flags numberKind element operand => ?_⟩
  intro frame bytes keepAlive number kind accepted
  refine ⟨fun window other => execSlotFrame_elsewhere other, fun refused => execSlotFrame_refused refused, fun nonzero bad => ?_,
    fun taken zero => ?_, fun taken nonzero t alive => ?_⟩
  · exact execSlotFrame_unsound (by rw [slotFieldsOf_request _ _ _ _ _ nonzero, robotRequestOf_none bad]; rfl) _
  · obtain ⟨others, rcc, record, hlp⟩ := s.heardFrom_spec k (flags.getLsbD 0)
    refine ⟨_, execSlotFrame_keepAlive taken zero, s.onlyChanges_heardFrom k _, others, rcc, ?_⟩
    obtain ⟨t, heard⟩ : ∃ t, t = s.heardFrom k (flags.getLsbD 0) := ⟨_, rfl⟩
    rw [← heard] at record hlp ⊢
    unfold RobotRecord.flagged at record hlp
    cases state : (s.robot k).state with
    | linked => cases ready : flags.getLsbD 0 with
      | false => simp_all [RobotRecord.heard]
      | true => cases playing : s.mch.phase.inMatch with
        | false => simp_all [RobotRecord.heard]
        | true => cases mark : (s.robot k).ejectedMark <;> simp_all [RobotRecord.heard]
    | ready => cases ready : flags.getLsbD 0 <;> simp_all [RobotRecord.heard]
    | _ => simp_all [RobotRecord.heard]
  · have first : s.heardFrom k (flags.getLsbD 0) = t := by
      have runs := execSlotFrame_keepAlive (flags := flags) (element := element) (operand := operand) (numberKind := 0) taken rfl
      exact Host.Outcome.next.inj (runs.symm.trans alive)
    have runs {q : RobotRequest} (request : robotRequestOf kind.toNat element operand = some q) :
        exec (.slotFrame (.reply k) bytes) s = .next (t.passRequest k number q) := first ▸ execSlotFrame_request taken nonzero request
    refine ⟨fun is => runs (by rw [is]; rfl), fun is => runs (by rw [is]; rfl), fun is => runs (by rw [is]; rfl), fun is opens => runs ?_,
      fun is closes => runs ?_, fun is => runs (by rw [is]; rfl)⟩
    · rw [is, opens]
      rfl
    · rw [is, closes]
      rfl

end Sys2Proof.Machine

/-! Settles O24: a JOIN frame (R48, R49, R75). -/
namespace Sys2Proof.Machine

theorem State.slotOfTeam_none {s : State} {team : Half} (nobody : ∀ k, (s.robot k).state ≠ .vacant → (s.robot k).team ≠ some team) :
    s.slotOfTeam team = none := by
  refine List.find?_eq_none.mpr fun k _ found => ?_
  obtain ⟨present, carries⟩ := Bool.and_eq_true_iff.mp found
  exact nobody k (bne_iff_ne.mp present) (beq_iff_eq.mp carries)

/-- The slot of a team that one robot alone carries. -/
theorem State.slotOfTeam_alone {s : State} {team : Half} {k : Slot} (present : (s.robot k).state ≠ .vacant) (carries : (s.robot k).team = some team)
    (alone : ∀ j, j ≠ k → (s.robot j).state ≠ .vacant → (s.robot j).team ≠ some team) : s.slotOfTeam team = some k := by
  cases found : s.slotOfTeam team with
  | none =>
    refine absurd ?_ (List.find?_eq_none.mp found k (List.mem_finRange k))
    simp [present, carries]
  | some j =>
    obtain ⟨there, same⟩ := State.slotOfTeam_some found
    by_contra other
    exact alone j (fun here => other (congrArg some here)) there same

theorem State.deliver_join (s : State) {frame : List Byte} {team robotId : Half} {kit : Byte}
    (sound : uplinkOf frame = some (.joinFrame team robotId kit)) : s.deliver .join frame = s.takeJoin team robotId kit := by
  unfold State.deliver
  rw [sound]

theorem State.deliver_joinElsewhere (s : State) {frame : List Byte} {team robotId : Half} {kit : Byte}
    (sound : uplinkOf frame = some (.joinFrame team robotId kit)) {window : Window} (other : window ≠ .join) : s.deliver window frame = s := by
  unfold State.deliver
  rw [sound]
  cases window with
  | join => exact absurd rfl other
  | _ => rfl

theorem uplinkOf_joinFrame (team robotId : Half) (kit : Byte) :
    uplinkOf (radioFrame (0x02#8 :: (halfBytes team ++ halfBytes robotId ++ [kit]))) = some (.joinFrame team robotId kit) := by
  refine (uplinkOf_join _ _ _ _ kit).trans ?_
  rw [half_halfBytes, half_halfBytes]

/-- A JOIN that is taken: its answer is stored for the next beacon. -/
theorem State.takeJoin_eq {s : State} (free : s.rcc.takenJoin = false) (team robotId : Half) (kit : Byte) : s.takeJoin team robotId kit =
    (s.joinOn team robotId kit).1.setRcc { s.rcc with takenJoin := true
                                                      joinAnswer := some { robotId := robotId, result := (s.joinOn team robotId kit).2 } } := by
  have rcc : (s.joinOn team robotId kit).1.rcc = s.rcc := by simp
  unfold State.takeJoin
  rw [free, if_neg Bool.false_ne_true]
  dsimp only
  rw [rcc]

section
variable {s : State} {team robotId : Half} {kit : Byte} {k : Slot} (slot : s.slotOfTeam team = some k)
include slot

/-- The team's robot is bound to another robot id (R48). -/
theorem State.joinOn_duplicate {bound : Half} (binds : (s.robot k).robotId = some bound) (other : bound ≠ robotId) :
    s.joinOn team robotId kit = (s.raiseRobot k (.duplicateTeam bound robotId), .teamTaken) := by
  simp only [State.joinOn, slot, binds]
  exact if_neg other

theorem State.joinOn_again (binds : (s.robot k).robotId = some robotId) (linked : (s.robot k).state.isLinked = true) :
    s.joinOn team robotId kit = ((s.setRobot k { s.robot k with kitRevision := some kit, openRequest := none }).raiseRobot k
      (.rejoined robotId kit (s.robot k).state), .joined k) := by
  simp only [State.joinOn, slot, binds, linked, if_true]

theorem State.joinOn_first (binds : ((s.robot k).robotId = some robotId ∧ (s.robot k).state.isLinked = false) ∨ (s.robot k).robotId = none) :
    s.joinOn team robotId kit = ((s.setRobot k { s.robot k with robotId := some robotId, kitRevision := some kit, state := .linked, unheard := 0, silent := false }).raiseRobot
      k (.joined robotId kit), .joined k) := by
  rcases binds with ⟨same, unlinked⟩ | unbound
  · simp only [State.joinOn, slot, same, unlinked, if_true]
    simp
  · simp only [State.joinOn, slot, unbound]

end

theorem State.onlyChanges_setRcc (s : State) (c : Rcc) : s.onlyChanges (s.setRcc c) [.rcc] :=
  fun b other => by cases b <;> simp_all [State.sameBlock]

theorem State.onlyChanges_raised (s : State) (k : Slot) (n : RobotNotice) (c : Rcc) : s.onlyChanges ((s.raiseRobot k n).setRcc c) [.hlp, .rcc] :=
  fun b other => by cases b <;> simp_all [State.sameBlock]

theorem State.onlyChanges_bound (s : State) (k : Slot) (r : RobotRecord) (n : RobotNotice) (c : Rcc) :
    s.onlyChanges (((s.setRobot k r).raiseRobot k n).setRcc c) [.hlp, .rcc, .roster] :=
  fun b other => by cases b <;> simp_all [State.sameBlock]

/-- Settles O24: the window, the one JOIN of a cycle, and the robot that carries the team. -/
theorem joinBindsARobot : Obligations.JoinBindsARobot := by
  unfold Obligations.JoinBindsARobot
  intro s team robotId kit head frame
  have sound : uplinkOf frame = some (.joinFrame team robotId kit) := uplinkOf_joinFrame team robotId kit
  have arrives : exec (.join .join frame) s = .next (s.takeJoin team robotId kit) := congrArg Host.Outcome.next (s.deliver_join sound)
  refine ⟨fun window other => congrArg Host.Outcome.next (s.deliver_joinElsewhere sound other), fun taken => ?_, fun free => ?_⟩
  · rw [arrives]
    exact congrArg Host.Outcome.next (if_pos taken)
  · rw [State.takeJoin_eq free] at arrives
    refine ⟨_, (s.joinOn team robotId kit).2, arrives, rfl, fun nobody => ?_, fun k present carries alone => ?_⟩
    · have unknown : s.joinOn team robotId kit = (s, .unknownTeam) := by simp only [State.joinOn, State.slotOfTeam_none nobody]
      rw [unknown]
      exact ⟨s.onlyChanges_setRcc _, rfl⟩
    · have slot := State.slotOfTeam_alone present carries alone
      refine ⟨fun bound binds other => ?_, fun binds linked => ?_, fun binds => ?_⟩
      · rw [State.joinOn_duplicate slot binds other]
        exact ⟨s.onlyChanges_raised k _ _, rfl, rfl⟩
      · rw [State.joinOn_again slot binds linked]
        exact ⟨s.onlyChanges_bound k _ _ _, State.robotsBut_setRobot s k _, rfl, State.robot_setRobot_self s k _, rfl⟩
      · rw [State.joinOn_first slot binds]
        exact ⟨s.onlyChanges_bound k _ _ _, State.robotsBut_setRobot s k _, rfl, State.robot_setRobot_self s k _, rfl⟩

end Sys2Proof.Machine

/-! Settles O30: the selection of the next transaction (R93). -/
namespace Sys2Proof.Machine

/-! ## The entries that may start -/

/-- An entry may start when no older entry waits for the same element. -/
theorem mem_eligible {x : Entry} (q : List Entry) : ∀ (seen : List (Option Index)), q.Pairwise (fun x y => x.age < y.age) →
    (x ∈ eligible seen q ↔ x ∈ q ∧ x.element ∉ seen ∧ ∀ y ∈ q, y.element = x.element → x.age ≤ y.age) := by
  induction q with
  | nil => simp [eligible]
  | cons e q ih =>
    intro seen sorted
    obtain ⟨oldest, sorted⟩ := List.pairwise_cons.mp sorted
    rw [eligible]
    split
    · next had =>
      have had : e.element ∈ seen := List.contains_iff_mem.mp had
      rw [ih seen sorted]
      constructor
      · rintro ⟨here, new, first⟩
        refine ⟨List.mem_cons_of_mem e here, new, fun y there same => ?_⟩
        obtain rfl | there := List.mem_cons.mp there
        · exact absurd (same ▸ had) new
        · exact first y there same
      · rintro ⟨here, new, first⟩
        obtain rfl | here := List.mem_cons.mp here
        · exact absurd had new
        · exact ⟨here, new, fun y there => first y (List.mem_cons_of_mem e there)⟩
    · next new =>
      have new : e.element ∉ seen := fun had => new (List.contains_iff_mem.mpr had)
      rw [List.mem_cons, ih (e.element :: seen) sorted]
      constructor
      · rintro (rfl | ⟨here, fresh, first⟩)
        · refine ⟨List.mem_cons_self, new, fun y there _ => ?_⟩
          obtain rfl | there := List.mem_cons.mp there
          · exact Nat.le_refl _
          · exact Nat.le_of_lt (oldest y there)
        · obtain ⟨apart, fresh⟩ := not_or.mp (List.mem_cons.not.mp fresh)
          refine ⟨List.mem_cons_of_mem e here, fresh, fun y there same => ?_⟩
          obtain rfl | there := List.mem_cons.mp there
          · exact absurd same.symm apart
          · exact first y there same
      · rintro ⟨here, fresh, first⟩
        obtain rfl | here := List.mem_cons.mp here
        · exact Or.inl rfl
        · refine Or.inr ⟨here, fun had => ?_, fun y there => first y (List.mem_cons_of_mem e there)⟩
          obtain same | had := List.mem_cons.mp had
          · exact absurd (first e List.mem_cons_self same.symm) (Nat.not_le.mpr (oldest x here))
          · exact fresh had

theorem eligible_sublist (q : List Entry) : ∀ seen, (eligible seen q).Sublist q := by
  induction q with
  | nil => exact fun _ => List.Sublist.refl _
  | cons e q ih =>
    intro seen
    rw [eligible]
    split
    · exact (ih seen).cons e
    · exact (ih _).cons_cons e

/-- Of the entries with a property, the first is the oldest. -/
theorem find?_oldest {p : Entry → Bool} {e : Entry} {l : List Entry} (sorted : l.Pairwise (fun x y => x.age < y.age)) (found : l.find? p = some e) :
    ∀ x ∈ l, p x = true → e.age ≤ x.age := by
  obtain ⟨_, before, behind, rfl, none_⟩ := List.find?_eq_some_iff_append.mp found
  intro x here has
  rcases List.mem_append.mp here with here | here
  · exact absurd has (by simpa using none_ x here)
  · obtain rfl | here := List.mem_cons.mp here
    · exact Nat.le_refl _
    · exact Nat.le_of_lt ((List.pairwise_cons.mp (List.pairwise_append.mp sorted).2.1).1 x here)

/-! ## The classes (R91) -/

/-- The place of a class in the order of selection. -/
def TxClass.rank : TxClass → Nat
  | .safety => 0
  | .control => 1
  | .refresh => 2
  | .cosmetic => 3

theorem TxClass.eq_of_rank {a b : TxClass} (same : a.rank = b.rank) : a = b := by
  cases a <;> cases b <;> cases same <;> rfl

/-- The oldest entry of the highest class. -/
theorem oldestOfHighest_spec {l : List Entry} (sorted : l.Pairwise (fun x y => x.age < y.age)) :
    match oldestOfHighest l with
    | some e => e ∈ l ∧ ∀ x ∈ l, e.cls.rank < x.cls.rank ∨ (e.cls.rank = x.cls.rank ∧ e.age ≤ x.age)
    | none => l = [] := by
  have chosen (c : TxClass) {e : Entry} (found : l.find? (fun e => e.cls == c) = some e)
      (higher : ∀ x ∈ l, c.rank ≤ x.cls.rank) : e ∈ l ∧ ∀ x ∈ l, e.cls.rank < x.cls.rank ∨ (e.cls.rank = x.cls.rank ∧ e.age ≤ x.age) := by
    have cls : e.cls = c := by simpa using List.find?_some found
    refine ⟨List.mem_of_find?_eq_some found, fun x here => ?_⟩
    rw [cls]
    rcases Nat.lt_or_eq_of_le (higher x here) with below | same
    · exact Or.inl below
    · refine Or.inr ⟨same, find?_oldest sorted found x here ?_⟩
      rw [TxClass.eq_of_rank same, beq_self_eq_true]
  have absent {c : TxClass} (none_ : l.find? (fun e => e.cls == c) = none) : ∀ x ∈ l, x.cls ≠ c := by
    simpa [List.find?_eq_none] using none_
  unfold oldestOfHighest
  cases safety : l.find? fun e => e.cls == .safety with
  | some e => exact chosen .safety safety fun x _ => Nat.zero_le _
  | none =>
    have first := absent safety
    cases control : l.find? fun e => e.cls == .control with
    | some e => exact chosen .control control fun x here => by have := first x here; cases h : x.cls <;> simp_all [TxClass.rank]
    | none =>
      have second := absent control
      cases refresh : l.find? fun e => e.cls == .refresh with
      | some e =>
        exact chosen .refresh refresh fun x here => by have := first x here; have := second x here; cases h : x.cls <;> simp_all [TxClass.rank]
      | none =>
        have third := absent refresh
        cases cosmetic : l.find? fun e => e.cls == .cosmetic with
        | some e =>
          exact chosen .cosmetic cosmetic fun x here => by
            have := first x here; have := second x here; have := third x here; cases h : x.cls <;> simp_all [TxClass.rank]
        | none =>
          have fourth := absent cosmetic
          refine List.eq_nil_iff_forall_not_mem.mpr fun x here => ?_
          cases h : x.cls
          · exact first x here h
          · exact second x here h
          · exact third x here h
          · exact fourth x here h

/-- The selected entry of a queue: a STOP_ALL, or the oldest of the highest class among the entries that may start. -/
theorem selection_spec {q : List Entry} (sorted : q.Pairwise (fun x y => x.age < y.age)) :
    match selection q with
    | some e => e ∈ q ∧ (e.isStop = false → (∀ x ∈ q, x.isStop = false) ∧ (∀ x ∈ q, x.element = e.element → e.age ≤ x.age)
        ∧ ∀ x ∈ q, (∀ y ∈ q, y.element = x.element → x.age ≤ y.age) →
          e.cls.rank < x.cls.rank ∨ (e.cls.rank = x.cls.rank ∧ e.age ≤ x.age))
    | none => q = [] := by
  unfold selection
  cases stop : q.find? Entry.isStop with
  | some e =>
    exact ⟨List.mem_of_find?_eq_some stop, fun ordinary => by rw [List.find?_some stop] at ordinary; cases ordinary⟩
  | none =>
    have ordinary : ∀ x ∈ q, x.isStop = false := by simpa [List.find?_eq_none] using stop
    have spec := oldestOfHighest_spec (sorted.sublist (eligible_sublist q []))
    have may {x : Entry} : x ∈ eligible [] q ↔ x ∈ q ∧ ∀ y ∈ q, y.element = x.element → x.age ≤ y.age := by
      rw [mem_eligible q [] sorted]
      simp
    cases chosen : oldestOfHighest (eligible [] q) with
    | some e =>
      rw [chosen] at spec
      obtain ⟨here, first⟩ := spec
      obtain ⟨here, oldest⟩ := may.mp here
      exact ⟨here, fun _ => ⟨ordinary, oldest, fun x there alone => first x (may.mpr ⟨there, alone⟩)⟩⟩
    | none =>
      rw [chosen] at spec
      cases q with
      | nil => rfl
      | cons e q => cases spec

/-! ## The start on the bus -/

theorem Ebc.free_iff (e : Ebc) : e.free = true ↔ e.inFlight = none ∧ e.turnaround = none ∧ e.quiet = none := by
  simp [Ebc.free, and_assoc]

theorem execTransactionSelect_busy {s : State} (busy : s.ebc.free = false) : exec .transactionSelect s = .next s :=
  congrArg Host.Outcome.next (if_neg (by rw [busy]; exact Bool.false_ne_true))

theorem execTransactionSelect_some {s : State} (free : s.ebc.free = true) {e : Entry} (selected : selection s.ebc.queue = some e) :
    exec .transactionSelect s = .next (if e.isStop then s.startOnBus e else (s.startOnBus e).handOver) := by
  refine congrArg Host.Outcome.next ((if_pos free).trans ?_)
  rw [selected]

theorem execTransactionSelect_none {s : State} (free : s.ebc.free = true) (selected : selection s.ebc.queue = none) :
    exec .transactionSelect s = .next s := by
  refine congrArg Host.Outcome.next ((if_pos free).trans ?_)
  rw [selected]

theorem State.onlyChanges_startOnBus (s : State) (e : Entry) :
    s.onlyChanges (if e.isStop then s.startOnBus e else (s.startOnBus e).handOver) [.ebc] :=
  fun b other => by cases b <;> split <;> simp_all [State.sameBlock, State.startOnBus]

theorem State.addressOf_eq {s : State} {e : Entry} {i : Index} {r : ElementRecord} (element : e.element = some i) (stands : s.elem i = some r) :
    s.addressOf e = r.address := by
  simp only [State.addressOf, element, stands]

/-- The start of an entry, and the place it frees. -/
theorem State.startOnBus_grows (s : State) (e : Entry) :
    (s.startOnBus e).ebc.Grows (if e.isStop then s.startOnBus e else (s.startOnBus e).handOver).ebc := by
  split
  · exact Ebc.Grows.refl _
  · exact State.handOver_grows _

/-- Settles O30: the selected entry leaves the queue, whose ages tell its entries apart. -/
theorem selectionStartsTheOldestOfTheHighestClass : Obligations.SelectionStartsTheOldestOfTheHighestClass := by
  unfold Obligations.SelectionStartsTheOldestOfTheHighestClass
  intro s rank
  have ranks (c : TxClass) : rank c = c.rank := by cases c <;> rfl
  by_cases idle : s.ebc.free = false ∨ s.ebc.queue = []
  · refine ⟨s, ?_, by rw [if_pos idle]⟩
    rcases idle with busy | empty
    · exact execTransactionSelect_busy busy
    · cases free : s.ebc.free with
      | false => exact execTransactionSelect_busy free
      | true => exact execTransactionSelect_none free (by rw [empty]; rfl)
  · obtain ⟨free, waits⟩ := not_or.mp idle
    have free : s.ebc.free = true := Bool.not_eq_false _ ▸ free
    obtain ⟨flight, turnaround, quiet⟩ := s.ebc.free_iff.mp free
    cases selected : selection s.ebc.queue with
    | none =>
      refine ⟨s, execTransactionSelect_none free selected, ?_⟩
      rw [if_neg idle]
      refine ⟨fun b _ => by cases b <;> rfl, fun ⟨_, _, sorted, _⟩ => ?_⟩
      have spec := selection_spec sorted
      rw [selected] at spec
      exact absurd spec waits
    | some e =>
      refine ⟨_, execTransactionSelect_some free selected, ?_⟩
      rw [if_neg idle]
      refine ⟨s.onlyChanges_startOnBus e, fun ⟨_, _, sorted, young⟩ => ?_⟩
      have spec := selection_spec sorted
      rw [selected] at spec
      obtain ⟨here, first⟩ := spec
      obtain ⟨⟨added, queue, fresh⟩, inFlight, turn, still, busTx, _, _⟩ := s.startOnBus_grows e
      have once : s.ebc.queue.Nodup := sorted.imp fun older same => by rw [same] at older; exact Nat.lt_irrefl _ older
      refine ⟨e, here, inFlight, fun i r element stands => State.addressOf_eq element stands, fun none_ => by simp only [State.addressOf, none_],
        busTx, turn.trans turnaround, still.trans quiet, fun x there other => ?_, fun there => ?_, ?_⟩
      · rw [queue]
        exact List.mem_append_left _ ((List.mem_erase_of_ne other).mpr there)
      · rw [queue] at there
        rcases List.mem_append.mp there with left | late
        · exact once.not_mem_erase left
        · exact absurd (young e here) (Nat.not_lt.mpr (fresh e late).1)
      · split
        · rfl
        · next ordinary =>
          simp only [ranks]
          exact first (Bool.eq_false_iff.mpr ordinary)

end Sys2Proof.Machine

/-! Settles O31 and O32: freed places, the times of the bus and the refresh polls (R86 to R89, R94, R95, R102). -/
namespace Sys2Proof.Machine

/-! ## Freed places (R102) -/

/-- The first index with a property. -/
theorem indices_find?_first {p : Index → Bool} {i : Index} (has : p i = true) (first : ∀ j, j < i → p j = false) : indices.find? p = some i := by
  cases found : indices.find? p with
  | none => exact absurd has (by simpa using List.find?_eq_none.mp found i (List.mem_finRange i))
  | some j =>
    obtain ⟨holds, n, below, here, none_⟩ := List.find?_eq_some_iff_getElem.mp found
    have place : n = j.val := by
      rw [← here]
      simp [indices]
    rcases Nat.lt_trichotomy j.val i.val with earlier | same | later
    · rw [first j earlier] at holds
      cases holds
    · rw [Fin.ext same]
    · have skipped := none_ i.val (by omega)
      simp [indices, has] at skipped

theorem indices_find?_none {p : Index → Bool} (none_ : ∀ i, p i = false) : indices.find? p = none :=
  List.find?_eq_none.mpr fun i _ => by simp [none_ i]

/-- The marks of class CONTROL of an index. -/
def State.controlMark (s : State) (i : Index) : Bool := (s.sched i).closingWanted || (s.sched i).carriageSync

section
variable {s : State} (room : s.ebc.full = false)
include room

theorem State.handOver_closing {i : Index} (first : indices.find? s.controlMark = some i) (closing : (s.sched i).closingWanted = true) :
    s.handOver = (s.modSched i fun c => { c with closingWanted := false, pollDue := false }).enter (some i) (.poll .closing) .control .internal := by
  rw [State.handOver, if_neg (by rw [room]; exact Bool.false_ne_true)]
  unfold State.controlMark at first
  simp only [first, closing, if_true]

theorem State.handOver_carriage {i : Index} (first : indices.find? s.controlMark = some i) (closing : (s.sched i).closingWanted = false) :
    s.handOver = (s.modSched i fun c => { c with carriageSync := false }).enter (some i) (.motion (.carriage (s.speedAt i))) .control .internal := by
  rw [State.handOver, if_neg (by rw [room]; exact Bool.false_ne_true)]
  unfold State.controlMark at first
  simp only [first, closing]
  rfl

theorem State.handOver_refresh (control : indices.find? s.controlMark = none) {i : Index}
    (first : indices.find? (fun i => (s.sched i).pollDue) = some i) :
    s.handOver = (s.modSched i fun c => { c with pollDue := false }).enter (some i) (.poll .refresh) .refresh .internal := by
  rw [State.handOver, if_neg (by rw [room]; exact Bool.false_ne_true)]
  unfold State.controlMark at control
  simp only [control, first]

theorem State.handOver_lamp (control : indices.find? s.controlMark = none) (refresh : indices.find? (fun i => (s.sched i).pollDue) = none)
    {i : Index} (first : indices.find? (fun i => (s.sched i).lampSync) = some i) :
    s.handOver = (s.modSched i fun c => { c with lampSync := false }).enter (some i) (.lamp (s.litAt i)) .cosmetic .internal := by
  rw [State.handOver, if_neg (by rw [room]; exact Bool.false_ne_true)]
  unfold State.controlMark at control
  simp only [control, refresh, first]

theorem State.handOver_unasked (unmarked : ∀ i, (s.sched i).marked = false) : s.handOver = s := by
  have none_ (i : Index) : (s.sched i).pollDue = false ∧ (s.sched i).closingWanted = false ∧ (s.sched i).lampSync = false
      ∧ (s.sched i).carriageSync = false := by
    simpa [Sched.marked, and_assoc] using unmarked i
  rw [State.handOver, if_neg (by rw [room]; exact Bool.false_ne_true), indices_find?_none fun i => by simp [none_ i],
    indices_find?_none fun i => (none_ i).1, indices_find?_none fun i => (none_ i).2.2.1]

end

/-- A mark of an index that becomes an entry. -/
def State.handedTo (s t : State) (i : Index) (c : Sched) (op : BusOp) (cls : TxClass) : Prop :=
  t.ebc.queue = s.ebc.queue ++ [{ age := s.ebc.nextAge, enteredAt := s.now, element := some i, op := op, cls := cls, origin := .internal }]
    ∧ t.sched i = c ∧ (∀ j, j ≠ i → t.sched j = s.sched j) ∧ t.ebc.nextAge = s.ebc.nextAge + 1

theorem State.handedTo_enter (s : State) (i : Index) (f : Sched → Sched) (op : BusOp) (cls : TxClass) :
    s.handedTo ((s.modSched i f).enter (some i) op cls .internal) i (f (s.sched i)) op cls := by
  have sched (j : Index) : ((s.modSched i f).enter (some i) op cls .internal).sched j = (s.modSched i f).sched j := rfl
  refine ⟨rfl, ?_, fun j other => ?_, rfl⟩
  · rw [sched, State.sched_modSched, if_pos rfl]
  · rw [sched, State.sched_modSched, if_neg other]

theorem oldestOfHighest_mem {l : List Entry} {e : Entry} (chosen : oldestOfHighest l = some e) : e ∈ l := by
  unfold oldestOfHighest at chosen
  simp only [Option.orElse_eq_some] at chosen
  rcases chosen with found | ⟨_, found | ⟨_, found | ⟨_, found⟩⟩⟩ <;> exact List.mem_of_find?_eq_some found

theorem selection_mem {q : List Entry} {e : Entry} (selected : selection q = some e) : e ∈ q := by
  unfold selection at selected
  cases stop : q.find? Entry.isStop with
  | some x =>
    rw [stop] at selected
    cases selected
    exact List.mem_of_find?_eq_some stop
  | none =>
    rw [stop] at selected
    exact (eligible_sublist q []).subset (oldestOfHighest_mem selected)

/-- The start of an entry that is no STOP_ALL frees a place. -/
theorem State.startOnBus_room {s : State} {e : Entry} (here : e ∈ s.ebc.queue) (ordinary : e.isStop = false) (within : s.ebc.ordinary ≤ 31) :
    (s.startOnBus e).ebc.full = false := by
  have counts : s.ebc.ordinary = (s.startOnBus e).ebc.ordinary + 1 := by
    have erased := List.countP_erase (fun x : Entry => !x.isStop) s.ebc.queue e
    have some_ : 0 < s.ebc.queue.countP fun x => !x.isStop := List.countP_pos_iff.mpr ⟨e, here, by rw [ordinary]; rfl⟩
    have same : (s.startOnBus e).ebc.ordinary = (s.ebc.queue.erase e).countP fun x => !x.isStop := rfl
    simp only [here, ordinary, Bool.not_false, and_self, if_true] at erased
    rw [same, erased, Ebc.ordinary]
    omega
  exact decide_eq_false (show ¬ 31 ≤ (s.startOnBus e).ebc.ordinary by omega)

/-- Settles O31: the freed place is handed on in the order CONTROL, refresh, lamp, each by the lowest index. -/
theorem aFreedPlaceGoesToTheFirstMark : Obligations.AFreedPlaceGoesToTheFirstMark := by
  unfold Obligations.AFreedPlaceGoesToTheFirstMark
  intro s e free selected ordinary within
  have runs := execTransactionSelect_some free selected
  rw [ordinary, if_neg Bool.false_ne_true] at runs
  refine ⟨_, runs, ?_⟩
  intro rest entry handed control
  have room := State.startOnBus_room (selection_mem selected) ordinary within
  obtain ⟨v, started⟩ : ∃ v, v = s.startOnBus e := ⟨_, rfl⟩
  have sched (i : Index) : v.sched i = s.sched i := by rw [started]; rfl
  have marks (i : Index) : v.controlMark i = control i := by rw [started]; rfl
  have speed (i : Index) : v.speedAt i = s.speedAt i := by rw [started]; rfl
  have lit (i : Index) : v.litAt i = s.litAt i := by rw [started]; rfl
  have takes {i : Index} {c : Sched} {op : BusOp} {cls : TxClass} (given : v.handedTo v.handOver i c op cls) : handed i c op cls := by
    rw [started] at given
    exact given
  rw [← started] at room
  refine ⟨fun unmarked => ?_, fun i mine first => ?_, fun none_ i mine first => ?_, fun none_ i mine first => ?_⟩
  · have still := State.handOver_unasked room fun i => (congrArg Sched.marked (sched i)).trans (unmarked i)
    rw [started] at still
    rw [still]
    exact ⟨rfl, rfl, rfl⟩
  · have found := indices_find?_first ((marks i).trans mine) fun j earlier => (marks j).trans (first j earlier)
    cases closing : (s.sched i).closingWanted with
    | true =>
      rw [if_pos rfl, ← sched]
      exact takes (by rw [State.handOver_closing room found (by rw [sched, closing])]; exact v.handedTo_enter i _ _ _)
    | false =>
      rw [if_neg Bool.false_ne_true, ← sched, ← speed]
      exact takes (by rw [State.handOver_carriage room found (by rw [sched, closing])]; exact v.handedTo_enter i _ _ _)
  · have control := indices_find?_none fun i => (marks i).trans (none_ i)
    have found := indices_find?_first (p := fun i => (v.sched i).pollDue) (i := i) (by rw [sched, mine]) fun j earlier => by rw [sched, first j earlier]
    rw [← sched]
    exact takes (by rw [State.handOver_refresh room control found]; exact v.handedTo_enter i _ _ _)
  · have control := indices_find?_none fun i => (marks i).trans (none_ i).1
    have refresh := indices_find?_none (p := fun i => (v.sched i).pollDue) fun i => by rw [sched, (none_ i).2]
    have found := indices_find?_first (p := fun i => (v.sched i).lampSync) (i := i) (by rw [sched, mine]) fun j earlier => by rw [sched, first j earlier]
    rw [← sched, ← lit]
    exact takes (by rw [State.handOver_lamp room control refresh found]; exact v.handedTo_enter i _ _ _)

end Sys2Proof.Machine

/-! Settles O32: the times of the bus and the refresh polls (R86, R88, R89, R94, R95). -/
namespace Sys2Proof.Machine

theorem Entry.isStop_iff (e : Entry) : e.isStop = true ↔ e.op = .stopAll := by
  unfold Entry.isStop
  cases e.op <;> simp

/-- Room on the bus does not depend on what is owed. -/
theorem State.noRoom_owed (s : State) (i : Index) : (s.modSched i fun c => { c with owed := true }).ebc.noRoom = s.ebc.noRoom := by
  have marks (j : Index) : ((s.modSched i fun c => { c with owed := true }).sched j).marked = (s.sched j).marked := by
    rw [State.sched_modSched]
    split
    · next here => rw [here]; rfl
    · rfl
  rw [Bool.eq_iff_iff, ← not_iff_not, Bool.not_eq_true, Bool.not_eq_true, Ebc.noRoom_false, Ebc.noRoom_false]
  exact and_congr_right fun _ => forall_congr' fun j => by rw [← State.sched, marks j]; rfl

theorem State.onlyChanges_refreshDue (s : State) (i : Index) :
    s.onlyChanges ((s.modSched i fun c => { c with owed := true }).askRefresh i) [.ebc] :=
  fun b other => by cases b <;> simp_all [State.sameBlock, State.modSched]

/-- A refresh that comes due is owed, and asked for. -/
theorem execRefreshDue_due {s : State} {i : Index} (defined : (s.elem i).isSome) (due : s.refreshDue i = true) :
    exec (.refreshDue i) s = .next ((s.modSched i fun c => { c with owed := true }).askRefresh i) :=
  congrArg Host.Outcome.next (if_pos (by rw [defined, due]; rfl))

theorem execRefreshDue_idle {s : State} {i : Index} (idle : s.elem i = none ∨ s.refreshDue i = false) : exec (.refreshDue i) s = .next s := by
  refine congrArg Host.Outcome.next (if_neg fun both => ?_)
  obtain ⟨defined, due⟩ := Bool.and_eq_true_iff.mp both
  rcases idle with undefined | early
  · rw [undefined] at defined
    cases defined
  · rw [early] at due
    cases due

/-- The bookkeeping of the index after the refresh is owed and asked for. -/
theorem State.askRefresh_sched (s : State) (i j : Index) : (s.askRefresh i).sched j =
    if j = i then { s.sched i with pollDue := ((s.askRefresh i).sched i).pollDue } else s.sched j := by
  have same : s.sched j = if j = i then { s.sched i with pollDue := (s.sched i).pollDue } else s.sched j := by
    split
    · next here => rw [here]
    · rfl
  unfold State.askRefresh
  split
  · exact same
  · split
    · rw [State.sched_modSched, State.sched_modSched, if_pos rfl]
    · exact same

theorem State.overdueFor_iff {s : State} {i : Index} {r : ElementRecord} (stands : s.elem i = some r) (e : Entry) : s.overdueFor i e = true ↔
    e.element = some i ∧ e.op = .poll .refresh ∧ e.cls = .refresh ∧ e.enteredAt + 20 * r.pollPeriod ≤ s.now := by
  simp only [State.overdueFor, Bool.and_eq_true, Entry.isFor, beq_iff_eq, and_assoc]
  exact and_congr_right fun here => and_congr_right fun _ => and_congr_right fun _ => s.waitedItsPeriod_iff e i r here stands

theorem State.overdueFor_undefined {s : State} {i : Index} (undefined : s.elem i = none) (e : Entry) : s.overdueFor i e = false := by
  refine Bool.eq_false_iff.mpr fun overdue => ?_
  obtain ⟨first, waited⟩ := Bool.and_eq_true_iff.mp overdue
  obtain ⟨first, _⟩ := Bool.and_eq_true_iff.mp first
  obtain ⟨here, _⟩ := Bool.and_eq_true_iff.mp first
  simp [State.waitedItsPeriod, beq_iff_eq.mp here, undefined] at waited

/-- Settles O32: each time that runs out changes its own part of the bus. -/
theorem busTimesAndRefreshPolls : Obligations.BusTimesAndRefreshPolls := by
  unfold Obligations.BusTimesAndRefreshPolls
  refine ⟨fun s => ⟨rfl, rfl, congrArg Host.Outcome.next ?_⟩, fun s i due defined at_ reached unowed unmarked => ?_, fun s i idle => ?_,
    fun s i r stands => congrArg Host.Outcome.next ?_, fun s i undefined => congrArg Host.Outcome.next ?_⟩
  · cases flying : s.ebc.inFlight with
    | none => rfl
    | some f =>
      dsimp only
      by_cases stop : f.entry.op = .stopAll
      · rw [if_pos stop, if_pos ((Entry.isStop_iff _).mpr stop)]
        rfl
      · rw [if_neg stop, if_neg fun h => stop ((Entry.isStop_iff _).mp h)]
  · have comes : s.refreshDue i = true := (s.refreshDue_iff i).mpr ⟨due, at_, reached, unowed, unmarked⟩
    obtain ⟨u, owes⟩ : ∃ u, u = s.modSched i fun c => { c with owed := true } := ⟨_, rfl⟩
    have sched (j : Index) : u.sched j = if j = i then { s.sched i with owed := true } else s.sched j := by rw [owes, State.sched_modSched]
    have room : u.ebc.noRoom = s.ebc.noRoom := by rw [owes, State.noRoom_owed]
    have queue : u.ebc.queue = s.ebc.queue := by rw [owes]; rfl
    have polls : u.queued (fun e => e.isPoll && e.isFor i) = s.queued fun e => e.isPoll && e.isFor i := by rw [owes]; rfl
    have flies : u.pollInFlight i = s.pollInFlight i := by rw [owes]; rfl
    refine ⟨_, execRefreshDue_due defined comes, s.onlyChanges_refreshDue i, State.askRefresh_asked _ i, ?_⟩
    rw [← owes]
    refine ⟨fun j other => ?_, ?_, fun waits => ?_, fun absent grounded => ?_⟩
    · rw [State.askRefresh_sched, if_neg other, sched, if_neg other]
    · rw [State.askRefresh_sched, if_pos rfl, sched, if_pos rfl]
    · rw [State.askRefresh, if_pos (by rw [polls, flies, Bool.or_eq_true]; exact waits), queue]
    · have asks : u.askRefresh i = if u.ebc.noRoom then u.modSched i fun c => { c with pollDue := true }
          else u.enter (some i) (.poll .refresh) .refresh .internal :=
        if_neg (by rw [polls, flies, absent, grounded]; decide)
      by_cases free : s.ebc.ordinary < 31 ∧ ∀ j, (s.sched j).marked = false
      · rw [if_pos free, asks, room, (Ebc.noRoom_false _).mpr free, if_neg Bool.false_ne_true, owes]
        rfl
      · have full : s.ebc.noRoom = true := Bool.of_not_eq_false fun noRoom => free ((Ebc.noRoom_false _).mp noRoom)
        rw [if_neg free, asks, room, full, if_pos rfl]
        exact ⟨queue, by rw [State.sched_modSched, if_pos rfl]⟩
  · refine execRefreshDue_idle (idle.imp_right fun idle => Bool.eq_false_iff.mpr fun due => ?_)
    obtain ⟨at_, some_, reached, unowed, unmarked⟩ := (s.refreshDue_iff i).mp due
    rcases idle with early | owed | marked
    · exact absurd (early at_ some_) (Nat.not_lt.mpr reached)
    · rw [owed] at unowed
      cases unowed
    · rw [marked] at unmarked
      cases unmarked
  · simp only [State.mapQueue, State.overdueFor_iff stands]
    rfl
  · simp only [State.mapQueue, State.overdueFor_undefined undefined]
    simp [State.setEbc]

end Sys2Proof.Machine

/-! Settles O33: replies that are unsound or that no transaction waits for (R87, R88, R111, R195). -/
namespace Sys2Proof.Machine

/-! ## The checks of a reply frame (R195) -/

theorem checkReply_unsound (k : Kind) (address : Byte) (op : BusOp) {head crc : List Byte} (two : crc.length = 2)
    (wrong : crc ≠ halfBytes (busCrc head)) : checkReply k address op (head ++ crc) = .failed := by
  simp only [checkReply, splitCrc_append head two]
  exact if_neg fun right => wrong (crcRight_iff.mp right)

/-- A frame too short for an epoch, or from another node. -/
theorem checkReply_elsewhere (k : Kind) {address : Byte} (op : BusOp) {head : List Byte}
    (bad : head.length < 3 ∨ head.head? ≠ some address) : checkReply k address op (busFrame head) = .failed := by
  simp only [checkReply, busFrame, splitCrc_append head (halfBytes_length _), crcRight_iff, if_true]
  match head, bad with
  | [], _ => rfl
  | [_], _ => rfl
  | [_, _], _ => rfl
  | source :: type :: epoch :: fields, bad =>
    refine if_neg fun same => ?_
    rcases bad with short | other
    · exact absurd short (by simp)
    · exact other (congrArg some same)

section
variable (k : Kind) (address epoch : Byte) (fields : List Byte)

theorem checkReply_poll (role : PollRole) (type : Byte) : checkReply k address (.poll role) (busFrame (address :: type :: epoch :: fields)) =
    if type = 0x81#8 then match readingOf k fields with
      | some reading => .polled epoch reading
      | none => .failed
    else .failed := by
  simp only [checkReply, busFrame, splitCrc_append _ (halfBytes_length _), crcRight_iff, if_true] <;> rfl

theorem checkReply_drive {op : BusOp} (poll : ∀ role, op ≠ .poll role) (addressed : op ≠ .stopAll) (type : Byte) :
    checkReply k address op (busFrame (address :: type :: epoch :: fields)) =
      if type = 0x82#8 ∧ fields = [] then .driven else .failed := by
  simp only [checkReply, busFrame, splitCrc_append _ (halfBytes_length _), crcRight_iff, if_true]
  cases op with
  | poll role => exact absurd rfl (poll role)
  | stopAll => exact absurd rfl addressed
  | _ => rfl

theorem checkReply_reading {reading : Reading} (role : PollRole) (reads : readingOf k fields = some reading) :
    checkReply k address (.poll role) (busFrame (address :: 0x81#8 :: epoch :: fields)) = .polled epoch reading := by
  rw [checkReply_poll, reads]
  rfl

end

theorem Entry.isPoll_false (e : Entry) : e.isPoll = false ↔ ∀ role, e.op ≠ .poll role := by
  rw [← Bool.not_eq_true, Entry.isPoll_iff, not_exists]

/-! ## Which end a transaction comes to (R87) -/

section
variable {s : State} {f : InFlight} {i : Index} {r : ElementRecord}

theorem Entry.isStop_false {e : Entry} (addressed : e.op ≠ .stopAll) : e.isStop = false :=
  Bool.eq_false_iff.mpr fun stop => addressed ((Entry.isStop_iff e).mp stop)

theorem execReplyTimeout_end (awaits : s.awaitsEnd f i r) (addressed : f.entry.op ≠ .stopAll) :
    exec .replyTimeout s = .next (s.endTransaction.transactionFailed i f.entry.op) := by
  obtain ⟨flying, element, counts, _⟩ := awaits
  refine congrArg Host.Outcome.next ?_
  simp only [flying, Entry.isStop_false addressed, State.timedOut, element, counts]
  simp

theorem execBusReply_end (awaits : s.awaitsReply f i r) (addressed : f.entry.op ≠ .stopAll) (frame : List Byte) :
    exec (.busReply frame) s = .next (s.endTransaction.endWith i f.entry.op (checkReply r.part.kind f.address f.entry.op frame)) := by
  obtain ⟨⟨flying, element, counts, stands⟩, waited⟩ := awaits
  have windowOpen : f.windowOpen = true := f.windowOpen_iff.mpr ⟨Entry.isStop_false addressed, waited⟩
  refine congrArg Host.Outcome.next ?_
  simp only [flying, windowOpen, State.replied, element, counts, stands]
  simp

/-- A reply that fails its checks ends the transaction as a timeout does. -/
theorem execBusReply_failed (awaits : s.awaitsReply f i r) (addressed : f.entry.op ≠ .stopAll) {frame : List Byte}
    (fails : checkReply r.part.kind f.address f.entry.op frame = .failed) : exec (.busReply frame) s = exec .replyTimeout s := by
  rw [execBusReply_end awaits addressed, execReplyTimeout_end awaits.1 addressed, fails]
  rfl

end

/-- Settles O33: outside a window nothing, for an orphan the end alone, and for an unsound frame a failure. -/
theorem unsoundAndUnwantedReplies : Obligations.UnsoundAndUnwantedReplies := by
  unfold Obligations.UnsoundAndUnwantedReplies
  refine ⟨fun s frame none_ => ⟨?_, ?_⟩, fun s f frame flying early => ?_, fun s f i frame flying element addressed orphaned => ⟨fun waited => ?_, ?_⟩,
    fun s f i r awaits addressed => ⟨?_, ?_, ?_, ?_, ?_⟩⟩
  · refine execBusReply_outside frame s fun f flying => Bool.eq_false_iff.mpr fun opened => ?_
    have counts := (f.windowOpen_iff.mp opened).1
    rw [(Entry.isStop_iff _).mpr (none_ f flying)] at counts
    cases counts
  · refine congrArg Host.Outcome.next ?_
    cases flying : s.ebc.inFlight with
    | none => rfl
    | some f => exact if_pos ((Entry.isStop_iff _).mpr (none_ f flying))
  · refine execBusReply_outside frame s fun g flies => Bool.eq_false_iff.mpr fun opened => ?_
    obtain rfl := Option.some.inj (flying.symm.trans flies)
    exact absurd (f.windowOpen_iff.mp opened).2 (Nat.not_le.mpr early)
  · have windowOpen : f.windowOpen = true := f.windowOpen_iff.mpr ⟨Entry.isStop_false addressed, waited⟩
    refine congrArg Host.Outcome.next ?_
    simp only [flying, windowOpen, State.replied, element, orphaned, if_true]
    rfl
  · refine congrArg Host.Outcome.next ?_
    simp only [flying, Entry.isStop_false addressed, State.timedOut, element, orphaned, if_true]
    rfl
  · exact fun head crc two wrong => execBusReply_failed awaits addressed (checkReply_unsound _ _ _ two wrong)
  · exact fun head bad => execBusReply_failed awaits addressed (checkReply_elsewhere _ _ bad)
  · intro type epoch fields other
    refine execBusReply_failed awaits addressed ?_
    cases poll : f.entry.isPoll with
    | true =>
      obtain ⟨role, op⟩ := (Entry.isPoll_iff _).mp poll
      rw [poll, if_pos rfl] at other
      rw [op, checkReply_poll, if_neg other]
    | false =>
      rw [poll, if_neg Bool.false_ne_true] at other
      rw [checkReply_drive _ _ _ _ ((Entry.isPoll_false _).mp poll) addressed, if_neg fun both => other both.1]
  · intro epoch fields poll unread
    obtain ⟨role, op⟩ := (Entry.isPoll_iff _).mp poll
    refine execBusReply_failed awaits addressed ?_
    rw [op, checkReply_poll, unread]
    rfl
  · intro epoch fields drive some_
    refine execBusReply_failed awaits addressed ?_
    rw [checkReply_drive _ _ _ _ ((Entry.isPoll_false _).mp drive) addressed, if_neg fun both => some_ both.2]

end Sys2Proof.Machine

/-! The common part of a completed poll and of a failed transaction (R8 to R15, R87, R94). -/
namespace Sys2Proof.Machine

/-! ## Asks of one element leave the others' transactions -/

/-- `t`'s bus is `s`'s but for the transactions of element `i`. -/
def State.sameElsewhere (s t : State) (i : Index) : Prop :=
  t.ebc.inFlight = s.ebc.inFlight ∧ t.ebc.turnaround = s.ebc.turnaround ∧ (∀ j, j ≠ i → t.sched j = s.sched j)
    ∧ t.ebc.queue.filter (fun e => !e.isFor i) = s.ebc.queue.filter (fun e => !e.isFor i)
    ∧ (t.sched i).due = (s.sched i).due ∧ (t.sched i).owed = (s.sched i).owed

theorem State.sameElsewhere.trans {s t u : State} {i : Index} (h : s.sameElsewhere t i) (g : t.sameElsewhere u i) : s.sameElsewhere u i := by
  obtain ⟨flight, turn, sched, queue, due, owed⟩ := h
  obtain ⟨flight', turn', sched', queue', due', owed'⟩ := g
  exact ⟨flight'.trans flight, turn'.trans turn, fun j other => (sched' j other).trans (sched j other), queue'.trans queue, due'.trans due,
    owed'.trans owed⟩

/-- The three ways an ask of an element is met. -/
theorem State.sameElsewhere_ask (s : State) {i : Index} {p : Entry → Bool} (f : Entry → Entry) (mark : Sched → Sched) (op : BusOp) (cls : TxClass)
    (mine : ∀ e, p e = true → e.isFor i = true) (kept : ∀ e, (f e).element = e.element) (dues : ∀ c, (mark c).due = c.due ∧ (mark c).owed = c.owed) :
    s.sameElsewhere (if s.queued p then s.mapQueue fun e => if p e then f e else e
      else if s.ebc.noRoom then s.modSched i mark else s.enter (some i) op cls .internal) i := by
  split
  · refine ⟨rfl, rfl, fun _ _ => rfl, ?_, rfl, rfl⟩
    show (s.ebc.queue.map fun e => if p e then f e else e).filter _ = _
    rw [List.filter_map]
    have place (e : Entry) : (if p e then f e else e).isFor i = e.isFor i := by
      split
      · rw [Entry.isFor, kept]; rfl
      · rfl
    have same : (fun e : Entry => !e.isFor i) ∘ (fun e => if p e then f e else e) = fun e => !e.isFor i := by
      funext e
      simp only [Function.comp, place]
    rw [same]
    refine (List.map_congr_left fun e here => ?_).trans (List.map_id _)
    have other := (List.mem_filter.mp here).2
    refine if_neg fun asked => ?_
    rw [mine e asked] at other
    cases other
  · split
    · have sched (j : Index) := s.sched_modSched i j mark
      refine ⟨rfl, rfl, fun j other => (sched j).trans (if_neg other), rfl, ?_, ?_⟩
      · rw [sched, if_pos rfl, (dues _).1]
      · rw [sched, if_pos rfl, (dues _).2]
    · refine ⟨rfl, rfl, fun _ _ => rfl, ?_, rfl, rfl⟩
      show (s.ebc.queue ++ [_]).filter _ = _
      rw [List.filter_append]
      simp [Entry.isFor]

theorem State.sameElsewhere_asksAll {i : Index} {asks : List BusAsk} : ∀ (s : State), (∀ q ∈ asks, q.index = i) → s.sameElsewhere (s.asksAll asks) i := by
  induction asks with
  | nil => exact fun s _ => ⟨rfl, rfl, fun _ _ => rfl, rfl, rfl, rfl⟩
  | cons q asks ih =>
    intro s mine
    rw [State.asksAll_cons]
    refine State.sameElsewhere.trans ?_ (ih _ fun r here => mine r (List.mem_cons_of_mem q here))
    have here := mine q List.mem_cons_self
    cases q with
    | lamp j on =>
      subst here
      exact s.sameElsewhere_ask (fun e => { e with op := .lamp on }) _ _ _ (fun e asked => (Bool.and_eq_true_iff.mp asked).2) (fun _ => rfl) fun _ => ⟨rfl, rfl⟩
    | speed j speed =>
      subst here
      exact s.sameElsewhere_ask (fun e => { e with op := .motion (.carriage speed) }) _ _ _
        (fun e asked => (Bool.and_eq_true_iff.mp (Bool.and_eq_true_iff.mp asked).1).2) (fun _ => rfl) fun _ => ⟨rfl, rfl⟩
    | closing j =>
      subst here
      exact s.sameElsewhere_ask (fun e => { e with op := .poll .closing, cls := .control }) _ _ _
        (fun e asked => (Bool.and_eq_true_iff.mp asked).2) (fun _ => rfl) fun _ => ⟨rfl, rfl⟩

/-! ## The end on the bus (R87, R94) -/

theorem State.endedOnBus_eq (s : State) (asks : List BusAsk) : (s.endTransaction.asksAll asks).ebc = s.endedOnBus asks := rfl

theorem State.setDue_ebc {s t : State} {i : Index} {q : ElementRecord} (stands : t.elem i = some q) {asks : List BusAsk}
    (bus : t.ebc = s.endedOnBus asks) (clock : t.now = s.now) : (t.setDue i).ebc = s.pollEnded i q.pollPeriod asks := by
  unfold State.setDue
  rw [stands]
  simp only [State.modSched, State.setSched, State.setEbc, State.sched, bus, clock, State.pollEnded, Config.slicesPerMs, Nat.mul_comm 20]

/-- The bus after a poll ended, for the element and for the others. -/
theorem State.pollEnded_spec {s u : State} {i : Index} {pollPeriod : Nat} {asks : List BusAsk} (mine : ∀ q ∈ asks, q.index = i)
    (bus : u.ebc = s.pollEnded i pollPeriod asks) : u.endsOnBus ∧ (u.sched i).due = some (s.now + 20 * pollPeriod) ∧ (u.sched i).owed = false
      ∧ (∀ j, j ≠ i → u.sched j = s.sched j) ∧ u.ebc.queue.filter (fun e => !e.isFor i) = s.ebc.queue.filter (fun e => !e.isFor i) := by
  obtain ⟨flight, turn, sched, queue, _, _⟩ := s.endTransaction.sameElsewhere_asksAll mine
  have place (j : Index) : u.sched j = if j = i then { (s.endTransaction.asksAll asks).sched i with due := some (s.now + 20 * pollPeriod), owed := false }
      else (s.endTransaction.asksAll asks).sched j := by
    rw [State.sched, bus]
    exact getElem_set_fin _ i j _
  refine ⟨⟨by rw [bus]; exact flight, by rw [bus]; exact turn⟩, ?_, ?_, fun j other => ?_, by rw [bus]; exact queue⟩
  · rw [place, if_pos rfl]
  · rw [place, if_pos rfl]
  · rw [place, if_neg other]
    exact sched j other

theorem State.endedOnBus_spec {s u : State} {i : Index} {asks : List BusAsk} (mine : ∀ q ∈ asks, q.index = i) (bus : u.ebc = s.endedOnBus asks) :
    u.endsOnBus ∧ (u.sched i).due = (s.sched i).due ∧ (u.sched i).owed = (s.sched i).owed ∧ (∀ j, j ≠ i → u.sched j = s.sched j)
      ∧ u.ebc.queue.filter (fun e => !e.isFor i) = s.ebc.queue.filter (fun e => !e.isFor i) := by
  obtain ⟨flight, turn, sched, queue, due, owed⟩ := s.endTransaction.sameElsewhere_asksAll mine
  have place (j : Index) : u.sched j = (s.endTransaction.asksAll asks).sched j := by
    rw [State.sched, bus]
    rfl
  refine ⟨⟨by rw [bus]; exact flight, by rw [bus]; exact turn⟩, by rw [place]; exact due, by rw [place]; exact owed, fun j other => ?_,
    by rw [bus]; exact queue⟩
  rw [place]
  exact sched j other

/-! ## The hold of an entry to FAULT (R15) -/

theorem State.thenHold_of {u : State} {i : Index} {asks : Bool} {asked : Prop} (same : asks = true ↔ asked) : u.thenHold (u.holdForFault i asks) i asked := by
  refine ⟨fun holds => ?_, fun none_ => if_neg fun holds => none_ (same.mp holds)⟩
  have acts : u.holdForFault i asks = u.requestPush (.elementFault i) := if_pos (same.mpr holds)
  rw [acts]
  exact u.requestPush_spec (.elementFault i)

theorem ElementRecord.unfaulted_iff (r : ElementRecord) : r.inFault = false ↔ r.state = .probing ∨ r.state = .online := by
  cases state : r.state <;> simp [ElementRecord.inFault, state]

theorem State.faultAsksHold_iff (s : State) (before after : ElementRecord) : s.faultAsksHold before after = true ↔
    after.inFault = true ∧ (before.state = .probing ∨ before.state = .online) ∧ before.faultHolds = true ∧ s.mch.phase.inMatch = true := by
  simp only [State.faultAsksHold, Bool.and_eq_true, Bool.not_eq_true', ElementRecord.unfaulted_iff]
  tauto

/-! ## A completed poll (R9, R10) -/

theorem ElementRecord.restartedBy_eq (r : ElementRecord) (epoch : Byte) : r.restartedBy epoch = (r.epoch.isSome && r.epoch != some epoch) := by
  unfold ElementRecord.restartedBy
  cases r.epoch with
  | none => rfl
  | some stored => exact (Bool.true_and _).symm ▸ rfl

theorem ElementRecord.polled_eq (r : ElementRecord) (epoch : Byte) (reading : Reading) :
    r.polled epoch reading = r.afterPoll epoch reading reading.sensorFault := by
  unfold ElementRecord.polled ElementRecord.afterPoll
  rw [ElementRecord.restartedBy_eq]
  rfl

theorem ElementRecord.afterPoll_inFault (r : ElementRecord) (epoch : Byte) (reading : Reading) (broken : Bool) :
    (r.afterPoll epoch reading broken).inFault = broken := by
  cases broken <;> rfl

/-- The field table's own part of a completed poll. -/
def State.polledFirst (s : State) (i : Index) (r : ElementRecord) (epoch : Byte) (reading : Reading) : State :=
  ((s.setElem i (some (r.polled epoch reading))).raiseElement? i (if r.restartedBy epoch then some .restarted else none)).raiseElement? i
    (pollNotice r.state reading.sensorFault)

theorem State.Handled.raiseElement? {s t : State} {i : Index} {r : ElementRecord} {notices : List Notice} {asks : List BusAsk} {tu : Tu}
    (h : s.Handled t i r notices asks tu) (n : Option ElementNotice) :
    s.Handled (t.raiseElement? i n) i r (notices ++ (n.map (Notice.element i)).toList) asks tu := by
  cases n with
  | none => simpa [State.raiseElement?] using h
  | some n => exact h.raiseElement n

theorem pollNotices_eq (i : Index) (r : ElementRecord) (epoch : Byte) (broken : Bool) : pollNotices i r epoch broken =
    (((if r.restartedBy epoch then some ElementNotice.restarted else none).map (Notice.element i)).toList
      ++ ((pollNotice r.state broken).map (Notice.element i)).toList) := by
  unfold pollNotices
  congr 1
  · unfold ElementRecord.restartedBy
    cases r.epoch with
    | none => rfl
    | some stored => by_cases same : stored = epoch <;> simp [same]
  · cases state : r.state with
    | fault reason => cases reason <;> cases broken <;> rfl
    | _ => cases broken <;> rfl

theorem State.polledFirst_handled {s : State} {i : Index} {r : ElementRecord} (stands : s.elem i = some r) (epoch : Byte) (reading : Reading) :
    s.Handled (s.polledFirst i r epoch reading) i (r.afterPoll epoch reading reading.sensorFault)
      (pollNotices i r epoch reading.sensorFault) [] s.tu := by
  refine ((((State.Handled.refl stands).setElem (r.polled epoch reading)).raiseElement? _).raiseElement? _).congr (r.polled_eq epoch reading) ?_ rfl rfl
  rw [pollNotices_eq, List.nil_append]

section
variable {s : State} {f : InFlight} {i : Index} {r : ElementRecord} {role : PollRole} {epoch : Byte} {fields : List Byte} {reading : Reading}

/-- A sound reply to a poll runs the field table, the handler, the refresh schedule, and last the hold it asks for. -/
theorem execBusReply_polled (awaits : s.awaitsReply f i r) (op : f.entry.op = .poll role) (reads : readingOf r.part.kind fields = some reading) :
    exec (.busReply (busFrame (f.address :: 0x81#8 :: epoch :: fields))) s = .next
      (((((s.endTransaction.polledFirst i r epoch reading).handReading i role reading
        (pieceDelta r.reading reading (r.restartedBy epoch)) (r.restartedBy epoch))).setDue i).holdForFault i
          (s.endTransaction.faultAsksHold r (r.polled epoch reading))) := by
  have stands : s.endTransaction.elem i = some r := awaits.1.2.2.2
  rw [execBusReply_end awaits (by rw [op]; exact nofun), op, checkReply_reading _ _ _ _ role reads]
  refine congrArg Host.Outcome.next ?_
  simp only [State.endWith, State.pollCompleted, stands]
  rfl

/-- The hold of a completed poll. -/
theorem State.thenHold_polled (s u : State) (i : Index) (r : ElementRecord) (epoch : Byte) (reading : Reading) {broken : Bool}
    (fault : reading.sensorFault = broken) : u.thenHold (u.holdForFault i (s.endTransaction.faultAsksHold r (r.polled epoch reading))) i
      (broken = true ∧ (r.state = .probing ∨ r.state = .online) ∧ r.faultHolds = true ∧ s.mch.phase.inMatch = true) := by
  refine State.thenHold_of ((State.faultAsksHold_iff _ _ _).trans ?_)
  rw [ElementRecord.polled_eq, ElementRecord.afterPoll_inFault, fault]
  rfl

end

/-- What a handler leaves after the refresh schedule took its end. -/
theorem State.Handled.pollEnds {s t : State} {i : Index} {q : ElementRecord} {notices : List Notice} {asks : List BusAsk} {tu : Tu}
    (h : s.endTransaction.Handled t i q notices asks tu) :
    s.onlyChanges (t.setDue i) [.hlp, .elems, .ebc, .tu] ∧ s.elemsBut (t.setDue i) i ∧ (t.setDue i).elem i = some q ∧ (t.setDue i).tu = tu
      ∧ (t.setDue i).hlp = s.hlp.raiseAll notices ∧ (t.setDue i).ebc = s.pollEnded i q.pollPeriod asks ∧ (t.setDue i).roster = s.roster := by
  have elem (j : Index) : (t.setDue i).elem j = t.elem j := State.elem_congr (by simp) j
  have clock : t.now = s.now := h.now
  refine ⟨fun b other => ?_, fun j other => (elem j).trans (h.elemsBut j other), (elem i).trans h.elem_self, by simp [h.tu], by simpa using h.hlp,
    State.setDue_ebc h.elem_self h.ebc clock, by simpa using h.roster⟩
  have kept := h.onlyChanges b other
  cases b <;> simp_all [State.sameBlock]

end Sys2Proof.Machine

/-! Settles O35, O36 and O40: the ends of a goal's polls and of an acknowledged drive (R11, R12, R118, R120 to R123). -/
namespace Sys2Proof.Machine

/-! ## A failed transaction (R13) -/

theorem oneMoreFailure_eq (n : Nat) : oneMoreFailure n = min 3 (n + 1) := by
  unfold oneMoreFailure
  split <;> omega

theorem ElementRecord.failed_eq (r : ElementRecord) : r.failed = r.afterFailure := by
  have third : 3 ≤ min 3 (r.failures + 1) ↔ 2 ≤ r.failures := by omega
  simp only [ElementRecord.failed, ElementRecord.afterFailure, stateAfterFailure, oneMoreFailure_eq, third]

/-- The field table's own part of a failed transaction. -/
def State.failedFirst (s : State) (i : Index) (r : ElementRecord) : State :=
  (s.setElem i (some r.failed)).raiseElement? i (failureNotice r.state (oneMoreFailure r.failures))

theorem failureNotices_eq (i : Index) (r : ElementRecord) :
    failureNotices i r = ((failureNotice r.state (oneMoreFailure r.failures)).map (Notice.element i)).toList := by
  have third : 3 ≤ min 3 (r.failures + 1) ↔ 2 ≤ r.failures := by omega
  unfold failureNotices failureNotice
  simp only [oneMoreFailure_eq, third]
  split <;> rfl

theorem State.failedFirst_handled {s : State} {i : Index} {r : ElementRecord} (stands : s.elem i = some r) :
    s.Handled (s.failedFirst i r) i r.afterFailure (failureNotices i r) [] s.tu := by
  refine (((State.Handled.refl stands).setElem r.failed).raiseElement? _).congr r.failed_eq ?_ rfl rfl
  rw [failureNotices_eq, List.nil_append]

theorem ElementRecord.afterFailure_inFault (r : ElementRecord) (sound : r.state = .probing ∨ r.state = .online) :
    r.afterFailure.inFault = true ↔ 2 ≤ r.failures := by
  unfold ElementRecord.afterFailure ElementRecord.inFault
  by_cases third : 2 ≤ r.failures
  · simp [third]
  · rcases sound with state | state <;> simp [third, state]

section
variable {s : State} {f : InFlight} {i : Index} {r : ElementRecord}

/-- The end of a failed transaction: the handler, then the refresh schedule when it was a poll. -/
def State.failureEnded (s : State) (i : Index) (r : ElementRecord) (op : BusOp) : State :=
  let t := (s.endTransaction.failedFirst i r).handFailure i r.part.kind op
  match op with
  | .poll _ => t.setDue i
  | .lamp _ | .motion _ | .stopAll => t

theorem execReplyTimeout_failed (awaits : s.awaitsEnd f i r) (addressed : f.entry.op ≠ .stopAll) : exec .replyTimeout s = .next
    ((s.failureEnded i r f.entry.op).holdForFault i (s.endTransaction.faultAsksHold r r.failed)) := by
  have stands : s.endTransaction.elem i = some r := awaits.2.2.2
  rw [execReplyTimeout_end awaits addressed]
  refine congrArg Host.Outcome.next ?_
  simp only [State.transactionFailed, stands]
  rfl

theorem State.thenHold_failed (s u : State) (i : Index) (r : ElementRecord) :
    u.thenHold (u.holdForFault i (s.endTransaction.faultAsksHold r r.failed)) i
      (2 ≤ r.failures ∧ (r.state = .probing ∨ r.state = .online) ∧ r.faultHolds = true ∧ s.mch.phase.inMatch = true) := by
  refine State.thenHold_of ((State.faultAsksHold_iff _ _ _).trans ?_)
  rw [ElementRecord.failed_eq]
  constructor
  · rintro ⟨fault, sound, rest⟩
    exact ⟨(r.afterFailure_inFault sound).mp fault, sound, rest⟩
  · rintro ⟨third, sound, rest⟩
    exact ⟨(r.afterFailure_inFault sound).mpr third, sound, rest⟩

end

/-! ## A completed poll of a goal (R11, R120 to R123) -/

theorem pieceDelta_eq (before : Option Reading) (counter : Byte) (broken restarted : Bool) :
    pieceDelta before (.goal counter broken) restarted = match before with
      | some (.goal old false) => if broken || restarted then 0 else (counter - old).toNat
      | _ => 0 := by
  unfold pieceDelta
  cases before with
  | none => rfl
  | some reading =>
    cases reading with
    | goal old cut => cases cut <;> cases broken <;> simp
    | _ => rfl

theorem readingOf_goal (counter : Byte) (broken : Bool) :
    readingOf .goal [counter, if broken then 1 else 0] = some (.goal counter broken) := by
  cases broken <;> rfl

/-- Counted pieces leave the window and the wish for a lamp drive. -/
theorem GoalPart.afterPiece_window (lost : Bool) (p : GoalPart) :
    (p.afterPiece lost).window = p.window ∧ (p.afterPiece lost).lampResync = p.lampResync := by
  refine GoalPart.afterPiece_cases (C := fun q => q.window = p.window ∧ q.lampResync = p.lampResync) ?_ ?_ ?_
  all_goals intros; exact ⟨rfl, rfl⟩

theorem GoalPart.afterPieces_window (lost : Bool) (n : Nat) : ∀ p : GoalPart,
    (GoalPart.afterPieces lost n p).window = p.window ∧ (GoalPart.afterPieces lost n p).lampResync = p.lampResync := by
  induction n with
  | zero => exact fun _ => ⟨rfl, rfl⟩
  | succ n ih =>
    intro p
    obtain ⟨window, lamp⟩ := p.afterPiece_window lost
    obtain ⟨window', lamp'⟩ := ih (p.afterPiece lost)
    exact ⟨window'.trans window, lamp'.trans lamp⟩

/-- Everything that the end of a goal's poll does before the hold. -/
theorem State.goalPoll_done {s : State} {i : Index} {r : ElementRecord} {p : GoalPart} (stands : s.elem i = some r) (goal : r.part = .goal p)
    (role : PollRole) (epoch counter : Byte) (broken : Bool) :
    s.goalPollDone (((s.endTransaction.polledFirst i r epoch (.goal counter broken)).handReading i role (.goal counter broken)
      (pieceDelta r.reading (.goal counter broken) (r.restartedBy epoch)) (r.restartedBy epoch)).setDue i) i r p role epoch counter broken := by
  have first := State.polledFirst_handled (s := s.endTransaction) stands epoch (.goal counter broken)
  have part : (r.afterPoll epoch (.goal counter broken) broken).part = .goal p := goal
  obtain ⟨b, began⟩ : ∃ b, b = s.endTransaction.polledFirst i r epoch (.goal counter broken) := ⟨_, rfl⟩
  obtain ⟨delta, counts⟩ : ∃ n, n = pieceDelta r.reading (.goal counter broken) (r.restartedBy epoch) := ⟨_, rfl⟩
  rw [← began] at first ⊢
  rw [← counts]
  have held : b.held = s.held := first.held
  have counted := State.Handled.countPieces (p.counting s.held delta) (first.setGoal (p.attributed s.held delta)) rfl rfl rfl
  have done := (counted.goalEnded rfl role (r.restartedBy epoch) (r.afterPoll_inFault epoch (.goal counter broken) broken)
    (closes := role == .closing && p.window == .closing) (by rw [(GoalPart.afterPieces_window _ _ _).1]; rfl)).pollEnds
  have runs := State.goalPolled_eq (State.goal_of first.elem_self part) role delta (r.restartedBy epoch)
  rw [held] at runs
  rw [← runs] at done
  obtain ⟨only, others, record, tu, hlp, ebc, _⟩ := done
  unfold State.goalPollDone
  rw [← ElementRecord.restartedBy_eq]
  intro restarted delta' creditable row closed n total counted' closes part' record' sticky credited
  have same : delta' = delta := ((pieceDelta_eq ..).symm.trans counts.symm)
  clear_value delta'
  subst same
  refine ⟨only, others, record, tu, hlp, ?_⟩
  rw [(GoalPart.afterPieces_window _ _ _).2] at ebc
  exact ebc

section
variable {s : State} {f : InFlight} {i : Index} {r : ElementRecord} {p : GoalPart}

theorem execBusReply_goal (awaits : s.awaitsReply f i r) {role : PollRole} (op : f.entry.op = .poll role) (goal : r.part = .goal p)
    (epoch counter : Byte) (broken : Bool) :
    ∃ t u, exec (.busReply (busFrame [f.address, 0x81, epoch, counter, if broken then 1 else 0])) s = .next t
      ∧ u.thenHold t i (broken = true ∧ (r.state = .probing ∨ r.state = .online) ∧ r.faultHolds = true ∧ s.mch.phase.inMatch = true)
      ∧ s.goalPollDone u i r p role epoch counter broken := by
  have reads : readingOf r.part.kind [counter, if broken then 1 else 0] = some (.goal counter broken) := by
    rw [goal]
    exact readingOf_goal counter broken
  exact ⟨_, _, execBusReply_polled awaits op reads, State.thenHold_polled _ _ i r epoch _ rfl,
    State.goalPoll_done awaits.1.2.2.2 goal role epoch counter broken⟩

end

/-! ## Counts that no piece fills or stops (R120 to R122) -/

theorem half_succ (x : Half) (n : Nat) : x + 1 + BitVec.ofNat 16 n = x + BitVec.ofNat 16 (n + 1) := by
  rw [BitVec.add_assoc, Nat.add_comm n 1, BitVec.ofNat_add]
  rfl

theorem GoalPart.afterPieces_counts (lost : Bool) (n : Nat) (i : Index) (row : Option (Fin 28)) : ∀ p : GoalPart, p.windowPieces ≤ 65535 →
    -255 ≤ p.count - n → ((n : Int) < p.count ∨ p.count ≤ 0 ∨ p.quota = 0 ∨ p.filled = true) →
    GoalPart.afterPieces lost n p = { p with
        counted := p.counted + BitVec.ofNat 16 n, windowPieces := min 65535 (p.windowPieces + n)
        unattributed := if lost then p.unattributed + BitVec.ofNat 16 n else p.unattributed, count := p.count - n }
      ∧ GoalPart.piecePoints n p = List.replicate n p.pointsPerPiece ∧ GoalPart.pieceNotices i row n p = [] := by
  induction n with
  | zero =>
    intro p within _ _
    refine ⟨?_, rfl, rfl⟩
    simp [GoalPart.afterPieces, Nat.min_eq_right within]
  | succ n ih =>
    intro p within bound open_
    have above : ¬ p.count ≤ -255 := by omega
    have unfilled : p.fillsNext = false := by
      refine Bool.eq_false_iff.mpr fun fills => ?_
      obtain ⟨one, quota, filled⟩ := p.fillsNext_iff.mp fills
      rcases open_ with many | few | free | full
      · omega
      · omega
      · exact quota free
      · rw [full] at filled
        cases filled
    have step := GoalPart.afterPiece_counts above unfilled
    obtain ⟨later, points, notices⟩ := ih (p.afterPiece lost) (by rw [step]; exact Nat.min_le_left _ _)
      (by rw [step]; show -255 ≤ p.count - 1 - n; omega)
      (by rw [step]; exact open_.imp (fun many => (by omega : (n : Int) < p.count - 1)) (Or.imp_left fun few => (by omega : p.count - 1 ≤ 0)))
    refine ⟨?_, ?_, ?_⟩
    · rw [GoalPart.afterPieces, later, step]
      have pieces : min 65535 (min 65535 (p.windowPieces + 1) + n) = min 65535 (p.windowPieces + (n + 1)) := by omega
      have left : p.count - 1 - (n : Int) = p.count - ((n + 1 : Nat) : Int) := by omega
      have gone : (if lost then (if lost then p.unattributed + 1 else p.unattributed) + BitVec.ofNat 16 n
          else if lost then p.unattributed + 1 else p.unattributed) = if lost then p.unattributed + BitVec.ofNat 16 (n + 1) else p.unattributed := by
        cases lost
        · rfl
        · exact half_succ p.unattributed n
      simp only [GoalPart.tallied, half_succ, pieces, left, gone]
    · rw [GoalPart.piecePoints_succ n p lost, points, step]
      simp [GoalPart.piecePoints, unfilled, GoalPart.tallied, List.replicate_succ]
    · rw [GoalPart.pieceNotices_succ i row n p lost, notices]
      simp [GoalPart.pieceNotices, unfilled, above]

/-- Equal credits to one cell, one after another. -/
theorem Cell.add_replicate (points n : Nat) : ∀ c : Cell, -32767 ≤ c.value → c.value ≤ 32767 →
    (List.replicate n points).foldl (fun c n => c.add n) c =
      { value := min 32767 (c.value + n * points), saturated := c.saturated || decide (32767 < c.value + n * points) } := by
  induction n with
  | zero =>
    intro c _ most
    have none_ : ¬ 32767 < c.value := by omega
    simp [Int.min_eq_right most, none_]
  | succ n ih =>
    intro c least most
    have total : c.value + ((n + 1 : Nat) : Int) * points = c.value + points + n * points := by push_cast; ring
    have first : c.add points = { value := min 32767 (c.value + points), saturated := c.saturated || decide (32767 < c.value + points) } := by
      have above : ¬ c.value + (points : Int) < -32767 := by omega
      rw [Cell.add_eq, decide_eq_false above, Bool.or_false, Int.max_eq_right (by omega)]
    have more : (0 : Int) ≤ n * points := by positivity
    rw [List.replicate_succ, List.foldl_cons, ih _ (by rw [first]; show -32767 ≤ min 32767 (c.value + points); omega)
      (by rw [first]; exact Int.min_le_left _ _), first, total]
    generalize (n : Int) * points = rest at more
    generalize c.value + (points : Int) = value
    congr 1
    · dsimp only
      omega
    · rw [Bool.or_assoc]
      congr 1
      rw [Bool.eq_iff_iff]
      simp only [Bool.or_eq_true, decide_eq_true_eq]
      omega

theorem Cell.add_credits (points n : Nat) (c : Cell) (least : -32767 ≤ c.value) (most : c.value ≤ 32767) :
    ((List.replicate n points).filter (· ≠ 0)).foldl (fun c n => c.add n) c =
      { value := min 32767 (c.value + n * points), saturated := c.saturated || decide (32767 < c.value + n * points) } := by
  by_cases zero : points = 0
  · subst zero
    have none_ : ¬ 32767 < c.value := by omega
    simp [Int.min_eq_right most, none_]
  · rw [List.filter_replicate_of_pos (by simpa using zero)]
    exact Cell.add_replicate points n c least most

/-- Settles O35: the end of a refresh poll, and pieces in closed form. -/
theorem goalPollAttributesPieces : Obligations.GoalPollAttributesPieces := by
  unfold Obligations.GoalPollAttributesPieces
  exact ⟨fun s f i r p epoch counter broken awaits op goal => execBusReply_goal awaits op goal epoch counter broken,
    fun p lost n i row => GoalPart.afterPieces_counts lost n i row p, fun c n points => Cell.add_credits points n c⟩

/-- Settles O36: the end of a closing poll, completed or failed. -/
theorem closingPollCapturesTheRecord : Obligations.ClosingPollCapturesTheRecord := by
  unfold Obligations.ClosingPollCapturesTheRecord
  refine ⟨fun s f i r p epoch counter broken awaits op goal => execBusReply_goal awaits op goal epoch counter broken,
    fun s f i r p awaits op goal closing => ?_⟩
  have runs := execReplyTimeout_failed awaits (by rw [op]; exact nofun)
  refine ⟨_, _, runs, State.thenHold_failed _ _ i r, ?_⟩
  rw [op]
  have first := State.failedFirst_handled (s := s.endTransaction) (i := i) (r := r) awaits.2.2.2
  have part : r.afterFailure.part = .goal p := goal
  have acts : s.failureEnded i r (.poll .closing) = ((s.endTransaction.failedFirst i r).endClosing i true).setDue i := by
    simp only [State.failureEnded, goal, State.handFailure, KindPart.kind, State.goalFailed, State.goal_of first.elem_self part, closing, if_true]
  rw [acts]
  obtain ⟨only, others, record, tu, hlp, ebc, _⟩ := (first.endClosing part true (incomplete := true) rfl).pollEnds
  exact ⟨only, others, record, tu, hlp, ebc⟩

/-! ## An acknowledged drive (R12, R143) -/

/-- The record after a completed drive. -/
def ElementRecord.driven (r : ElementRecord) (op : BusOp) : ElementRecord :=
  { r with failures := 0, part := match op, r.part with
      | .motion (.gate _), .gate p => .gate { p with motion := match p.motion with
          | .sent target origin => .travelling target origin 0
          | motion => motion }
      | _, part => part }

theorem State.driveCompleted_handled {s : State} {i : Index} {r : ElementRecord} (stands : s.elem i = some r) (op : BusOp) :
    s.Handled (s.driveCompleted i op) i (r.driven op) [] [] s.tu := by
  have acked := (State.Handled.refl stands).modElem fun r => { r with failures := 0 }
  have still (same : r.driven op = { r with failures := 0 }) : s.Handled (s.modElem i fun r => { r with failures := 0 }) i (r.driven op) [] [] s.tu :=
    acked.congr same.symm rfl rfl rfl
  unfold State.driveCompleted
  cases op with
  | motion m =>
    cases m with
    | carriage speed => exact still rfl
    | gate target =>
      dsimp only
      unfold State.gateDriven
      cases part : r.part with
      | gate p =>
        rw [State.gate_of acked.elem_self part]
        have kept (same : ∀ target origin, p.motion ≠ .sent target origin) : r.driven (.motion (.gate target)) = { r with failures := 0 } := by
          simp only [ElementRecord.driven, part]
        dsimp only
        split
        · next target origin sent =>
          refine (acked.setPart _).congr ?_ rfl rfl rfl
          simp only [ElementRecord.driven, part, sent]
          rfl
        · next idle => exact still (kept fun _ _ sent => by rw [idle] at sent; cases sent)
        · next travels => exact still (kept fun _ _ sent => by rw [travels] at sent; cases sent)
      | _ =>
        have none_ : (s.modElem i fun r => { r with failures := 0 }).gateAt i = none := by
          rw [State.gateAt_eq, acked.elem_self]
          simp [part]
        rw [none_]
        exact still (by simp [ElementRecord.driven, part])
  | _ => exact still rfl

/-- Settles O40: the acknowledged drive ends without a hold or a notice. -/
theorem acknowledgedDriveCompletes : Obligations.AcknowledgedDriveCompletes := by
  unfold Obligations.AcknowledgedDriveCompletes
  intro s f i r epoch awaits drive addressed
  have runs := execBusReply_end awaits addressed (busFrame [f.address, 0x82, epoch])
  rw [checkReply_drive _ _ _ _ ((Entry.isPoll_false _).mp drive) addressed, if_pos ⟨rfl, rfl⟩] at runs
  have done := State.driveCompleted_handled (s := s.endTransaction) (i := i) (r := r) awaits.1.2.2.2 f.entry.op
  refine ⟨_, runs, fun b other => ?_, done.elemsBut, done.ebc, done.elem_self⟩
  have only := done.onlyChanges
  have hlp : (s.endTransaction.driveCompleted i f.entry.op).hlp = s.hlp := done.hlp
  have tu : (s.endTransaction.driveCompleted i f.entry.op).tu = s.tu := done.tu
  cases b
  case hlp => exact hlp
  case tu => exact tu
  case rcc => exact only .rcc (by decide)
  case roster => exact only .roster (by decide)
  case mch => exact only .mch (by decide)
  case now => exact only .now (by decide)
  case pending => exact only .pending (by decide)
  all_goals exact absurd (by decide) other

end Sys2Proof.Machine

/-! Settles O38: the end of a station's poll (R133, R135, R137). -/
namespace Sys2Proof.Machine

/-- A station is trespassed on in a phase: what the trespass test asks for (R135). -/
def ElementRecord.trespasses (q : ElementRecord) (p : StationPart) (phase : Phase) : Bool :=
  p.windowOpen && phase.inMatch && !q.inFault && p.presence == some true && q.claim.holder.isNone && !p.trespassEpisode

namespace State.Handled
variable {s t : State} {i : Index} {r : ElementRecord} {notices : List Notice} {asks : List BusAsk} {tu : Tu}
variable (h : s.Handled t i r notices asks tu) {p : StationPart} (station : r.part = .station p)
include h

theorem faulted : t.faulted i = r.inFault := by simp [State.faulted, h.elem_self]

include station

theorem modStation (f : StationPart → StationPart) : s.Handled (t.modStation i f) i (r.setPart (.station (f p))) notices asks tu := by
  simp only [State.modStation, State.station_of h.elem_self station]
  exact h.setPart _

theorem trespassTest : s.Handled (t.trespassTest i) i
    { r with sticky := { r.sticky with trespass := r.sticky.trespass || r.trespasses p s.mch.phase }
             part := .station { p with trespassEpisode := p.trespassEpisode || r.trespasses p s.mch.phase } }
    (notices ++ if r.trespasses p s.mch.phase then [.element i (.trespass s.mch.phase)] else []) asks tu := by
  have holder : t.holder i = r.claim.holder := by simp [State.holder, h.elem_self]
  have test : (p.windowOpen && t.mch.phase.inMatch && !t.faulted i && p.presence == some true && (t.holder i).isNone
      && !p.trespassEpisode) = r.trespasses p s.mch.phase := by rw [h.faulted, holder, h.mch]; rfl
  unfold State.trespassTest
  rw [State.station_of h.elem_self station]
  dsimp only
  rw [test]
  cases trespass : r.trespasses p s.mch.phase with
  | true =>
    rw [if_pos rfl, if_pos rfl, h.mch]
    refine (((h.setPart (.station { p with trespassEpisode := true })).modSticky fun f => { f with trespass := true }).raiseElement _).congr ?_ rfl rfl rfl
    simp [ElementRecord.setPart]
  | false =>
    rw [if_neg Bool.false_ne_true, if_neg Bool.false_ne_true]
    refine h.congr ?_ (List.append_nil _).symm rfl rfl
    simp only [Bool.or_false, ← station]

theorem resyncStationLamp : s.Handled (t.resyncStationLamp i) i (r.setPart (.station { p with lampResync := false })) notices
    (asks ++ if p.lampResync then [.lamp i p.lit] else []) tu := by
  unfold State.resyncStationLamp
  rw [State.station_of h.elem_self station]
  dsimp only
  cases wanted : p.lampResync with
  | true =>
    rw [if_pos rfl, if_pos rfl]
    exact (h.setPart _).askLamp p.lit
  | false =>
    rw [if_neg Bool.false_ne_true, if_neg Bool.false_ne_true]
    refine h.congr ?_ rfl (List.append_nil _).symm rfl
    rw [ElementRecord.setPart, ← wanted, ← station]

/-- The end of a station's poll, as its handler takes it. -/
theorem stationPolled (occupied restarted : Bool) (sound : r.inFault = false) :
    let trespass : Bool := occupied && p.windowOpen && s.mch.phase.inMatch && r.claim.holder.isNone && !p.trespassEpisode
    s.Handled (t.stationPolled i occupied restarted) i
      { r with sticky := { r.sticky with trespass := r.sticky.trespass || trespass }
               part := .station { p with presence := some occupied, trespassEpisode := occupied && (p.trespassEpisode || trespass), lampResync := false } }
      (notices ++ if trespass then [.element i (.trespass s.mch.phase)] else [])
      (asks ++ if p.lampResync || restarted then [.lamp i p.lit] else []) tu := by
  intro trespass
  have fault : t.faulted i = false := h.faulted.trans sound
  have seen := h.modStation station fun p => { p with presence := some occupied
                                                      trespassEpisode := p.trespassEpisode && occupied
                                                      lampResync := p.lampResync || restarted }
  have tests := (seen.trespassTest rfl).resyncStationLamp rfl
  simp only [State.stationPolled, fault, Bool.or_false]
  have same : (r.setPart (.station { p with presence := some occupied, trespassEpisode := p.trespassEpisode && occupied,
                                            lampResync := p.lampResync || restarted })).trespasses
      { p with presence := some occupied, trespassEpisode := p.trespassEpisode && occupied, lampResync := p.lampResync || restarted }
      s.mch.phase = trespass := by
    have unfaulted (part : KindPart) : (r.setPart part).inFault = false := sound
    simp only [ElementRecord.trespasses, unfaulted, trespass]
    cases occupied <;> simp [ElementRecord.setPart, Bool.and_comm, Bool.and_left_comm]
  rw [same] at tests
  refine tests.congr ?_ rfl rfl rfl
  have episode : (p.trespassEpisode && occupied || trespass) = (occupied && (p.trespassEpisode || trespass)) := by
    cases occupied <;> simp [trespass]
  simp only [ElementRecord.setPart, episode]

end State.Handled

theorem readingOf_station (occupied : Bool) : readingOf .station [if occupied then 1 else 0] = some (.station occupied) := by
  cases occupied <;> rfl

theorem State.lampAsked_pollEnded {s u : State} {i : Index} {pollPeriod : Nat} {lit : Bool}
    (bus : u.ebc = s.pollEnded i pollPeriod [.lamp i lit]) : u.lampAsked i lit := by
  have sched : (u.sched i).lampSync = ((s.endTransaction.askLamp i lit).sched i).lampSync := by
    rw [State.sched, bus, State.pollEnded]
    dsimp only
    rw [getElem_set_fin, if_pos rfl]
    rfl
  have queue : u.ebc.queue = (s.endTransaction.askLamp i lit).ebc.queue := by rw [bus]; rfl
  have asked := s.endTransaction.askLamp_asked i lit
  unfold State.lampAsked State.queued at asked ⊢
  rw [sched, queue]
  exact asked

section
variable {s : State} {f : InFlight} {i : Index} {r : ElementRecord} {p : StationPart} {role : PollRole}

theorem State.stationPoll_handled (stands : s.elem i = some r) (station : r.part = .station p) (role : PollRole) (epoch : Byte) (occupied : Bool) :
    let trespass : Bool := occupied && p.windowOpen && s.mch.phase.inMatch && r.claim.holder.isNone && !p.trespassEpisode
    let record := r.afterPoll epoch (.station occupied) false
    s.endTransaction.Handled ((s.endTransaction.polledFirst i r epoch (.station occupied)).handReading i role (.station occupied)
        (pieceDelta r.reading (.station occupied) (r.restartedBy epoch)) (r.restartedBy epoch)) i
      { record with sticky := { record.sticky with trespass := r.sticky.trespass || trespass }
                    part := .station { p with presence := some occupied, trespassEpisode := occupied && (p.trespassEpisode || trespass),
                                              lampResync := false } }
      (pollNotices i r epoch false ++ if trespass then [.element i (.trespass s.mch.phase)] else [])
      (if p.lampResync || r.restartedBy epoch then [.lamp i p.lit] else []) s.tu :=
  (State.polledFirst_handled (s := s.endTransaction) stands epoch (.station occupied)).stationPolled (p := p) station occupied (r.restartedBy epoch) rfl

/-- Settles O38: the handler's end, then the refresh schedule; a station's reading shows no fault, so no hold is asked for. -/
theorem stationPollSetsPresence : Obligations.StationPollSetsPresence := by
  unfold Obligations.StationPollSetsPresence
  intro s f i r p role epoch occupied awaits op station trespass
  have reads : readingOf r.part.kind [if occupied then 1 else 0] = some (.station occupied) := by
    rw [station]
    exact readingOf_station occupied
  obtain ⟨only, others, record, tu, hlp, ebc, _⟩ := (State.stationPoll_handled awaits.1.2.2.2 station role epoch occupied).pollEnds
  obtain ⟨t, ended⟩ : ∃ t, t = ((s.endTransaction.polledFirst i r epoch (.station occupied)).handReading i role (.station occupied)
    (pieceDelta r.reading (.station occupied) (r.restartedBy epoch)) (r.restartedBy epoch)).setDue i := ⟨_, rfl⟩
  have runs := execBusReply_polled awaits op reads (epoch := epoch)
  rw [← ended] at runs only others record tu hlp ebc
  have none_ := (State.thenHold_polled s t i r epoch (.station occupied) rfl).2 nofun
  rw [none_] at runs
  rw [ElementRecord.restartedBy_eq] at ebc
  refine ⟨t, runs, fun b other => ?_, others, record, hlp, ebc, fun wanted => ?_⟩
  · by_cases tally : b = .tu
    · rw [tally]
      exact tu
    · exact only b (by simp_all)
  · have resync : (p.lampResync || (r.epoch.isSome && r.epoch != some epoch)) = true := by
      rcases wanted with lamp | ⟨stored, had, other⟩
      · rw [lamp, Bool.true_or]
      · simp [had, other]
    rw [resync, if_pos rfl] at ebc
    exact State.lampAsked_pollEnded ebc

end

end Sys2Proof.Machine

/-! Settles O37: the ends of a gate's motion (R140, R143, R144). -/
namespace Sys2Proof.Machine

/-! ## The outcome of a motion goes to its origin (R143, R144) -/

/-- The origin of a motion is told its outcome. -/
def State.tellOrigin (s : State) (i : Index) (origin : Origin) (code : Answer) (detail : Option Nat) (notice : ElementNotice) : State :=
  match origin with
  | .robot k number => s.answerLater k i number code detail
  | .host _ => s.raiseElement i notice
  | .internal => s

/-- The notice of an outcome, when the host asked for the motion. -/
def Origin.notices (origin : Origin) (i : Index) (notice : ElementNotice) : List Notice :=
  match origin with
  | .host _ => [.element i notice]
  | .robot _ _ => []
  | .internal => []

theorem State.gateDone_eq (s : State) (i : Index) (target : GateTarget) (origin : Origin) (position : Option GatePosition) :
    s.gateDone i target origin position = (s.gateIdle i).tellOrigin i origin .done none (.gateDone target position) := by
  cases origin <;> rfl

theorem State.gateFails_eq (s : State) (i : Index) (target : GateTarget) (origin : Origin) (position : Option GatePosition) (cause : GateFailure) :
    s.gateFails i target origin position cause
      = (s.gateIdle i).tellOrigin i origin .failed (some cause.detail) (.gateFailed target position cause) := by
  cases origin <;> rfl

section
variable (s : State) (i : Index) (origin : Origin) (code : Answer) (detail : Option Nat) (notice : ElementNotice)

theorem State.tellOrigin_frame : s.onlyChanges (s.tellOrigin i origin code detail notice) [.hlp, .roster] :=
  fun b other => by cases b <;> cases origin <;> simp_all [State.sameBlock, State.tellOrigin]

theorem State.tellOrigin_hlp : (s.tellOrigin i origin code detail notice).hlp = s.hlp.raiseAll (origin.notices i notice) := by
  cases origin with
  | robot k number => simp [State.tellOrigin, Origin.notices]
  | _ => rfl

end

theorem State.robotsBut_answerLater (s : State) (k : Slot) (i : Index) (number : BitVec 4) (code : Answer) (detail : Option Nat) :
    s.robotsBut (s.answerLater k i number code detail) k := by
  refine ⟨fun j other => (s.robot_answerLater k j i number code detail).trans (if_neg other), ?_, ?_⟩
  all_goals
    unfold State.answerLater State.answerNow State.modRobot
    (repeat' split) <;> rfl

theorem State.robot_answerLater_self (s : State) (k : Slot) (i : Index) (number : BitVec 4) (code : Answer) (detail : Option Nat) :
    (s.answerLater k i number code detail).robot k = s.robotAnswered k i number code detail := by
  rw [State.robot_answerLater, if_pos rfl, State.robotAnswered_eq]

/-- What `State.outcomeTold` says of a state whose robots and notices stand as after the telling. -/
theorem State.outcomeTold_of {s u t : State} {i : Index} {origin : Origin} {before : List Notice} {code : Answer} {detail : Option Nat}
    {notice : ElementNotice} (roster : u.roster = s.roster) (hlp : u.hlp = s.hlp.raiseAll before)
    (roster' : t.roster = (u.tellOrigin i origin code detail notice).roster) (hlp' : t.hlp = (u.tellOrigin i origin code detail notice).hlp) :
    s.outcomeTold t i origin before code detail notice := by
  rw [State.tellOrigin_hlp, hlp, ← Hlp.raiseAll_append] at hlp'
  cases origin with
  | robot k number =>
    obtain ⟨others, silence, drop⟩ := u.robotsBut_answerLater k i number code detail
    have same (j : Slot) : t.robot j = (u.answerLater k i number code detail).robot j := congrFun (State.robot_of_roster roster') j
    refine ⟨⟨fun j other => ?_, ?_, ?_⟩, ?_, ?_⟩
    · rw [same, others j other, State.robot_of_roster roster]
    · rw [roster', ← roster]
      exact silence
    · rw [roster', ← roster]
      exact drop
    · rw [same, State.robot_answerLater_self, State.robotAnswered, State.robot_of_roster roster]
      rfl
    · rw [hlp', Origin.notices, List.append_nil]
  | host tag => exact ⟨roster'.trans roster, hlp'⟩
  | internal => exact ⟨roster'.trans roster, by rw [hlp', Origin.notices, List.append_nil]⟩

theorem State.Handled.setGate {s t : State} {i : Index} {r : ElementRecord} {notices : List Notice} {asks : List BusAsk} {tu : Tu}
    (h : s.Handled t i r notices asks tu) (p : GatePart) : s.Handled (t.setGate i p) i (r.setPart (.gate p)) notices asks tu := h.setPart _

theorem State.Handled.gateIdle {s t : State} {i : Index} {r : ElementRecord} {notices : List Notice} {asks : List BusAsk} {tu : Tu}
    (h : s.Handled t i r notices asks tu) {p : GatePart} (gate : r.part = .gate p) :
    s.Handled (t.gateIdle i) i (r.setPart (.gate { p with motion := .idle })) notices asks tu := by
  unfold State.gateIdle
  rw [State.gate_of h.elem_self gate]
  exact h.setPart _

/-! ## A completed poll of a gate (R140, R144) -/

/-- The failure that a position other than the one wanted means for a travelling motion. -/
def GatePosition.failure : GatePosition → Option GateFailure
  | .jammed => some .jammed
  | .stopped => some .stopped
  | .closed | .opened | .moving => none

/-- The end that a position means for a travelling motion: done, or a failure. -/
def GatePosition.ends (position : GatePosition) (target : GateTarget) : Option (Answer × Option Nat × ElementNotice) :=
  if position.atTarget target then some (.done, none, .gateDone target (some position))
  else position.failure.map fun cause => (.failed, some cause.detail, .gateFailed target (some position) cause)

/-- The motion after a completed poll, and the outcome that is told. -/
def GateMotion.polled (motion : GateMotion) (position : GatePosition) : GateMotion × Option (Origin × Answer × Option Nat × ElementNotice) :=
  match motion with
  | .travelling target origin _ => match position.ends target with
    | some outcome => (.idle, some (origin, outcome))
    | none => (motion, none)
  | _ => (motion, none)

/-- The outcome told, when there is one. -/
def State.tellOutcome (s : State) (i : Index) : Option (Origin × Answer × Option Nat × ElementNotice) → State
  | some (origin, code, detail, notice) => s.tellOrigin i origin code detail notice
  | none => s

theorem State.tellOutcome_frame (s : State) (i : Index) (o : Option (Origin × Answer × Option Nat × ElementNotice)) :
    s.onlyChanges (s.tellOutcome i o) [.hlp, .roster] := by
  cases o with
  | none => exact fun b _ => by cases b <;> rfl
  | some o => exact s.tellOrigin_frame i _ _ _ _

theorem State.gatePolled_eq {s : State} {i : Index} {p : GatePart} (gate : s.gateAt i = some p) (position : GatePosition) :
    s.gatePolled i position = match p.motion with
      | .travelling target origin _ =>
        if position.atTarget target then (s.setGate i { p with position := some position }).gateDone i target origin (some position)
        else match position with
          | .jammed => (s.setGate i { p with position := some position }).gateFails i target origin (some position) .jammed
          | .stopped => (s.setGate i { p with position := some position }).gateFails i target origin (some position) .stopped
          | .closed | .opened | .moving => s.setGate i { p with position := some position }
      | .idle | .sent _ _ => s.setGate i { p with position := some position } := by
  unfold State.gatePolled
  rw [gate] <;> rfl

/-- Three cases of a travelling motion: the position wanted, a position that fails the motion, another. -/
theorem State.gatePolled_tells {s : State} {i : Index} {p : GatePart} (gate : s.gateAt i = some p) (position : GatePosition) :
    s.gatePolled i position
      = (if (p.motion.polled position).2.isSome then (s.setGate i { p with position := some position }).gateIdle i
          else s.setGate i { p with position := some position }).tellOutcome i (p.motion.polled position).2 := by
  rw [State.gatePolled_eq gate]
  cases motion : p.motion with
  | idle => rfl
  | sent target origin => rfl
  | travelling target origin elapsed =>
    cases reached : position.atTarget target with
    | true =>
      have ends : position.ends target = some (.done, none, .gateDone target (some position)) := if_pos reached
      simp only [GateMotion.polled, ends, reached, ↓reduceIte, Option.isSome_some, State.tellOutcome, State.gateDone_eq]
    | false =>
      have ends : position.ends target = position.failure.map fun cause => (.failed, some cause.detail, .gateFailed target (some position) cause) :=
        if_neg (Bool.eq_false_iff.mp reached)
      cases position <;> simp [GateMotion.polled, ends, reached, State.tellOutcome, State.gateFails_eq, GatePosition.failure]

/-- A motion is told to have ended exactly when it is idle afterwards and was not before. -/
theorem GateMotion.polled_fst (motion : GateMotion) (position : GatePosition) :
    (motion.polled position).1 = if (motion.polled position).2.isSome then .idle else motion := by
  cases motion with
  | travelling target origin elapsed =>
    cases ends : position.ends target <;> simp [GateMotion.polled, ends]
  | _ => rfl

theorem State.gatePolled_handled {s t : State} {i : Index} {r : ElementRecord} {notices : List Notice} {asks : List BusAsk} {tu : Tu}
    (h : s.Handled t i r notices asks tu) {p : GatePart} (gate : r.part = .gate p) (position : GatePosition) :
    ∃ u, s.Handled u i (r.setPart (.gate { p with position := some position, motion := (p.motion.polled position).1 })) notices asks tu
      ∧ t.gatePolled i position = u.tellOutcome i (p.motion.polled position).2 := by
  have seen := h.setGate { p with position := some position }
  refine ⟨_, ?_, State.gatePolled_tells (State.gate_of h.elem_self gate) position⟩
  rw [GateMotion.polled_fst]
  split
  · exact seen.gateIdle rfl
  · exact seen

/-- What a handler that told the robots and the host leaves after the refresh schedule took its end. -/
theorem State.Handled.pollEnds_told {s u v : State} {i : Index} {q : ElementRecord} {notices : List Notice} {asks : List BusAsk} {tu : Tu}
    (h : s.endTransaction.Handled u i q notices asks tu) (told : u.onlyChanges v [.hlp, .roster]) :
    s.onlyChanges (v.setDue i) [.hlp, .roster, .elems, .ebc, .tu] ∧ s.elemsBut (v.setDue i) i ∧ (v.setDue i).elem i = some q ∧ (v.setDue i).tu = tu
      ∧ (v.setDue i).hlp = v.hlp ∧ (v.setDue i).ebc = s.pollEnded i q.pollPeriod asks ∧ (v.setDue i).roster = v.roster := by
  have elems : v.elems = u.elems := told .elems (by simp)
  have elem (j : Index) : v.elem j = u.elem j := congrFun (State.elem_of_elems elems) j
  have ended (j : Index) : (v.setDue i).elem j = u.elem j := (State.elem_congr (by simp) j).trans (elem j)
  have clock : v.now = s.now := (told .now (by simp)).trans h.now
  have bus : v.ebc = s.endedOnBus asks := (told .ebc (by simp)).trans h.ebc
  have tally : v.tu = u.tu := told .tu (by simp)
  refine ⟨fun b other => ?_, fun j other => (ended j).trans (h.elemsBut j other), (ended i).trans h.elem_self, by simp [tally, h.tu], by simp,
    State.setDue_ebc ((elem i).trans h.elem_self) bus clock, by simp⟩
  have kept := h.onlyChanges b
  have kept' := told b
  cases b <;> simp_all [State.sameBlock]

section
variable {s : State} {f : InFlight} {i : Index} {r : ElementRecord} {p : GatePart} {role : PollRole}

/-- The record of a gate after a completed poll. -/
def ElementRecord.gatePolled (r : ElementRecord) (p : GatePart) (epoch : Byte) (position : GatePosition) : ElementRecord :=
  (r.afterPoll epoch (.gate position) false).setPart (.gate { p with position := some position, motion := (p.motion.polled position).1 })

theorem readingOf_gate (position : GatePosition) : readingOf .gate [position.code] = some (.gate position) := by
  cases position <;> rfl

/-- A completed poll of a gate runs to the refresh schedule's end of a state in which the outcome, if any, is told. -/
theorem execBusReply_gate (awaits : s.awaitsReply f i r) (op : f.entry.op = .poll role) (gate : r.part = .gate p) (epoch : Byte)
    (position : GatePosition) : ∃ u, s.endTransaction.Handled u i (r.gatePolled p epoch position) (pollNotices i r epoch false) [] s.tu
      ∧ exec (.busReply (busFrame [f.address, 0x81, epoch, position.code])) s
        = .next ((u.tellOutcome i (p.motion.polled position).2).setDue i) := by
  have reads : readingOf r.part.kind [position.code] = some (.gate position) := by
    rw [gate]
    exact readingOf_gate position
  have first := State.polledFirst_handled (s := s.endTransaction) awaits.1.2.2.2 epoch (.gate position)
  obtain ⟨u, handled, tells⟩ := State.gatePolled_handled first (p := p) gate position
  refine ⟨u, handled, ?_⟩
  have runs := execBusReply_polled awaits op reads (epoch := epoch)
  have none_ (t : State) := (State.thenHold_polled s t i r epoch (.gate position) rfl).2 nofun
  rw [none_] at runs
  rw [← tells]
  exact runs

theorem GatePosition.atTarget_iff (position : GatePosition) (target : GateTarget) :
    position.atTarget target = true ↔ (target = .opening ∧ position = .opened) ∨ (target = .closing ∧ position = .closed) := by
  cases position <;> cases target <;> decide

/-- The travel limit fails the motion. -/
theorem execGateTravelLimit_spec (gate : s.gateAt i = some p) {target : GateTarget} {origin : Origin} {elapsed : Nat}
    (travels : p.motion = .travelling target origin elapsed) :
    ∃ t, exec (.gateTravelLimit i) s = .next t ∧ s.onlyChanges t [.hlp, .roster, .elems] ∧ s.elemsBut t i
      ∧ t.elem i = (s.elem i).map (fun r => { r with part := .gate { p with motion := .idle } })
      ∧ s.outcomeTold t i origin [] .failed (some 3) (.gateFailed target p.position .timeout) := by
  obtain ⟨r, stands, part⟩ : ∃ r, s.elem i = some r ∧ r.part = .gate p := State.gate_some gate
  have idle := (State.Handled.refl stands).gateIdle part
  have runs : exec (.gateTravelLimit i) s = .next ((s.gateIdle i).tellOrigin i origin .failed (some 3) (.gateFailed target p.position .timeout)) := by
    refine congrArg Host.Outcome.next ?_
    rw [gate]
    dsimp only
    rw [travels]
    exact s.gateFails_eq i target origin p.position .timeout
  have frame := (s.gateIdle i).tellOrigin_frame i origin .failed (some 3) (.gateFailed target p.position .timeout)
  have elem (j : Index) := congrFun (State.elem_of_elems (frame .elems (by simp))) j
  refine ⟨_, runs, fun b other => ?_, fun j other => (elem j).trans (idle.elemsBut j other), ?_, ?_⟩
  · have kept := frame b
    have kept' := idle.onlyChanges b
    cases b <;> simp_all [State.sameBlock]
  · rw [elem, idle.elem_self, stands]
    rfl
  · exact State.outcomeTold_of idle.roster idle.hlp rfl rfl

/-- Settles O37: the end that the position means, then the travel limit. -/
theorem gateMotionEnds : Obligations.GateMotionEnds := by
  unfold Obligations.GateMotionEnds
  refine ⟨?_, fun s i p target origin elapsed gate travels => execGateTravelLimit_spec gate travels⟩
  intro s f i r p role epoch code position awaits op gate coded before seen
  subst coded
  obtain ⟨u, handled, runs⟩ := execBusReply_gate awaits op gate epoch position
  obtain ⟨only, others, record, tu, hlp, ebc, roster⟩ := handled.pollEnds_told (u.tellOutcome_frame i (p.motion.polled position).2)
  refine ⟨_, runs, fun b other => ?_, others, ebc, ?_⟩
  · by_cases tally : b = .tu
    · rw [tally]
      exact tu
    · exact only b (by simp_all)
  have part := State.gate_of record rfl
  obtain ⟨t, ended⟩ : ∃ t, t = (u.tellOutcome i (p.motion.polled position).2).setDue i := ⟨_, rfl⟩
  rw [← ended] at part hlp roster ⊢
  have told {motion : GateMotion} {origin : Origin} {code : Answer} {detail : Option Nat} {notice : ElementNotice}
      (polled : p.motion.polled position = (motion, some (origin, code, detail, notice))) :
      t.gateAt i = some (seen motion) ∧ s.outcomeTold t i origin before code detail notice := by
    rw [polled] at part hlp roster
    exact ⟨part, State.outcomeTold_of handled.roster handled.hlp roster hlp⟩
  have kept {motion : GateMotion} (polled : p.motion.polled position = (motion, none)) :
      t.gateAt i = some (seen motion) ∧ t.roster = s.roster ∧ t.hlp = s.hlp.raiseAll before := by
    rw [polled] at part hlp roster
    exact ⟨part, roster.trans handled.roster, hlp.trans handled.hlp⟩
  cases motion : p.motion with
  | idle => exact kept (by rw [motion]; rfl)
  | sent target origin => exact kept (by rw [motion]; rfl)
  | travelling target origin elapsed =>
    rw [motion] at told kept
    have reach := position.atTarget_iff target
    dsimp only
    by_cases reached : (target = .opening ∧ position = .opened) ∨ (target = .closing ∧ position = .closed)
    · rw [if_pos reached]
      exact told (by simp [GateMotion.polled, GatePosition.ends, reach.mpr reached])
    · have off : ¬ position.atTarget target = true := fun at_ => reached (reach.mp at_)
      rw [if_neg reached]
      cases position with
      | jammed => exact told (by rw [GateMotion.polled, GatePosition.ends, if_neg off]; rfl)
      | stopped => exact told (by rw [GateMotion.polled, GatePosition.ends, if_neg off]; rfl)
      | _ => exact kept (by rw [GateMotion.polled, GatePosition.ends, if_neg off]; rfl)

end

end Sys2Proof.Machine

/-! Settles O39: a completed poll of a carriage moves it (R149, R150). -/
namespace Sys2Proof.Machine

/-! ## The operations of the carriage handler, in the bookkeeping of handlers -/

namespace State.Handled
variable {s t : State} {i : Index} {r : ElementRecord} {notices : List Notice} {asks : List BusAsk} {tu : Tu}
variable (h : s.Handled t i r notices asks tu) {p : CarriagePart}
include h

theorem setCarriage (q : CarriagePart) : s.Handled (t.setCarriage i q) i (r.setPart (.carriage q)) notices asks tu := h.setPart _

theorem driveCarriage (q : CarriagePart) :
    s.Handled (t.driveCarriage i q) i (r.setPart (.carriage q)) notices (asks ++ [.speed i q.commanded]) tu :=
  (h.setCarriage q).askCarriage q.commanded

variable (carriage : r.part = .carriage p)
include carriage

theorem wantSpeed_if (wanted : Bool) : s.Handled (if wanted then t.wantSpeed i else t) i
    (r.setPart (.carriage { p with speedResync := p.speedResync || wanted })) notices asks tu := by
  cases wanted with
  | true =>
    simp only [if_pos, State.wantSpeed, State.carriage_of h.elem_self carriage, Bool.or_true]
    exact h.setCarriage _
  | false =>
    refine h.congr ?_ rfl rfl rfl
    rw [ElementRecord.setPart, Bool.or_false, ← carriage]

theorem carriageFault_stops (cause : CarriageStop) (stoppable : p.runState = .running ∨ p.runState = .halted) : s.Handled (t.carriageFault i cause) i
    (r.setPart (.carriage (p.stand .stopped))) (notices ++ [.element i (.carriageStopped cause)]) (asks ++ [.speed i 0]) tu := by
  simp only [State.carriageFault, State.carriage_of h.elem_self carriage]
  rw [if_pos stoppable]
  exact (h.driveCarriage (p.stand .stopped)).raiseElement _

theorem carriageFault_still (cause : CarriageStop) (still : ¬ (p.runState = .running ∨ p.runState = .halted)) : s.Handled (t.carriageFault i cause) i r notices asks tu := by
  simp only [State.carriageFault, State.carriage_of h.elem_self carriage]
  rw [if_neg still]
  exact h

/-- The speed that is wanted again is driven, unless the carriage is HALTED. -/
theorem resyncCarriage : s.Handled (t.resyncCarriage i) i (r.setPart (.carriage { p with speedResync := false })) notices
    (asks ++ if p.speedResync && p.runState != .halted then [.speed i p.commanded] else []) tu := by
  simp only [State.resyncCarriage, State.carriage_of h.elem_self carriage]
  cases wanted : p.speedResync with
  | false =>
    refine h.congr ?_ rfl (List.append_nil _).symm rfl
    rw [ElementRecord.setPart, ← wanted, ← carriage]
  | true =>
    by_cases halted : p.runState = .halted
    · rw [if_pos rfl, if_pos halted, halted]
      exact (h.setCarriage _).congr rfl rfl (List.append_nil _).symm rfl
    · rw [if_pos rfl, if_neg halted, if_pos (by simp [halted])]
      exact h.driveCarriage _

/-! ### A RUNNING carriage at a completed poll: the end rule, a new zone, or nothing (R149) -/

omit carriage
variable {zone : Fin 8} {front rear : Bool}

theorem carriageStep_parks (ended : p.atEnd front rear = true) (parks : p.homing = true ∨ p.endMode = .stop) :
    s.Handled (t.carriageStep i p zone front rear) i (r.setPart (.carriage (p.stand .parked)))
      (notices ++ [.element i (.parked (p.direction == .forward))]) (asks ++ [.speed i 0]) tu := by
  rw [State.carriageStep, if_pos ended, if_pos parks]
  exact (h.driveCarriage _).raiseElement _

theorem carriageStep_turns (ended : p.atEnd front rear = true) (turns : ¬ (p.homing = true ∨ p.endMode = .stop)) {q : CarriagePart}
    (turned : q = CarriagePart.runIn { p with direction := p.direction.turn } zone) :
    s.Handled (t.carriageStep i p zone front rear) i (r.setPart (.carriage q)) notices (asks ++ [.speed i q.commanded]) tu := by
  rw [State.carriageStep, if_pos ended, if_neg turns, turned]
  exact h.driveCarriage _

theorem carriageStep_enters (ended : ¬ p.atEnd front rear = true) (entered : p.speedZone ≠ some zone) :
    s.Handled (t.carriageStep i p zone front rear) i (r.setPart (.carriage (p.runIn zone))) notices (asks ++ [.speed i (p.zoneSpeed zone)]) tu := by
  rw [State.carriageStep, if_neg ended, if_neg entered]
  exact h.driveCarriage _

theorem carriageStep_stays (ended : ¬ p.atEnd front rear = true) (same : p.speedZone = some zone) :
    s.Handled (t.carriageStep i p zone front rear) i r notices asks tu := by
  rw [State.carriageStep, if_neg ended, if_pos same]
  exact h

end State.Handled

/-! ## The reading of a carriage (Table 11-8) -/

theorem readingOf_carriage (zone : Fin 8) (status speed : Byte) : readingOf .carriage [byteOf zone.val, status, speed] =
    if status.toNat ≤ 7 ∧ -100 ≤ speed.toInt ∧ speed.toInt ≤ 100 then
      some (.carriage zone (status.getLsbD 0) (status.getLsbD 1) (status.getLsbD 2) speed.toInt)
    else none := by
  have code : (byteOf zone.val).toNat = zone.val := by
    have := zone.isLt
    simp only [byteOf, BitVec.toNat_ofNat]
    omega
  have inside : (byteOf zone.val).toNat < 8 := lt_of_eq_of_lt code zone.isLt
  have same : (⟨(byteOf zone.val).toNat, inside⟩ : Fin 8) = zone := Fin.ext code
  rw [readingOf, carriageReadingOf, dif_pos inside, same]
  simp only [Nat.lt_succ_iff]

/-- The status byte of a carriage. -/
theorem carriageStatus_bits (front rear encoder : Bool) :
    (byteOf (front.toNat + 2 * rear.toNat + 4 * encoder.toNat)).toNat ≤ 7
      ∧ (byteOf (front.toNat + 2 * rear.toNat + 4 * encoder.toNat)).getLsbD 0 = front
      ∧ (byteOf (front.toNat + 2 * rear.toNat + 4 * encoder.toNat)).getLsbD 1 = rear
      ∧ (byteOf (front.toNat + 2 * rear.toNat + 4 * encoder.toNat)).getLsbD 2 = encoder := by
  revert front rear encoder
  decide

section
variable {s t : State} {f : InFlight} {i : Index} {r : ElementRecord} {p : CarriagePart} {role : PollRole} {epoch speed : Byte} {zone : Fin 8}
  {front rear encoder : Bool}

/-- The state in which the carriage handler takes a completed poll. -/
def State.carriageSeen (s : State) (i : Index) (r : ElementRecord) (epoch : Byte) (reading : Reading) : State :=
  if r.restartedBy epoch then (s.endTransaction.polledFirst i r epoch reading).wantSpeed i else s.endTransaction.polledFirst i r epoch reading

theorem State.carriageSeen_handled (stands : s.elem i = some r) (carriage : r.part = .carriage p) (reading : Reading) :
    s.endTransaction.Handled (s.carriageSeen i r epoch reading) i
      ((r.afterPoll epoch reading reading.sensorFault).setPart (.carriage { p with speedResync := p.speedResync || r.restartedBy epoch }))
      (pollNotices i r epoch reading.sensorFault) [] s.tu :=
  (State.polledFirst_handled (s := s.endTransaction) stands epoch reading).wantSpeed_if carriage _

/-- The state that the carriage handler makes of a completed poll. -/
def State.carriageMoved (s : State) (i : Index) (r : ElementRecord) (epoch : Byte) (zone : Fin 8) (front rear encoder : Bool) (speed : Int) : State :=
  (s.endTransaction.polledFirst i r epoch (.carriage zone front rear encoder speed)).carriagePolled i zone front rear encoder (r.restartedBy epoch)

theorem State.carriageMoved_fault (x : Int) : s.carriageMoved i r epoch zone front rear true x
    = (s.carriageSeen i r epoch (.carriage zone front rear true x)).carriageFault i .encoder := rfl

theorem State.carriageMoved_sound (stands : s.elem i = some r) (carriage : r.part = .carriage p) (x : Int) :
    s.carriageMoved i r epoch zone front rear false x
      = (if p.runState = .running then (s.carriageSeen i r epoch (.carriage zone front rear false x)).carriageStep i
            { p with speedResync := p.speedResync || r.restartedBy epoch } zone front rear
          else s.carriageSeen i r epoch (.carriage zone front rear false x)).resyncCarriage i := by
  have seen := State.carriageSeen_handled (epoch := epoch) stands carriage (.carriage zone front rear false x)
  have part := State.carriage_of seen.elem_self rfl
  unfold State.carriageMoved State.carriagePolled
  unfold State.carriageSeen at part ⊢
  rw [if_neg Bool.false_ne_true, part]

/-- A completed poll of a carriage runs the handler, the refresh schedule, and last the hold it asks for. -/
theorem execBusReply_carriage (awaits : s.awaitsReply f i r) (op : f.entry.op = .poll role) (carriage : r.part = .carriage p)
    (least : -100 ≤ speed.toInt) (most : speed.toInt ≤ 100) {q : CarriagePart} {notices : List Notice} {asks : List BusAsk}
    (handled : s.endTransaction.Handled (s.carriageMoved i r epoch zone front rear encoder speed.toInt) i
      ((r.afterPoll epoch (.carriage zone front rear encoder speed.toInt) encoder).setPart (.carriage q)) notices asks s.tu) :
    ∃ t u, exec (.busReply (busFrame [f.address, 0x81, epoch, byteOf zone.val, byteOf (front.toNat + 2 * rear.toNat + 4 * encoder.toNat), speed])) s = .next t
      ∧ u.thenHold t i (encoder = true ∧ (r.state = .probing ∨ r.state = .online) ∧ r.faultHolds = true ∧ s.mch.phase.inMatch = true)
      ∧ s.onlyChanges u [.hlp, .elems, .ebc] ∧ s.elemsBut u i
      ∧ u.elem i = some { r.afterPoll epoch (.carriage zone front rear encoder speed.toInt) encoder with part := .carriage q }
      ∧ u.ebc = s.pollEnded i r.pollPeriod asks ∧ u.hlp = s.hlp.raiseAll notices := by
  obtain ⟨small, bit0, bit1, bit2⟩ := carriageStatus_bits front rear encoder
  have reads : readingOf r.part.kind [byteOf zone.val, byteOf (front.toNat + 2 * rear.toNat + 4 * encoder.toNat), speed]
      = some (.carriage zone front rear encoder speed.toInt) := by
    rw [carriage]
    refine (readingOf_carriage zone _ speed).trans ?_
    rw [if_pos ⟨small, least, most⟩, bit0, bit1, bit2]
  obtain ⟨only, others, record, tu, hlp, ebc, _⟩ := handled.pollEnds
  refine ⟨_, (s.carriageMoved i r epoch zone front rear encoder speed.toInt).setDue i, execBusReply_polled awaits op reads,
    State.thenHold_polled s _ i r epoch (.carriage zone front rear encoder speed.toInt) rfl, fun b other => ?_, others, record, ebc, hlp⟩
  by_cases tally : b = .tu
  · rw [tally]
    exact tu
  · exact only b (by simp_all)

/-- Settles O39: the faults, then the four ways of a RUNNING carriage, and last one that does not run. -/
theorem carriagePollMovesTheCarriage : Obligations.CarriagePollMovesTheCarriage := by
  unfold Obligations.CarriagePollMovesTheCarriage
  intro s f i r p role epoch speed zone front rear encoder awaits op carriage least most asksHold status before wanted signed ended turned
  have stands : s.elem i = some r := awaits.1.2.2.2
  have want : (p.speedResync || r.restartedBy epoch) = wanted := congrArg (p.speedResync || ·) (r.restartedBy_eq epoch)
  have seen := State.carriageSeen_handled (epoch := epoch) stands carriage (.carriage zone front rear encoder speed.toInt)
  rw [want] at seen
  have closes {q : CarriagePart} {notices : List Notice} {asks : List BusAsk} := execBusReply_carriage (epoch := epoch) (zone := zone) (front := front)
    (rear := rear) (encoder := encoder) (q := q) (notices := notices) (asks := asks) awaits op carriage least most
  cases encoder with
  | true =>
    rw [State.carriageMoved_fault] at closes
    by_cases moves : p.runState = .running ∨ p.runState = .halted
    · obtain ⟨t, u, runs, hold, only, others, record, ebc, hlp⟩ := closes (seen.carriageFault_stops rfl .encoder moves)
      refine ⟨t, u, _, _, runs, hold, only, others, record, ebc, ?_⟩
      rw [if_pos rfl, if_pos moves]
      exact ⟨rfl, rfl, hlp⟩
    · obtain ⟨t, u, runs, hold, only, others, record, ebc, hlp⟩ := closes (seen.carriageFault_still rfl .encoder moves)
      refine ⟨t, u, _, _, runs, hold, only, others, record, ebc, ?_⟩
      rw [if_pos rfl, if_neg moves]
      exact ⟨rfl, rfl, hlp⟩
  | false =>
    rw [State.carriageMoved_sound stands carriage, want] at closes
    by_cases running : p.runState = .running
    · rw [if_pos running] at closes
      have again (x : Int) : (if wanted && RunState.running != .halted then [BusAsk.speed i x] else [])
          = if wanted && p.runState != .halted then [BusAsk.speed i x] else [] := by rw [running]
      have atEnd : ({ p with speedResync := wanted } : CarriagePart).atEnd front rear = ended := rfl
      have signed_eq (d : Direction) : signed d = ({ p with direction := d } : CarriagePart).zoneSpeed zone := by cases d <;> rfl
      have runs_in (d : Direction) : ({ CarriagePart.runIn { p with direction := d, speedResync := wanted } zone with speedResync := false } : CarriagePart)
          = { p with direction := d, speedZone := some zone, commanded := signed d, speedResync := false } := by
        rw [running, signed_eq]
        rfl
      by_cases stop : ended = true
      · by_cases parks : p.homing = true ∨ p.endMode = .stop
        · obtain ⟨t, u, runs, hold, only, others, record, ebc, hlp⟩ := closes ((seen.carriageStep_parks (atEnd.trans stop) parks).resyncCarriage rfl)
          refine ⟨t, u, _, _, runs, hold, only, others, record, ebc, ?_⟩
          rw [if_neg Bool.false_ne_true, if_pos ⟨running, stop, parks⟩]
          exact ⟨rfl, congrArg (BusAsk.speed i 0 :: ·) (again 0), hlp⟩
        · obtain ⟨t, u, runs, hold, only, others, record, ebc, hlp⟩ := closes ((seen.carriageStep_turns (atEnd.trans stop) parks rfl).resyncCarriage rfl)
          refine ⟨t, u, _, _, runs, hold, only, others, record, ebc, ?_⟩
          rw [if_neg Bool.false_ne_true, if_neg (fun all => parks all.2.2), if_pos ⟨running, stop⟩]
          have turns : p.direction.turn = turned := rfl
          rw [turns]
          exact ⟨runs_in turned, by rw [signed_eq]; exact congrArg (BusAsk.speed i _ :: ·) (again _), hlp⟩
      · by_cases same : p.speedZone = some zone
        · obtain ⟨t, u, runs, hold, only, others, record, ebc, hlp⟩ := closes ((seen.carriageStep_stays (fun e => stop (atEnd.symm.trans e)) same).resyncCarriage rfl)
          refine ⟨t, u, _, _, runs, hold, only, others, record, ebc, ?_⟩
          rw [if_neg Bool.false_ne_true, if_neg (fun all => stop all.2.1), if_neg (fun all => stop all.2), if_neg (fun all => all.2 same)]
          exact ⟨rfl, rfl, hlp⟩
        · obtain ⟨t, u, runs, hold, only, others, record, ebc, hlp⟩ := closes ((seen.carriageStep_enters (fun e => stop (atEnd.symm.trans e)) same).resyncCarriage rfl)
          refine ⟨t, u, _, _, runs, hold, only, others, record, ebc, ?_⟩
          rw [if_neg Bool.false_ne_true, if_neg (fun all => stop all.2.1), if_neg (fun all => stop all.2), if_pos ⟨running, same⟩]
          exact ⟨runs_in p.direction, by rw [signed_eq]; exact congrArg (BusAsk.speed i _ :: ·) (again _), hlp⟩
    · rw [if_neg running] at closes
      obtain ⟨t, u, runs, hold, only, others, record, ebc, hlp⟩ := closes (seen.resyncCarriage rfl)
      refine ⟨t, u, _, _, runs, hold, only, others, record, ebc, ?_⟩
      rw [if_neg Bool.false_ne_true, if_neg (fun all => running all.1), if_neg (fun all => running all.1), if_neg (fun all => running all.1)]
      exact ⟨rfl, rfl, hlp⟩

end

end Sys2Proof.Machine

/-! Settles O34: a completed poll updates the record, and the poll fields of each kind (R9, R10, R94, Table 11-8). -/
namespace Sys2Proof.Machine

/-! ## The poll fields of each kind (Table 11-8) -/

theorem readingOf_goal_status (counter status : Byte) : readingOf .goal [counter, status] =
    if status.toNat ≤ 1 then some (.goal counter (status.getLsbD 0)) else none := by
  simp only [readingOf, Nat.lt_succ_iff]

theorem readingOf_gate_position (position : Byte) : readingOf .gate [position] = match position.toNat with
    | 0 => some (.gate .closed)
    | 1 => some (.gate .opened)
    | 2 => some (.gate .moving)
    | 3 => some (.gate .stopped)
    | 4 => some (.gate .jammed)
    | _ => none := by
  rw [readingOf, gatePositionOf]
  generalize position.toNat = n
  match n with
  | 0 => rfl
  | 1 => rfl
  | 2 => rfl
  | 3 => rfl
  | 4 => rfl
  | n + 5 => rfl

theorem readingOf_station_occupied (occupied : Byte) : readingOf .station [occupied] =
    if occupied = 0 then some (.station false) else if occupied = 1 then some (.station true) else none := by
  by_cases empty : occupied = 0
  · rw [if_pos empty, empty]
    rfl
  by_cases full : occupied = 1
  · rw [if_neg empty, if_pos full, full]
    rfl
  have above : 1 < occupied.toNat := by
    by_contra small
    have codes : occupied.toNat = 0 ∨ occupied.toNat = 1 := by omega
    exact codes.elim (fun zero => empty (BitVec.eq_of_toNat_eq zero)) fun one => full (BitVec.eq_of_toNat_eq one)
  rw [if_neg empty, if_neg full, readingOf, yesNoOf_above above]
  rfl

/-- The kind whose fields a reading was read from. -/
def Reading.kind : Reading → Kind
  | .goal _ _ => .goal
  | .gate _ => .gate
  | .station _ => .station
  | .carriage .. => .carriage

theorem carriageReadingOf_kind {zone status speed : Byte} {reading : Reading} (reads : carriageReadingOf zone status speed = some reading) :
    reading.kind = .carriage := by
  unfold carriageReadingOf at reads
  split at reads
  · split at reads
    · cases reads
      rfl
    · cases reads
  · cases reads

theorem readingOf_kind {k : Kind} {fields : List Byte} {reading : Reading} (reads : readingOf k fields = some reading) : reading.kind = k := by
  unfold readingOf at reads
  split at reads
  · split at reads
    · cases reads
      rfl
    · cases reads
  · obtain ⟨_, _, rfl⟩ := Option.map_eq_some_iff.mp reads
    rfl
  · obtain ⟨_, _, rfl⟩ := Option.map_eq_some_iff.mp reads
    rfl
  · exact carriageReadingOf_kind reads
  · cases reads

/-! ## What the handler of each kind makes of the record -/

/-- What a completed poll leaves before the hold, whatever the kind: the record but for its flags and its kind part, asks for the
element alone, and notices after those of the field table. -/
def State.pollMakes (s u : State) (i : Index) (r record : ElementRecord) (notices : List Notice) : Prop :=
  ∃ (after : ElementRecord) (asks : List BusAsk) (later : List Notice),
    s.onlyChanges u [.hlp, .roster, .elems, .ebc, .tu] ∧ s.elemsBut u i ∧ u.elem i = some after
      ∧ after = { record with sticky := after.sticky, part := after.part } ∧ after.part.kind = r.part.kind
      ∧ after.sticky.restarted = record.sticky.restarted
      ∧ (∀ q ∈ asks, q.index = i) ∧ u.ebc = s.pollEnded i r.pollPeriod asks
      ∧ (r.part.kind ≠ .gate → u.roster = s.roster) ∧ (r.part.kind ≠ .goal → u.tu = s.tu)
      ∧ u.hlp = (s.hlp.raiseAll notices).raiseAll later

section
variable {s : State} {i : Index} {r : ElementRecord} {role : PollRole} {epoch : Byte}

/-- The state that the end of a completed poll makes, before the hold. -/
def State.pollMade (s : State) (i : Index) (r : ElementRecord) (role : PollRole) (epoch : Byte) (reading : Reading) : State :=
  ((s.endTransaction.polledFirst i r epoch reading).handReading i role reading (pieceDelta r.reading reading (r.restartedBy epoch))
    (r.restartedBy epoch)).setDue i

theorem litChange_index (i : Index) (was lit : Bool) : ∀ q ∈ litChange i was lit, q.index = i := by
  intro q mem
  unfold litChange at mem
  split at mem
  · cases mem
  · rw [List.mem_singleton.mp mem]
    rfl

/-- An ask that is made or not is for its element. -/
theorem askIf_index {q : BusAsk} (own : q.index = i) (asked : Bool) : ∀ x ∈ (if asked then [q] else []), x.index = i := by
  intro x mem
  cases asked with
  | false => cases mem
  | true => rw [List.mem_singleton.mp mem]; exact own

theorem asks_append {asks more : List BusAsk} (first : ∀ q ∈ asks, q.index = i) (second : ∀ q ∈ more, q.index = i) :
    ∀ q ∈ asks ++ more, q.index = i := fun q mem => (List.mem_append.mp mem).elim (first q) (second q)

theorem State.pollMakes_goal (stands : s.elem i = some r) {p : GoalPart} (goal : r.part = .goal p) (counter : Byte) (broken : Bool) :
    s.pollMakes (s.pollMade i r role epoch (.goal counter broken)) i r (r.afterPoll epoch (.goal counter broken) broken) (pollNotices i r epoch broken) := by
  have done := State.goalPoll_done stands goal role epoch counter broken
  obtain ⟨u, made⟩ : ∃ u, u = s.pollMade i r role epoch (.goal counter broken) := ⟨_, rfl⟩
  unfold State.pollMade at made
  rw [← made] at done
  unfold State.pollMade
  rw [← made]
  obtain ⟨only, others, stands', tu, hlp, ebc⟩ := done
  refine ⟨_, _, _, fun b other => only b (by simp_all), others, stands', rfl, by rw [goal]; rfl, ?_, ?_, ebc,
    fun _ => only .roster (by decide), fun other => absurd (by rw [goal]; rfl) other, hlp.trans ((congrArg s.hlp.raiseAll (List.append_assoc ..)).trans (Hlp.raiseAll_append ..))⟩
  · split <;> rfl
  · exact asks_append (asks_append (litChange_index i _ _) (litChange_index i _ _)) (askIf_index rfl _)

theorem State.pollMakes_gate (stands : s.elem i = some r) {p : GatePart} (gate : r.part = .gate p) (position : GatePosition) :
    s.pollMakes (s.pollMade i r role epoch (.gate position)) i r (r.afterPoll epoch (.gate position) false) (pollNotices i r epoch false) := by
  have first := State.polledFirst_handled (s := s.endTransaction) stands epoch (.gate position)
  obtain ⟨u, handled, tells⟩ := State.gatePolled_handled first (p := p) gate position
  obtain ⟨only, others, record, tu, hlp, ebc, _⟩ := handled.pollEnds_told (u.tellOutcome_frame i (p.motion.polled position).2)
  rw [← tells] at only others record tu hlp ebc
  obtain ⟨later, told⟩ : ∃ later, (u.tellOutcome i (p.motion.polled position).2).hlp = u.hlp.raiseAll later := by
    cases (p.motion.polled position).2 with
    | none => exact ⟨[], rfl⟩
    | some outcome => exact ⟨_, u.tellOrigin_hlp i _ _ _ _⟩
  refine ⟨_, [], later, only, others, record, rfl, by rw [gate]; rfl, rfl, nofun, ebc, fun other => absurd (by rw [gate]; rfl) other,
    fun _ => tu, hlp.trans ((congrArg State.hlp tells).trans (told.trans (congrArg (Hlp.raiseAll · later) handled.hlp)))⟩

theorem State.pollMakes_station (stands : s.elem i = some r) {p : StationPart} (station : r.part = .station p) (occupied : Bool) :
    s.pollMakes (s.pollMade i r role epoch (.station occupied)) i r (r.afterPoll epoch (.station occupied) false) (pollNotices i r epoch false) := by
  obtain ⟨only, others, record, tu, hlp, ebc, roster⟩ := (State.stationPoll_handled stands station role epoch occupied).pollEnds
  refine ⟨_, _, _, fun b other => only b (by simp_all), others, record, rfl, by rw [station]; rfl, rfl, askIf_index rfl _, ebc,
    fun _ => roster, fun _ => tu, hlp.trans (Hlp.raiseAll_append ..)⟩

/-- The carriage handler at a completed poll: a kind part, notices, and drives of this carriage. -/
theorem State.carriageMoved_handled (stands : s.elem i = some r) {p : CarriagePart} (carriage : r.part = .carriage p) (zone : Fin 8)
    (front rear encoder : Bool) (x : Int) : ∃ (q : CarriagePart) (later : List Notice) (asks : List BusAsk), (∀ ask ∈ asks, ask.index = i)
      ∧ s.endTransaction.Handled (s.carriageMoved i r epoch zone front rear encoder x) i
          ((r.afterPoll epoch (.carriage zone front rear encoder x) encoder).setPart (.carriage q)) (pollNotices i r epoch encoder ++ later) asks s.tu := by
  have seen := State.carriageSeen_handled (epoch := epoch) stands carriage (.carriage zone front rear encoder x)
  have kept := seen.congr rfl (List.append_nil _).symm rfl rfl
  cases encoder with
  | true =>
    rw [State.carriageMoved_fault]
    by_cases moves : p.runState = .running ∨ p.runState = .halted
    · exact ⟨_, _, _, askIf_index (i := i) rfl true, seen.carriageFault_stops rfl .encoder moves⟩
    · exact ⟨_, _, _, List.forall_mem_nil _, kept.carriageFault_still rfl .encoder moves⟩
  | false =>
    rw [State.carriageMoved_sound stands carriage]
    by_cases running : p.runState = .running
    · rw [if_pos running]
      by_cases ended : ({ p with speedResync := p.speedResync || r.restartedBy epoch } : CarriagePart).atEnd front rear = true
      · by_cases parks : p.homing = true ∨ p.endMode = .stop
        · exact ⟨_, _, _, asks_append (askIf_index rfl true) (askIf_index rfl _), (seen.carriageStep_parks ended parks).resyncCarriage rfl⟩
        · exact ⟨_, _, _, asks_append (askIf_index rfl true) (askIf_index rfl _), (kept.carriageStep_turns ended parks rfl).resyncCarriage rfl⟩
      · by_cases same : p.speedZone = some zone
        · exact ⟨_, _, _, askIf_index rfl _, (kept.carriageStep_stays ended same).resyncCarriage rfl⟩
        · exact ⟨_, _, _, asks_append (askIf_index rfl true) (askIf_index rfl _), (kept.carriageStep_enters ended same).resyncCarriage rfl⟩
    · rw [if_neg running]
      exact ⟨_, _, _, askIf_index rfl _, kept.resyncCarriage rfl⟩

theorem State.pollMakes_carriage (stands : s.elem i = some r) {p : CarriagePart} (carriage : r.part = .carriage p) (zone : Fin 8)
    (front rear encoder : Bool) (x : Int) : s.pollMakes (s.pollMade i r role epoch (.carriage zone front rear encoder x)) i r
      (r.afterPoll epoch (.carriage zone front rear encoder x) encoder) (pollNotices i r epoch encoder) := by
  obtain ⟨q, later, asks, own, handled⟩ := State.carriageMoved_handled (epoch := epoch) stands carriage zone front rear encoder x
  obtain ⟨only, others, record, tu, hlp, ebc, roster⟩ := handled.pollEnds
  refine ⟨_, asks, later, fun b other => only b (by simp_all), others, record, rfl, by rw [carriage]; rfl, rfl, own, ebc, fun _ => roster,
    fun _ => tu, hlp.trans (Hlp.raiseAll_append ..)⟩

/-- The handler that a reading is handed to is that of the record's kind. -/
theorem State.pollMakes_of_reading (stands : s.elem i = some r) {fields : List Byte} {reading : Reading}
    (reads : readingOf r.part.kind fields = some reading) :
    s.pollMakes (s.pollMade i r role epoch reading) i r (r.afterPoll epoch reading reading.sensorFault) (pollNotices i r epoch reading.sensorFault) := by
  have kind := readingOf_kind reads
  cases part : r.part with
  | goal p =>
    cases reading with
    | goal counter broken => exact State.pollMakes_goal stands part counter broken
    | _ => rw [part] at kind; exact absurd kind nofun
  | gate p =>
    cases reading with
    | gate position => exact State.pollMakes_gate stands part position
    | _ => rw [part] at kind; exact absurd kind nofun
  | station p =>
    cases reading with
    | station occupied => exact State.pollMakes_station stands part occupied
    | _ => rw [part] at kind; exact absurd kind nofun
  | carriage p =>
    cases reading with
    | carriage zone front rear encoder x => exact State.pollMakes_carriage stands part zone front rear encoder x
    | _ => rw [part] at kind; exact absurd kind nofun

end

/-- Settles O34: the fields of each kind, then the end of a poll, whatever its kind. -/
theorem completedPollUpdatesTheRecord : Obligations.CompletedPollUpdatesTheRecord := by
  unfold Obligations.CompletedPollUpdatesTheRecord
  refine ⟨readingOf_goal_status, readingOf_gate_position, readingOf_station_occupied, readingOf_carriage, ?_⟩
  intro s f i r role epoch fields reading awaits op reads broken asksHold
  have fault : reading.sensorFault = broken := by cases reading <;> rfl
  obtain ⟨after, asks, later, only, others, stands, same, kind, restarted, own, ebc, roster, tu, hlp⟩ :=
    State.pollMakes_of_reading (role := role) (epoch := epoch) awaits.1.2.2.2 reads
  rw [fault] at same restarted hlp
  obtain ⟨ends, due, owed, scheds, queue⟩ := State.pollEnded_spec own ebc
  exact ⟨_, _, after, later, execBusReply_polled awaits op reads, State.thenHold_polled s _ i r epoch reading fault, only, ends, others, stands, same, kind,
    restarted, due, owed, scheds, queue, roster, tu, hlp⟩

end Sys2Proof.Machine

/-! Settles O41: what a failed transaction makes of the record, the bus and the kind part (R13, R126, R144, R150). -/
namespace Sys2Proof.Machine

/-! ## The handlers' own part of a failed transaction -/

namespace State.Handled
variable {s t : State} {i : Index} {r : ElementRecord} {notices : List Notice} {asks : List BusAsk} {tu : Tu}
variable (h : s.Handled t i r notices asks tu) (e : Entry)
include h

/-- A failed LAMP of a goal is wanted again. -/
theorem goalFailed {p : GoalPart} (goal : r.part = .goal p) (refresh : e.op ≠ .poll .closing) :
    s.Handled (t.goalFailed i e.op) i (r.setPart (.goal { p with lampResync := p.lampResync || e.isLamp })) notices asks tu := by
  have still : r.setPart (.goal { p with lampResync := p.lampResync || false }) = r := by
    rw [ElementRecord.setPart, Bool.or_false, ← goal]
  unfold Entry.isLamp
  cases op : e.op with
  | lamp on =>
    rw [Bool.or_true]
    exact h.modGoal goal _
  | poll role =>
    cases role with
    | refresh => exact h.congr still.symm rfl rfl rfl
    | closing => exact absurd op refresh
  | motion m => exact h.congr still.symm rfl rfl rfl
  | stopAll => exact h.congr still.symm rfl rfl rfl

/-- A failed closing poll of a goal captures the record when the window is CLOSING. -/
theorem goalFailed_closing {p : GoalPart} (goal : r.part = .goal p) : ∃ (q : ElementRecord) (later : List Notice) (more : List BusAsk) (tally : Tu),
    q = { r with sticky := q.sticky, part := q.part } ∧ q.part.kind = r.part.kind ∧ (∀ ask ∈ more, ask.index = i)
      ∧ s.Handled (t.goalFailed i (.poll .closing)) i q (notices ++ later) (asks ++ more) tally := by
  simp only [State.goalFailed, State.goal_of h.elem_self goal]
  by_cases closing : p.window = .closing
  · rw [if_pos closing]
    exact ⟨_, _, _, _, rfl, by rw [goal]; rfl, litChange_index i _ _, h.endClosing goal true (incomplete := true) rfl⟩
  · rw [if_neg closing]
    exact ⟨r, [], [], tu, rfl, rfl, List.forall_mem_nil _, h.congr rfl (List.append_nil _).symm (List.append_nil _).symm rfl⟩

/-- A failed LAMP of a station is wanted again. -/
theorem stationFailed {p : StationPart} (station : r.part = .station p) :
    s.Handled (t.stationFailed i e.op) i (r.setPart (.station { p with lampResync := p.lampResync || e.isLamp })) notices asks tu := by
  have still : r.setPart (.station { p with lampResync := p.lampResync || false }) = r := by
    rw [ElementRecord.setPart, Bool.or_false, ← station]
  unfold Entry.isLamp
  cases e.op with
  | lamp on =>
    rw [Bool.or_true]
    exact h.modStation station _
  | _ => exact h.congr still.symm rfl rfl rfl

end State.Handled

/-- The motion of a gate after a failed transaction, and the outcome that is told. -/
def GatePart.failed (p : GatePart) (drive : Bool) : GateMotion × Option (Origin × Answer × Option Nat × ElementNotice) :=
  match drive, p.motion with
  | true, .sent target origin => (.idle, some (origin, .failed, some 4, .gateFailed target p.position .driveFailed))
  | _, motion => (motion, none)

namespace State.Handled
variable {s t : State} {i : Index} {r : ElementRecord} {notices : List Notice} {asks : List BusAsk} {tu : Tu}
variable (h : s.Handled t i r notices asks tu) (e : Entry)
include h

/-- A failed MOTION of a gate ends the motion that was SENT. -/
theorem gateFailed {p : GatePart} (gate : r.part = .gate p) :
    ∃ u, s.Handled u i (r.setPart (.gate { p with motion := (p.failed e.isMotion).1 })) notices asks tu
      ∧ t.gateFailed i e.op = u.tellOutcome i (p.failed e.isMotion).2 := by
  have part := State.gate_of h.elem_self gate
  have still : r.setPart (.gate { p with motion := p.motion }) = r := by rw [ElementRecord.setPart, ← gate]
  unfold Entry.isMotion State.gateFailed
  rw [part]
  cases e.op with
  | motion m =>
    cases motion : p.motion with
    | sent target origin =>
      simp only [GatePart.failed, motion]
      exact ⟨_, h.gateIdle gate, t.gateFails_eq i target origin p.position .driveFailed⟩
    | _ =>
      simp only [GatePart.failed, motion]
      exact ⟨t, h.congr (by rw [← motion, still]) rfl rfl rfl, rfl⟩
  | _ => exact ⟨t, h.congr still.symm rfl rfl rfl, rfl⟩

/-- A failed MOTION of a carriage wants its speed again, and a carriage that is missing stops. -/
theorem carriageFailed_eq {p : CarriagePart} (carriage : r.part = .carriage p) :
    t.carriageFailed i e.op = (if r.state == .fault .missing then (if e.isMotion then t.wantSpeed i else t).carriageFault i .missing
      else if e.isMotion then t.wantSpeed i else t) := by
  have wants := h.wantSpeed_if carriage e.isMotion
  have gone : (if e.isMotion then t.wantSpeed i else t).missing i = (r.state == .fault .missing) := by
    rw [State.missing, wants.elem_self]
    rfl
  unfold State.carriageFailed
  rw [← gone]
  unfold Entry.isMotion
  cases e.op <;> rfl

theorem carriageFailed_stops {p : CarriagePart} (carriage : r.part = .carriage p) (gone : (r.state == .fault .missing) = true)
    (moves : p.runState = .running ∨ p.runState = .halted) : s.Handled (t.carriageFailed i e.op) i
      (r.setPart (.carriage (CarriagePart.stand { p with speedResync := p.speedResync || e.isMotion } .stopped)))
      (notices ++ [.element i (.carriageStopped .missing)]) (asks ++ [.speed i 0]) tu := by
  rw [h.carriageFailed_eq e carriage, if_pos gone]
  exact (h.wantSpeed_if carriage e.isMotion).carriageFault_stops rfl .missing moves

theorem carriageFailed_still {p : CarriagePart} (carriage : r.part = .carriage p)
    (stays : ¬ ((r.state == .fault .missing) = true ∧ (p.runState = .running ∨ p.runState = .halted))) : s.Handled (t.carriageFailed i e.op) i
      (r.setPart (.carriage { p with speedResync := p.speedResync || e.isMotion })) notices asks tu := by
  rw [h.carriageFailed_eq e carriage]
  split
  · next gone => exact (h.wantSpeed_if carriage e.isMotion).carriageFault_still rfl .missing fun moves => stays ⟨gone, moves⟩
  · exact h.wantSpeed_if carriage e.isMotion

end State.Handled

/-! ## The end of a failed transaction (R13, R87, R94) -/

theorem ElementRecord.afterFailure_missing (r : ElementRecord) :
    (r.afterFailure.state == .fault .missing) = true ↔ 2 ≤ r.failures ∨ r.state = .fault .missing := by
  unfold ElementRecord.afterFailure
  by_cases third : 2 ≤ r.failures <;> simp [third]

/-- The bus after a failed transaction: a poll's end lets the next refresh run from now. -/
def State.failureBus (s : State) (i : Index) (r : ElementRecord) (e : Entry) (asks : List BusAsk) : Ebc :=
  if e.isPoll then s.pollEnded i r.pollPeriod asks else s.endedOnBus asks

section
variable {s : State} {f : InFlight} {i : Index} {r : ElementRecord}

/-- The refresh schedule takes the end of a poll, and of nothing else. -/
theorem State.failureEnded_eq (e : Entry) : s.failureEnded i r e.op = if e.isPoll
    then ((s.endTransaction.failedFirst i r).handFailure i r.part.kind e.op).setDue i
    else (s.endTransaction.failedFirst i r).handFailure i r.part.kind e.op := by
  unfold State.failureEnded Entry.isPoll
  cases e.op <;> rfl

theorem State.onlyChanges_failed (s : State) {w : State} (h : s.endTransaction.onlyChanges w [.hlp, .elems, .ebc, .tu]) :
    s.onlyChanges w [.hlp, .roster, .elems, .ebc, .tu] := fun b other => by
  have kept := h b
  cases b <;> simp_all [State.sameBlock]

/-- What a failed transaction leaves before the hold, from what its handler makes. -/
theorem execReplyTimeout_closes (awaits : s.awaitsEnd f i r) (addressed : f.entry.op ≠ .stopAll) {w v : State} {q : ElementRecord}
    {notices : List Notice} {asks : List BusAsk} {tu : Tu} (handled : s.endTransaction.Handled w i q notices asks tu)
    (told : w.onlyChanges v [.hlp, .roster]) (acts : (s.endTransaction.failedFirst i r).handFailure i r.part.kind f.entry.op = v)
    (own : ∀ ask ∈ asks, ask.index = i) (same : q = { r.afterFailure with sticky := q.sticky, part := q.part }) :
    ∃ t u, exec .replyTimeout s = .next t
      ∧ u.thenHold t i (2 ≤ r.failures ∧ (r.state = .probing ∨ r.state = .online) ∧ r.faultHolds = true ∧ s.mch.phase.inMatch = true)
      ∧ s.onlyChanges u [.hlp, .roster, .elems, .ebc, .tu] ∧ u.endsOnBus ∧ s.elemsBut u i ∧ u.elem i = some q
      ∧ (f.entry.isPoll = true → (u.sched i).due = some (s.now + 20 * r.pollPeriod) ∧ (u.sched i).owed = false)
      ∧ (f.entry.isPoll = false → (u.sched i).due = (s.sched i).due ∧ (u.sched i).owed = (s.sched i).owed)
      ∧ (∀ j, j ≠ i → u.sched j = s.sched j)
      ∧ u.ebc.queue.filter (fun e => !e.isFor i) = s.ebc.queue.filter (fun e => !e.isFor i)
      ∧ u.roster = v.roster ∧ u.tu = tu ∧ u.hlp = v.hlp ∧ u.ebc = s.failureBus i r f.entry asks := by
  have period : q.pollPeriod = r.pollPeriod := by rw [same]; rfl
  have runs := execReplyTimeout_failed awaits addressed
  have hold := State.thenHold_failed s (s.failureEnded i r f.entry.op) i r
  rw [State.failureEnded_eq, acts] at runs hold
  unfold State.failureBus
  cases poll : f.entry.isPoll with
  | true =>
    rw [poll, if_pos rfl] at runs hold
    obtain ⟨only, others, stands, tally, hlp, ebc, roster⟩ := handled.pollEnds_told told
    rw [period] at ebc
    obtain ⟨ends, due, owed, scheds, queue⟩ := State.pollEnded_spec own ebc
    exact ⟨_, _, runs, hold, only, ends, others, stands, fun _ => ⟨due, owed⟩, nofun, scheds, queue, roster, tally, hlp, ebc⟩
  | false =>
    rw [poll, if_neg Bool.false_ne_true] at runs hold
    have only := State.onlyChanges_trans (s.onlyChanges_failed handled.onlyChanges) told (by decide)
    have bus : v.ebc = s.endedOnBus asks := (told .ebc (by simp)).trans handled.ebc
    have elem (j : Index) : v.elem j = w.elem j := State.elem_congr (told .elems (by simp)) j
    obtain ⟨ends, due, owed, scheds, queue⟩ := State.endedOnBus_spec own bus
    refine ⟨_, _, runs, hold, only, ends, fun j other => (elem j).trans (handled.elemsBut j other), (elem i).trans handled.elem_self, nofun,
      fun _ => ⟨due, owed⟩, scheds, queue, rfl, (told .tu (by simp)).trans handled.tu, rfl, bus⟩

end

/-- The motion of a gate that failed, as the statement names its two cases. -/
theorem State.gateFailed_told {s w v u : State} {i : Index} {q : ElementRecord} {notices : List Notice} {asks : List BusAsk} {tu : Tu} {p : GatePart}
    {drive : Bool} (handled : s.endTransaction.Handled w i q notices asks tu) (roster : u.roster = v.roster) (hlp : u.hlp = v.hlp) :
    v = w.tellOutcome i (p.failed drive).2 → q.part = .gate { p with motion := (p.failed drive).1 } → match drive, p.motion with
    | true, .sent target origin => q.part = .gate { p with motion := .idle }
        ∧ s.outcomeTold u i origin notices .failed (some 4) (.gateFailed target p.position .driveFailed)
    | _, _ => q.part = .gate p ∧ u.roster = s.roster ∧ u.hlp = s.hlp.raiseAll notices := by
  intro told part
  have kept (same : p.failed drive = (p.motion, none)) : q.part = .gate p ∧ u.roster = s.roster ∧ u.hlp = s.hlp.raiseAll notices := by
    rw [same] at told part
    rw [told] at roster hlp
    exact ⟨part, roster.trans handled.roster, hlp.trans handled.hlp⟩
  cases drive with
  | false => exact kept rfl
  | true =>
    cases motion : p.motion with
    | sent target origin =>
      have failed : p.failed true = (.idle, some (origin, .failed, some 4, .gateFailed target p.position .driveFailed)) := by
        simp only [GatePart.failed, motion]
      rw [failed] at told part
      rw [told] at roster hlp
      exact ⟨part, State.outcomeTold_of handled.roster handled.hlp roster hlp⟩
    | idle => exact kept (by simp only [GatePart.failed, motion])
    | travelling target origin elapsed => exact kept (by simp only [GatePart.failed, motion])

/-- Settles O41: each kind's handler, under the end that is common to all. -/
theorem failedTransactionCounts : Obligations.FailedTransactionCounts := by
  unfold Obligations.FailedTransactionCounts
  intro s f i r awaits addressed asksHold missing bus
  have first := State.failedFirst_handled (s := s.endTransaction) (i := i) (r := r) awaits.2.2.2
  have quiet (v : State) : v.onlyChanges v [.hlp, .roster] := fun b _ => by cases b <;> rfl
  obtain ⟨b, began⟩ : ∃ b, b = s.endTransaction.failedFirst i r := ⟨_, rfl⟩
  have closes {w v : State} {q : ElementRecord} {notices : List Notice} {asks : List BusAsk} {tu : Tu} :=
    execReplyTimeout_closes awaits addressed (w := w) (v := v) (q := q) (notices := notices) (asks := asks) (tu := tu)
  rw [← began] at first closes
  cases part : r.part with
  | goal p =>
    by_cases closing : f.entry.op = .poll .closing
    · obtain ⟨q, later, asks, tally, same, kind, own, handled⟩ := first.goalFailed_closing part
      obtain ⟨t, u, runs, hold, only, ends, others, stands, due, kept, scheds, queue, roster, tu, hlp, ebc⟩ :=
        closes handled (quiet _) (by rw [part, closing]; rfl) own same
      refine ⟨t, u, _, runs, hold, only, ends, others, stands, same, kind.trans (congrArg KindPart.kind part), fun _ => roster.trans handled.roster,
        fun other => absurd closing other, due, kept, scheds, queue, fun _ _ other => absurd closing other, (by rintro _ ⟨⟩),
        (by rintro _ ⟨⟩), (by rintro _ ⟨⟩)⟩
    · have handled := first.goalFailed f.entry part closing
      obtain ⟨t, u, runs, hold, only, ends, others, stands, due, kept, scheds, queue, roster, tu, hlp, ebc⟩ :=
        closes handled (quiet _) (by rw [part]; rfl) (List.forall_mem_nil _) rfl
      refine ⟨t, u, _, runs, hold, only, ends, others, stands, rfl, rfl, fun _ => roster.trans handled.roster, fun _ => tu, due, kept, scheds, queue,
        fun q same _ => ?_, (by rintro _ ⟨⟩), (by rintro _ ⟨⟩), (by rintro _ ⟨⟩)⟩
      cases same
      exact ⟨rfl, rfl, ebc, hlp.trans handled.hlp⟩
  | station p =>
    have handled := first.stationFailed f.entry part
    obtain ⟨t, u, runs, hold, only, ends, others, stands, due, kept, scheds, queue, roster, tu, hlp, ebc⟩ :=
      closes handled (quiet _) (by rw [part]; rfl) (List.forall_mem_nil _) rfl
    refine ⟨t, u, _, runs, hold, only, ends, others, stands, rfl, rfl, fun _ => roster.trans handled.roster, fun _ => tu, due, kept, scheds, queue,
      (by rintro _ ⟨⟩), fun q same => ?_, (by rintro _ ⟨⟩), (by rintro _ ⟨⟩)⟩
    cases same
    exact ⟨rfl, rfl, ebc, hlp.trans handled.hlp⟩
  | gate p =>
    obtain ⟨w, handled, told⟩ := first.gateFailed f.entry part
    obtain ⟨t, u, runs, hold, only, ends, others, stands, due, kept, scheds, queue, roster, tu, hlp, ebc⟩ :=
      closes handled (w.tellOutcome_frame i _) (by rw [part]; exact told) (List.forall_mem_nil _) rfl
    refine ⟨t, u, _, runs, hold, only, ends, others, stands, rfl, rfl, fun other => absurd rfl other, fun _ => tu, due, kept, scheds, queue,
      (by rintro _ ⟨⟩), (by rintro _ ⟨⟩), fun q same => ?_, (by rintro _ ⟨⟩)⟩
    cases same
    exact ⟨rfl, ebc, State.gateFailed_told handled roster hlp rfl rfl⟩
  | carriage p =>
    by_cases stops : missing ∧ (p.runState = .running ∨ p.runState = .halted)
    · have handled := first.carriageFailed_stops f.entry part (r.afterFailure_missing.mpr stops.1) stops.2
      obtain ⟨t, u, runs, hold, only, ends, others, stands, due, kept, scheds, queue, roster, tu, hlp, ebc⟩ :=
        closes handled (quiet _) (by rw [part]; rfl) (askIf_index (i := i) rfl true) rfl
      refine ⟨t, u, _, runs, hold, only, ends, others, stands, rfl, rfl, fun _ => roster.trans handled.roster, fun _ => tu, due, kept, scheds, queue,
        (by rintro _ ⟨⟩), (by rintro _ ⟨⟩), (by rintro _ ⟨⟩), fun q same => ?_⟩
      cases same
      exact ⟨rfl, fun _ => ⟨rfl, ebc, hlp.trans handled.hlp⟩, fun stays => absurd stops stays⟩
    · have handled := first.carriageFailed_still f.entry part fun both => stops (both.imp_left r.afterFailure_missing.mp)
      obtain ⟨t, u, runs, hold, only, ends, others, stands, due, kept, scheds, queue, roster, tu, hlp, ebc⟩ :=
        closes handled (quiet _) (by rw [part]; rfl) (List.forall_mem_nil _) rfl
      refine ⟨t, u, _, runs, hold, only, ends, others, stands, rfl, rfl, fun _ => roster.trans handled.roster, fun _ => tu, due, kept, scheds, queue,
        (by rintro _ ⟨⟩), (by rintro _ ⟨⟩), (by rintro _ ⟨⟩), fun q same => ?_⟩
      cases same
      exact ⟨rfl, fun moves => absurd moves stops, fun _ => ⟨rfl, ebc, hlp.trans handled.hlp⟩⟩

end Sys2Proof.Machine

/-! Settles O44: SET-GATE and ACT ask for a gate's motion (R141, R142). -/
namespace Sys2Proof.Machine

/-! ## Codes and asks -/

theorem gateTargetOf_code (target : GateTarget) : gateTargetOf (gateCode target) = some target := by cases target <;> rfl

theorem gateTargetOf_none {b : Byte} (bad : b ≠ 1 ∧ b ≠ 2) : gateTargetOf b = none := by
  unfold gateTargetOf
  split
  · next one => exact absurd (BitVec.eq_of_toNat_eq one) bad.1
  · next two => exact absurd (BitVec.eq_of_toNat_eq two) bad.2
  · rfl

theorem GateMotion.isIdle_false (m : GateMotion) : m.isIdle = false ↔ m ≠ .idle := by
  cases m <;> simp [GateMotion.isIdle]

/-- A motion waits for its start: an entry for it is queued. -/
def State.motionWaits (s : State) (i : Index) : Prop := s.queued (fun e => e.isMotion && e.isFor i) = true

/-- An entry may enter for an ask (R92, R100). -/
def State.roomToAsk (s : State) : Prop := s.ebc.ordinary < 31 ∧ ∀ i, (s.sched i).marked = false

theorem State.roomToAsk_iff (s : State) : s.roomToAsk ↔ s.ebc.noRoom = false := s.ebc.noRoom_false.symm

section
variable {s : State} {i : Index}

theorem State.gateAsk_busy (waits : s.motionWaits i) : s.gateAsk i = .busy := if_pos waits

theorem State.gateAsk_full (free : ¬ s.motionWaits i) (full : ¬ s.roomToAsk) : s.gateAsk i = .full := by
  have none_ : s.ebc.noRoom = true := by simpa [State.roomToAsk_iff] using full
  exact (if_neg free).trans (if_pos none_)

theorem State.gateAsk_taken (free : ¬ s.motionWaits i) (room : s.roomToAsk) : s.gateAsk i = .taken := by
  have some_ : ¬ s.ebc.noRoom = true := by simp [s.roomToAsk_iff.mp room]
  exact (if_neg free).trans (if_neg some_)

theorem State.gateAsk_congr {t : State} (bus : t.ebc = s.ebc) (i : Index) : t.gateAsk i = s.gateAsk i := by
  unfold State.gateAsk State.queued
  rw [bus]

/-- The motion state is SENT and its entry is queued. -/
def State.gateSent (s t : State) (i : Index) (r : ElementRecord) (p : GatePart) (target : GateTarget) (origin : Origin) : Prop :=
  s.elemsBut t i ∧ t.elem i = some { r with part := .gate { p with motion := .sent target origin } }
    ∧ t.ebc = { s.ebc with
        queue := s.ebc.queue ++ [{ age := s.ebc.nextAge, enteredAt := s.now, element := some i,
                                   op := .motion (.gate target), cls := .control, origin := origin }]
        nextAge := s.ebc.nextAge + 1 }

theorem State.gateSent_sendGate {t : State} {r : ElementRecord} (stands : s.elem i = some r) (elems : t.elems = s.elems) (bus : t.ebc = s.ebc)
    (clock : t.now = s.now) (p : GatePart) (target : GateTarget) (origin : Origin) :
    s.gateSent (t.sendGate i p target origin) i r p target origin := by
  have elem (j : Index) : (t.enter (some i) (.motion (.gate target)) .control origin).elem j = s.elem j := State.elem_congr elems j
  refine ⟨fun j other => ?_, ?_, ?_⟩
  · rw [State.sendGate, State.setGate, State.elem_setPart, if_neg other, elem]
  · rw [State.sendGate, State.setGate, State.elem_setPart, if_pos rfl, elem, stands]
    rfl
  · simp [State.sendGate, State.setGate, State.enter, bus, clock, Ebc.enter]

theorem State.onlyChanges_sendGate (s : State) (i : Index) (p : GatePart) (target : GateTarget) (origin : Origin) :
    s.onlyChanges (s.sendGate i p target origin) [.elems, .ebc] := fun b other => by
  cases b <;> simp_all [State.sameBlock]

end

section
variable {s : State} {i : Index} {r : ElementRecord} {p : GatePart} {position : GatePosition}

/-- SET-GATE for a sound gate whose position is known (R142, Table 7-6). -/
theorem setGateOwner_gate {index : Byte} (names : index.toNat = i.val) (stands : s.elem i = some r) (gate : r.part = .gate p)
    (sound : r.inFault = false) (known : p.position = some position) (tag : Byte) (target : GateTarget) :
    setGateOwner tag index (gateCode target) s = if position = .moving ∨ p.motion.isIdle = false then refuse s .busy
      else if position.atTarget target then taken s (.gate false)
      else match s.gateAsk i with
        | .busy => refuse s .busy
        | .full => refuse s .queueFull
        | .taken => taken (s.sendGate i p target (.host tag)) (.gate true) := by
  simp only [setGateOwner, gateTargetOf_code, indexOf_val names, stands, gate, sound, known, Bool.false_eq_true, if_false] <;> rfl

/-- ACT in a match phase without a hold, on a sound gate that the robot holds and whose position is known (R141, Table 7-5). -/
theorem State.actOn_gate {k : Slot} {number : BitVec 4} {element : Byte} (play : s.mch.phase.inMatch = true) (free : s.held = false)
    (names : element.toNat = i.val) (stands : s.elem i = some r) (gate : r.part = .gate p) (holds : r.claim.holder = some k)
    (sound : r.inFault = false) (known : p.position = some position) (target : GateTarget) :
    s.actOn k number element target = if position = .moving ∨ p.motion.isIdle = false then s.answerNow k .busy none
      else if position.atTarget target then s.answerNow k .done none
      else match s.gateAsk i with
        | .busy => s.answerNow k .busy none
        | .full => s.answerNow k .busFull none
        | .taken => s.sendGate i p target (.robot k number) := by
  simp only [State.actOn, play, free, Bool.not_true, Bool.or_false, Bool.false_eq_true, if_false, indexOf_val names, stands, gate, holds,
    sound, known, ne_eq, not_true_eq_false] <;> rfl

theorem gateBusy_iff (known : p.position = some position) :
    (position = .moving ∨ p.motion.isIdle = false) ↔ (p.position = some .moving ∨ p.motion ≠ .idle) := by
  rw [known, Option.some_inj, GateMotion.isIdle_false]

end

/-- SET-GATE, by the rows of its table. -/
theorem execSetGate_spec (s : State) (tag index setpoint : Byte) (accepted : s.accepts = true) :
    ∃ t, exec (.setGate tag index setpoint) s = .next t
      ∧ (48 ≤ index.toNat ∨ (setpoint ≠ 1 ∧ setpoint ≠ 2) → s.refuses t 0x16 tag .badValue)
      ∧ ∀ (i : Index) (target : GateTarget), index.toNat = i.val → setpoint = gateCode target → match s.elem i with
        | none => s.refuses t 0x16 tag .noSuchElement
        | some r => match r.part with
          | .gate p =>
            if r.inFault = true then s.refuses t 0x16 tag .elementFault
            else (p.position = none → s.refuses t 0x16 tag .notReady) ∧ ∀ position, p.position = some position →
              ((p.position = some .moving ∨ p.motion ≠ .idle) → s.refuses t 0x16 tag .busy)
              ∧ (¬ (p.position = some .moving ∨ p.motion ≠ .idle) →
                  (target = .opening ∧ position = .opened) ∨ (target = .closing ∧ position = .closed) → s.answers t [] 0x16 tag [] .ok (.gate false))
              ∧ (¬ (p.position = some .moving ∨ p.motion ≠ .idle) →
                  ¬ ((target = .opening ∧ position = .opened) ∨ (target = .closing ∧ position = .closed)) →
                  (s.motionWaits i → s.refuses t 0x16 tag .busy)
                  ∧ (¬ s.motionWaits i → ¬ s.roomToAsk → s.refuses t 0x16 tag .queueFull)
                  ∧ (¬ s.motionWaits i → s.roomToAsk → s.gateSent t i r p target (.host tag)
                      ∧ s.answers t [.elems, .ebc] 0x16 tag [] .ok (.gate true)))
          | _ => s.refuses t 0x16 tag .wrongKind := by
  refine ⟨_, congrArg Host.Outcome.next (State.goodFrame_eq accepted 0x16 tag (setGateOwner tag index setpoint)), fun bad => ?_,
    fun i target names coded => ?_⟩
  · refine State.refuses_of ?_ _ _
    unfold setGateOwner
    rcases bad with above | other
    · rw [indexOf_above above]
      cases gateTargetOf setpoint <;> rfl
    · rw [gateTargetOf_none other]
  subst coded
  have refused {st : Status} (owner : setGateOwner tag index (gateCode target) s.restartSilence = refuse s.restartSilence st) :=
    State.refuses_of owner 0x16 tag
  cases stands : s.elem i with
  | none =>
    have stands' := (s.restartSilence_elem i).trans stands
    exact refused (by simp only [setGateOwner, gateTargetOf_code, indexOf_val names, stands'])
  | some r =>
    have stands' := (s.restartSilence_elem i).trans stands
    cases gate : r.part with
    | gate p =>
      dsimp only
      rw [gate]
      dsimp only
      cases fault : r.inFault with
      | true => exact refused (by simp [setGateOwner, gateTargetOf_code, indexOf_val names, stands', gate, fault])
      | false =>
        rw [if_neg Bool.false_ne_true]
        refine ⟨fun unknown => refused (by simp [setGateOwner, gateTargetOf_code, indexOf_val names, stands', gate, fault, unknown]),
          fun position known => ?_⟩
        have owner := setGateOwner_gate names stands' gate fault known tag target
        rw [State.gateAsk_congr (s := s) (by simp) i] at owner
        have busy := gateBusy_iff known
        have reach := position.atTarget_iff target
        refine ⟨fun moving => refused (owner.trans (if_pos (busy.mpr moving))), fun still there => ?_, fun still away => ?_⟩
        · rw [if_neg (mt busy.mp still), if_pos (reach.mpr there)] at owner
          exact State.answers_of owner _ _ (fun b other => by cases b <;> rfl) (by simp)
        · rw [if_neg (mt busy.mp still), if_neg (mt reach.mp away)] at owner
          refine ⟨fun waits => refused (by rw [owner, State.gateAsk_busy waits]),
            fun free full => refused (by rw [owner, State.gateAsk_full free full]), fun free room => ?_⟩
          rw [State.gateAsk_taken free room] at owner
          have sent : s.gateSent (s.restartSilence.sendGate i p target (.host tag)) i r p target (.host tag) :=
            State.gateSent_sendGate stands (by simp) (by simp) (by simp) p target _
          refine ⟨?_, State.answers_of owner _ _ (fun b other => ?_) (by simp [State.sendGate, State.setGate, State.enter])⟩
          · obtain ⟨others, record, bus⟩ := sent
            refine ⟨fun j other => ?_, ?_, ?_⟩
            · rw [owner, Answered.send_elem]
              exact others j other
            · rw [owner, Answered.send_elem]
              exact record
            · rw [owner, Answered.send_ebc]
              exact bus
          · exact s.restartSilence.onlyChanges_sendGate i p target (.host tag) b (by simp_all)
    | _ =>
      dsimp only
      rw [gate]
      exact refused (by simp only [setGateOwner, gateTargetOf_code, indexOf_val names, stands', gate])

/-- ACT, by the rows of its table. -/
theorem execAct_spec (s : State) (k : Slot) (number : BitVec 4) (element : Byte) (target : GateTarget) (executed : s.executes k number = true) :
    ∃ t, exec (.act k number element target) s = .next t ∧
      if s.mch.phase.inMatch = false ∨ s.mch.stack ≠ [] then s.answersRobot t k number .act (some element) .notNow none
      else (48 ≤ element.toNat → s.answersRobot t k number .act (some element) .noElement none) ∧ ∀ i : Index, element.toNat = i.val → match s.elem i with
        | none => s.answersRobot t k number .act (some element) .noElement none
        | some r => match r.part with
          | .gate p =>
            if r.claim.holder ≠ some k then s.answersRobot t k number .act (some element) .notHolder none
            else if r.inFault = true then s.answersRobot t k number .act (some element) .elementFault none
            else (p.position = none → s.answersRobot t k number .act (some element) .notNow none) ∧ ∀ position, p.position = some position →
              ((p.position = some .moving ∨ p.motion ≠ .idle) → s.answersRobot t k number .act (some element) .busy none)
              ∧ (¬ (p.position = some .moving ∨ p.motion ≠ .idle) →
                  (target = .opening ∧ position = .opened) ∨ (target = .closing ∧ position = .closed) →
                  s.answersRobot t k number .act (some element) .done none)
              ∧ (¬ (p.position = some .moving ∨ p.motion ≠ .idle) →
                  ¬ ((target = .opening ∧ position = .opened) ∨ (target = .closing ∧ position = .closed)) →
                  (s.motionWaits i → s.answersRobot t k number .act (some element) .busy none)
                  ∧ (¬ s.motionWaits i → ¬ s.roomToAsk → s.answersRobot t k number .act (some element) .busFull none)
                  ∧ (¬ s.motionWaits i → s.roomToAsk → s.gateSent t i r p target (.robot k number)
                      ∧ s.onlyChanges t [.roster, .elems, .ebc] ∧ s.robotsBut t k
                      ∧ t.robot k = { s.robot k with
                          openRequest := some (OpenRequest.mk number .act (some element) false .wait none) }))
          | _ => s.answersRobot t k number .act (some element) .notAGate none := by
  refine ⟨_, congrArg Host.Outcome.next (State.handOn_eq executed (.act element target) _), ?_⟩
  obtain ⟨o, opened⟩ : ∃ o, o = s.openNew k number (.act element target) := ⟨_, rfl⟩
  have elems (i : Index) : o.elem i = s.elem i := by rw [opened]; exact State.openNew_elem ..
  have shows {code : Answer} {detail : Option Nat} (answer : o.actOn k number element target = o.answerNow k code detail) :
      s.answersRobot (o.actOn k number element target) k number .act (some element) code detail :=
    State.answersRobot_of (q := .act element target) (answer.trans (by rw [opened]))
  have phase : o.mch = s.mch := by rw [opened]; simp
  have held : o.held = s.held := by rw [State.held, phase]; rfl
  rw [← opened]
  by_cases outside : s.mch.phase.inMatch = false ∨ s.mch.stack ≠ []
  · rw [if_pos outside]
    refine shows (if_pos ?_)
    rw [phase, held]
    rcases outside with idle | stack
    · rw [idle, Bool.not_false, Bool.true_or]
    · have held' : s.held = true := by cases stack' : s.mch.stack <;> simp_all [State.held]
      rw [held', Bool.or_true]
  rw [if_neg outside]
  have play : o.mch.phase.inMatch = true := by
    rw [phase]
    exact Bool.eq_true_of_not_eq_false fun idle => outside (.inl idle)
  have free : o.held = false := by
    have empty : s.mch.stack = [] := Classical.not_not.mp fun stack => outside (.inr stack)
    rw [held, State.held, empty]
    rfl
  have begins : (!o.mch.phase.inMatch || o.held) = false := by rw [play, free]; rfl
  refine ⟨fun above => shows (by simp [State.actOn, begins, indexOf_above above]), fun i names => ?_⟩
  cases stands : s.elem i with
  | none =>
    have stands' := (elems i).trans stands
    exact shows (by simp [State.actOn, begins, indexOf_val names, stands'])
  | some r =>
    have stands' := (elems i).trans stands
    cases gate : r.part with
    | gate p =>
      dsimp only
      rw [gate]
      dsimp only
      by_cases holds : r.claim.holder = some k
      case neg => exact (if_pos holds).mpr (shows (by simp [State.actOn, begins, indexOf_val names, stands', gate, holds]))
      rw [if_neg (not_not.mpr holds)]
      cases fault : r.inFault with
      | true => exact shows (by simp [State.actOn, begins, indexOf_val names, stands', gate, holds, fault])
      | false =>
        rw [if_neg Bool.false_ne_true]
        refine ⟨fun unknown => shows (by simp [State.actOn, begins, indexOf_val names, stands', gate, holds, fault, unknown]),
          fun position known => ?_⟩
        have acts := State.actOn_gate (number := number) play free names stands' gate holds fault known target
        rw [State.gateAsk_congr (s := s) (by rw [opened]; simp) i] at acts
        have busy := gateBusy_iff known
        have reach := position.atTarget_iff target
        refine ⟨fun moving => shows (acts.trans (if_pos (busy.mpr moving))), fun still there => ?_, fun still away => ?_⟩
        · exact shows (acts.trans ((if_neg (mt busy.mp still)).trans (if_pos (reach.mpr there))))
        · rw [if_neg (mt busy.mp still), if_neg (mt reach.mp away)] at acts
          refine ⟨fun waits => shows (by rw [acts, State.gateAsk_busy waits]),
            fun free full => shows (by rw [acts, State.gateAsk_full free full]), fun free room => ?_⟩
          rw [State.gateAsk_taken free room] at acts
          rw [acts]
          have only := o.onlyChanges_sendGate i p target (.robot k number)
          have robots (j : Slot) : (o.sendGate i p target (.robot k number)).robot j
              = if j = k then { s.robot k with openRequest := some (OpenRequest.mk number .act (some element) false .wait none) } else s.robot j := by
            rw [State.robot_congr (only .roster (by decide)), opened, State.openNew, State.robot_modRobot]
            rfl
          refine ⟨State.gateSent_sendGate stands (by rw [opened]; simp) (by rw [opened]; simp) (by rw [opened]; simp) p target _,
            fun b other => ?_, ⟨fun j other => ?_, ?_, ?_⟩, ?_⟩
          · rw [opened]
            cases b <;> simp_all [State.sameBlock]
          · rw [robots, if_neg other]
          · rw [only .roster (by decide), opened]
            simp [State.openNew, State.modRobot, State.setRobot]
          · rw [only .roster (by decide), opened]
            simp [State.openNew, State.modRobot, State.setRobot]
          · rw [robots, if_pos rfl]
    | _ =>
      dsimp only
      rw [gate]
      exact shows (by simp [State.actOn, begins, indexOf_val names, stands', gate])

/-- Settles O44: the two requests that ask for a gate's motion. -/
theorem gateMotionIsAskedFor : Obligations.GateMotionIsAskedFor := by
  unfold Obligations.GateMotionIsAskedFor
  exact ⟨execSetGate_spec, execAct_spec⟩

end Sys2Proof.Machine

/-! Settles O45: DRIVE-CARRIAGE commands a carriage (R148, Table 7-11). -/
namespace Sys2Proof.Machine

theorem carriageCommandOf_above {b : Byte} (above : 2 < b.toNat) : carriageCommandOf b = none := by
  unfold carriageCommandOf
  split
  · omega
  · omega
  · omega
  · rfl

theorem directionOf_above {b : Byte} (above : 1 < b.toNat) : directionOf b = none := by
  unfold directionOf
  split
  · omega
  · omega
  · rfl

theorem directionOf_within {b : Byte} (within : b.toNat ≤ 1) : directionOf b = some (if b = 0 then .forward else .reverse) := by
  have codes : b = 0 ∨ b = 1 := by
    have : b.toNat = 0 ∨ b.toNat = 1 := by omega
    exact this.imp (fun zero => BitVec.eq_of_toNat_eq zero) fun one => BitVec.eq_of_toNat_eq one
  rcases codes with rfl | rfl <;> rfl

theorem carriageCommand_cases {b : Byte} (within : b.toNat ≤ 2) : b = 0 ∨ b = 1 ∨ b = 2 := by
  have : b.toNat = 0 ∨ b.toNat = 1 ∨ b.toNat = 2 := by omega
  exact this.imp (fun zero => BitVec.eq_of_toNat_eq zero)
    (Or.imp (fun one => BitVec.eq_of_toNat_eq one) fun two => BitVec.eq_of_toNat_eq two)

section
variable {s : State} {i : Index} {r : ElementRecord}

/-- The carriage is commanded: its record is replaced and its commanded speed is asked for. -/
def State.carriageDriven (s t : State) (tag : Byte) (i : Index) (r : ElementRecord) (q : CarriagePart) : Prop :=
  (s.elemsBut t i ∧ t.elem i = some { r with part := .carriage q }) ∧ t.ebc = (s.asksAll [.speed i q.commanded]).ebc ∧ t.speedAsked i q.commanded
    ∧ s.answers t [.elems, .ebc] 0x17 tag [] .ok (.carriage q.runState q.direction q.commanded)

/-- The carriage stands HALTED until the stack empties: its record is replaced and nothing is asked for. -/
def State.carriageHalted (s t : State) (tag : Byte) (i : Index) (r : ElementRecord) (q : CarriagePart) : Prop :=
  (s.elemsBut t i ∧ t.elem i = some { r with part := .carriage q })
    ∧ s.answers t [.elems] 0x17 tag [] .ok (.carriage q.runState q.direction q.commanded)

theorem State.onlyChanges_driveCarriage (s : State) (i : Index) (q : CarriagePart) :
    s.onlyChanges (s.driveCarriage i q) [.elems, .ebc] := fun b other => by
  cases b <;> simp_all [State.sameBlock]

theorem State.onlyChanges_setCarriage (s : State) (i : Index) (q : CarriagePart) :
    s.onlyChanges (s.setCarriage i q) [.elems] := fun b other => by
  cases b <;> simp_all [State.sameBlock, State.setCarriage]

theorem State.carriageDriven_of {a : Answered} (stands : s.elem i = some r) (tag : Byte) {q : CarriagePart}
    (owner : a = taken (s.restartSilence.driveCarriage i q) q.shown) : s.carriageDriven (a.send 0x17 tag) tag i r q := by
  have handled := (State.Handled.refl ((s.restartSilence_elem i).trans stands)).driveCarriage q
  have drives : s.driven (s.restartSilence.driveCarriage i q) [.speed i q.commanded] := State.driven_restartSilence ⟨handled.ebc, handled.now⟩
  have asked := (State.isAsked_speed _ i q.commanded).mpr (State.askCarriage_asked (s.restartSilence.setCarriage i q) i q.commanded)
  have only := s.restartSilence.onlyChanges_driveCarriage i q
  refine ⟨⟨fun j other => ?_, ?_⟩, ?_, ?_, State.answers_of owner _ _ (State.onlyChanges_mono only (by simp)) ?_⟩
  · rw [owner, Answered.send_elem]
    exact (handled.elemsBut j other).trans (s.restartSilence_elem j)
  · rw [owner, Answered.send_elem]
    exact handled.elem_self
  · rw [owner, Answered.send_ebc]
    exact drives.1
  · exact (State.isAsked_of_ebc (by rw [owner, Answered.send_ebc]; rfl) _).mpr asked
  · rw [handled.hlp]
    simp

theorem State.carriageHalted_of {a : Answered} (stands : s.elem i = some r) (tag : Byte) {q : CarriagePart}
    (owner : a = taken (s.restartSilence.setCarriage i q) q.shown) : s.carriageHalted (a.send 0x17 tag) tag i r q := by
  have handled := (State.Handled.refl ((s.restartSilence_elem i).trans stands)).setCarriage q
  have only := s.restartSilence.onlyChanges_setCarriage i q
  refine ⟨⟨fun j other => ?_, ?_⟩, State.answers_of owner _ _ (State.onlyChanges_mono only (by simp)) ?_⟩
  · rw [owner, Answered.send_elem]
    exact (handled.elemsBut j other).trans (s.restartSilence_elem j)
  · rw [owner, Answered.send_elem]
    exact handled.elem_self
  · rw [handled.hlp]
    simp

/-- A carriage set going runs in its zone, or stands HALTED while a hold stands. -/
theorem State.setGoing_spec {a : Answered} (stands : s.elem i = some r) (tag : Byte) {q : CarriagePart} {zone : Fin 8}
    (owner : a = s.restartSilence.setGoing i q zone) :
    if s.held = true then s.carriageHalted (a.send 0x17 tag) tag i r { q with runState := .halted, commanded := 0 }
    else s.carriageDriven (a.send 0x17 tag) tag i r (q.runIn zone) := by
  have held : s.restartSilence.held = s.held := by
    obtain ⟨elapsed, expired, restarted⟩ := s.restartSilence_timer
    rw [restarted]
    rfl
  rw [State.setGoing, held] at owner
  split
  · next holds =>
    rw [if_pos holds] at owner
    exact State.carriageHalted_of stands tag owner
  · next free =>
    rw [if_neg free] at owner
    exact State.carriageDriven_of stands tag owner

end

section
variable {s : State} {index command direction : Byte} {i : Index} {r : ElementRecord} {p : CarriagePart} {zone : Fin 8} {front rear encoder : Bool} {speed : Int}
variable (names : index.toNat = i.val) (stands : s.elem i = some r) (carriage : r.part = .carriage p)
include names stands carriage

/-- STOP needs neither a sound carriage nor a reading. -/
theorem driveCarriageOwner_stop (stop : carriageCommandOf command = some .stop) (direction : Byte) :
    driveCarriageOwner index command direction s = taken (s.driveCarriage i (p.stand .stopped)) (p.stand .stopped).shown := by
  simp [driveCarriageOwner, stop, indexOf_val names, stands, carriage]

section
variable (sound : r.inFault = false)
include sound

theorem driveCarriageOwner_run (run : carriageCommandOf command = some .run) (within : direction.toNat ≤ 1) (reading : r.reading = some (.carriage zone front rear encoder speed)) :
    driveCarriageOwner index command direction s
      = s.setGoing i { p with direction := if direction = 0 then .forward else .reverse, homing := false } zone := by
  simp [driveCarriageOwner, run, indexOf_val names, stands, carriage, sound, directionOf_within within, ElementRecord.carriageReading, reading]

theorem driveCarriageOwner_home (home : carriageCommandOf command = some .home) (direction : Byte) (reading : r.reading = some (.carriage zone front rear encoder speed)) :
    driveCarriageOwner index command direction s
      = if rear then taken (s.driveCarriage i (CarriagePart.stand { p with direction := .reverse } .parked))
          (CarriagePart.stand { p with direction := .reverse } .parked).shown
        else s.setGoing i { p with direction := .reverse, homing := true } zone := by
  simp [driveCarriageOwner, home, indexOf_val names, stands, carriage, sound, ElementRecord.carriageReading, reading]

end

/-- A motion is refused for a carriage in FAULT, and for one without a reading. -/
theorem driveCarriageOwner_refused {c : CarriageCommand} (coded : carriageCommandOf command = some c) (moves : c ≠ .stop)
    (sensible : ¬ (c = .run ∧ directionOf direction = none)) {st : Status}
    (refused : r.inFault = true ∧ st = .elementFault ∨ r.inFault = false ∧ r.carriageReading = none ∧ st = .notReady) :
    driveCarriageOwner index command direction s = refuse s st := by
  simp only [driveCarriageOwner, coded, indexOf_val names, stands, carriage]
  rw [if_neg sensible]
  rcases refused with ⟨fault, rfl⟩ | ⟨sound, unread, rfl⟩
  · cases c with
    | stop => exact absurd rfl moves
    | _ => simp [fault]
  · cases c with
    | stop => exact absurd rfl moves
    | _ => simp [sound, unread]

end

/-- Settles O45: the checks, then STOP, RUN and HOME. -/
theorem driveCarriageCommandsTheCarriage : Obligations.DriveCarriageCommandsTheCarriage := by
  unfold Obligations.DriveCarriageCommandsTheCarriage
  refine fun s tag index command direction accepted =>
    ⟨_, congrArg Host.Outcome.next (State.goodFrame_eq accepted 0x17 tag (driveCarriageOwner index command direction)), fun bad => ?_,
      fun i names within right => ?_⟩
  · refine State.refuses_of ?_ _ _
    unfold driveCarriageOwner
    rcases bad with above | above | ⟨rfl, above⟩
    · rw [indexOf_above above]
      cases carriageCommandOf command <;> rfl
    · rw [carriageCommandOf_above above]
    · have run : carriageCommandOf 0 = some .run := rfl
      cases indexOf index with
      | none => rw [run]
      | some i => rw [run, directionOf_above above] <;> rfl
  have known : ∃ c, carriageCommandOf command = some c ∧ ¬ (c = .run ∧ directionOf direction = none) := by
    rcases carriageCommand_cases within with rfl | rfl | rfl
    · exact ⟨.run, rfl, by simp [directionOf_within (right rfl)]⟩
    · exact ⟨.stop, rfl, nofun⟩
    · exact ⟨.home, rfl, nofun⟩
  obtain ⟨c, coded, sensible⟩ := known
  have refused {st : Status} (owner : driveCarriageOwner index command direction s.restartSilence = refuse s.restartSilence st) :=
    State.refuses_of owner 0x17 tag
  cases stands : s.elem i with
  | none =>
    have stands' := (s.restartSilence_elem i).trans stands
    exact refused (by simp [driveCarriageOwner, coded, indexOf_val names, stands', sensible])
  | some r =>
    have stands' := (s.restartSilence_elem i).trans stands
    cases part : r.part with
    | carriage p =>
      dsimp only
      rw [part]
      dsimp only
      have drives_of {q : CarriagePart} (owner : driveCarriageOwner index command direction s.restartSilence
          = taken (s.restartSilence.driveCarriage i q) q.shown) :
          s.carriageDriven ((driveCarriageOwner index command direction s.restartSilence).send 0x17 tag) tag i r q :=
        State.carriageDriven_of stands tag owner
      by_cases stop : command = 1
      · rw [if_pos stop]
        exact drives_of (driveCarriageOwner_stop names stands' part (by rw [stop]; rfl) direction)
      rw [if_neg stop]
      have moves : c ≠ .stop := by
        rintro rfl
        rcases carriageCommand_cases within with rfl | rfl | rfl
        · cases coded
        · exact stop rfl
        · cases coded
      cases fault : r.inFault with
      | true => exact refused (driveCarriageOwner_refused names stands' part coded moves sensible (.inl ⟨fault, rfl⟩))
      | false =>
        rw [if_neg Bool.false_ne_true]
        have unread (none_ : r.carriageReading = none) : s.refuses ((driveCarriageOwner index command direction s.restartSilence).send 0x17 tag)
            0x17 tag .notReady :=
          refused (driveCarriageOwner_refused names stands' part coded moves sensible (.inr ⟨fault, none_, rfl⟩))
        cases reading : r.reading with
        | none => exact unread (by simp [ElementRecord.carriageReading, reading])
        | some shown =>
          cases shown with
          | carriage zone front rear encoder speed =>
            dsimp only
            rw [← reading]
            rcases carriageCommand_cases within with rfl | rfl | rfl
            · have owner := driveCarriageOwner_run (command := 0) names stands' part fault rfl (right rfl) reading
              have heads : (if (0 : Byte) = 0 ∧ direction = 0 then Direction.forward else .reverse) = if direction = 0 then .forward else .reverse := by
                simp
              rw [if_neg (fun home => absurd home.1 (by decide)), heads]
              exact State.setGoing_spec stands tag owner
            · exact absurd rfl stop
            · have owner := driveCarriageOwner_home (command := 2) names stands' part fault rfl direction reading
              cases rear with
              | true =>
                rw [if_pos ⟨rfl, rfl⟩]
                exact drives_of owner
              | false =>
                rw [if_neg (fun home => Bool.false_ne_true home.2)]
                exact State.setGoing_spec stands tag owner
          | _ => exact unread (by simp [ElementRecord.carriageReading, reading])
    | _ =>
      dsimp only
      rw [part]
      exact refused (by simp [driveCarriageOwner, coded, indexOf_val names, stands', sensible, part])

end Sys2Proof.Machine

/-! Settles O2: what an empty queue makes of a state (assumptions 2, 13, 19, 20). -/
namespace Sys2Proof.Machine

/-! ## One slice of wall time -/

/-- A timer that runs out, written with `Option.any`. -/
theorem reached_eq (limit : Nat) (t : Option Nat) : reached limit t = t.any fun n => decide (limit ≤ n) := by
  cases t <;> rfl

theorem ElementRecord.tick_eq (r : ElementRecord) : r.tick = { r with part := match r.part with
    | .gate p => .gate { p with motion := match p.motion with
        | .travelling target origin elapsed => .travelling target origin (elapsed + 1)
        | motion => motion }
    | part => part } := by
  cases part : r.part with
  | gate p =>
    simp only [ElementRecord.tick, part]
    cases p.motion <;> rfl
  | _ =>
    rw [ElementRecord.tick, part]
    dsimp only
    rw [← part]

theorem ElementRecord.tick_pollPeriod (r : ElementRecord) : r.tick.pollPeriod = r.pollPeriod := by
  rw [ElementRecord.tick_eq]

theorem Ebc.dueEnd_eq (e : Ebc) : e.dueEnd = match e.inFlight with
    | some f => if f.entry.op = .stopAll then dueWhen (decide (4 ≤ f.elapsed)) .stopAllSent else dueWhen (decide (64 ≤ f.elapsed)) .replyTimeout
    | none => [] := by
  unfold Ebc.dueEnd
  cases e.inFlight with
  | none => rfl
  | some f =>
    have stop := f.entry.isStop_iff
    simp only [stop]
    rfl

section
variable (s : State)

theorem State.slice_onlyChanges (events : List Instr) :
    s.onlyChanges { s.slice with pending := events } [.hlp, .rcc, .elems, .ebc, .mch, .now, .pending] := fun b other => by
  cases b <;> simp_all [State.sameBlock, State.slice]

theorem Hlp.tick_eq (h : Hlp) : h.tick = { h with rxGap := if h.rx = [] then 0 else h.rxGap + 1
                                                  txBits := if h.out = [] then 0 else h.txBits + 2304 } := by
  simp only [Hlp.tick, List.isEmpty_iff, Config.linkBitsPerSlice]

theorem State.travelDue_eq (i : Index) : s.travelDue i = match s.gateAt i with
    | some ⟨_, limit, .travelling _ _ elapsed⟩ => decide (2000 * limit ≤ elapsed)
    | _ => false := by
  unfold State.travelDue
  cases s.gateAt i with
  | none => rfl
  | some p =>
    obtain ⟨position, limit, motion⟩ := p
    cases motion with
    | travelling target origin elapsed => exact decide_eq_decide.mpr (Nat.mul_comm limit 2000 ▸ Iff.rfl)
    | _ => rfl

theorem State.refreshDue_eq (i : Index) : s.refreshDue i
    = ((s.sched i).due.any (fun at_ => decide (at_ ≤ s.now)) && !(s.sched i).owed && !(s.sched i).pollDue) := by
  unfold State.refreshDue
  cases (s.sched i).due <;> rfl

/-- A queued refresh poll of class REFRESH that has waited its poll period when a slice has passed. -/
theorem State.overdue_slice (e : Entry) : s.slice.overdue e = match e.element, e.element.bind s.elem with
    | some i, some r =>
      if e.op = .poll .refresh ∧ e.cls = .refresh ∧ e.enteredAt + 20 * r.pollPeriod ≤ s.now + 1 then some (.refreshPollOverdue i) else none
    | _, _ => none := by
  unfold State.overdue
  cases named : e.element with
  | none => rfl
  | some i =>
    have elem : e.element.bind s.slice.elem = (s.elem i).map ElementRecord.tick := by
      rw [named]
      exact s.elem_slice i
    have mine : e.isFor i = true := by simp [Entry.isFor, named]
    dsimp only [Option.bind_some]
    unfold State.overdueFor State.waitedItsPeriod
    rw [elem, mine]
    cases s.elem i with
    | none => simp
    | some r =>
      have clock : s.slice.now = s.now + 1 := rfl
      simp only [Option.map_some, ElementRecord.tick_pollPeriod, clock, Config.slicesPerMs, Nat.mul_comm r.pollPeriod, Bool.true_and,
        Bool.and_eq_true, beq_iff_eq, decide_eq_true_eq, and_assoc]

/-- The host silence timer and the match run on through a slice. -/
theorem State.silenceRunning_slice : s.slice.silenceRunning = s.silenceRunning := rfl

end

theorem dueWhen_congr {a b : Bool} (same : a = true ↔ b = true) (i : Instr) : dueWhen a i = dueWhen b i :=
  congrArg (dueWhen · i) (Bool.eq_iff_iff.mpr same)

/-- The filter of FIELD_STOP a slice further, its count held at the limit. -/
theorem State.dueFilter_slice (s : State) : s.slice.mch.dueFilter =
    dueWhen (decide (s.slice.mch.rawHeld = 200 ∧ s.mch.raw = true ∧ s.mch.filtered = false)) .fieldStopAsserted
      ++ dueWhen (decide (s.slice.mch.rawHeld = 200 ∧ s.mch.raw = false ∧ s.mch.filtered = true)) .fieldStopReleased := by
  have within : s.slice.mch.rawHeld ≤ 200 := Nat.min_le_left _ _
  have full : 200 ≤ s.slice.mch.rawHeld ↔ s.slice.mch.rawHeld = 200 := ⟨fun more => Nat.le_antisymm within more, fun same => same.ge⟩
  have raw : s.slice.mch.raw = s.mch.raw := rfl
  have filtered : s.slice.mch.filtered = s.mch.filtered := rfl
  rw [Mch.dueFilter, raw, filtered]
  exact congrArg₂ (· ++ ·)
    (dueWhen_congr (by simp only [Config.filterSlices, Bool.and_eq_true, Bool.not_eq_true', decide_eq_true_eq, full, and_assoc]) _)
    (dueWhen_congr (by simp only [Config.filterSlices, Bool.and_eq_true, Bool.not_eq_true', decide_eq_true_eq, full, and_assoc]) _)

theorem State.sendDue_slice (s : State) : dueWhen s.slice.hlp.sendDue .outboundFrameSent = match s.hlp.out with
    | head :: _ => dueWhen (decide (1000 * head.bytes.length ≤ s.slice.hlp.txBits)) .outboundFrameSent
    | [] => [] := by
  have out : s.slice.hlp.out = s.hlp.out := rfl
  rw [Hlp.sendDue, out]
  cases s.hlp.out with
  | nil => rfl
  | cons head rest => exact dueWhen_congr (by rw [Nat.mul_comm 1000]; rfl) _

/-- The events that a slice makes due, with the limits written out. -/
theorem State.dueEvents_slice (s : State) : s.slice.dueEvents s.tenthDue =
    dueWhen (decide (20 * s.rcc.interval ≤ s.rcc.elapsed + 1)) .cycleStart
      ++ dueWhen (s.slice.ebc.quiet.any fun n => decide (64 ≤ n)) .busQuietTimeEnd
      ++ dueWhen (s.slice.ebc.turnaround.any fun n => decide (4 ≤ n)) .turnaroundExpiry
      ++ s.slice.ebc.dueEnd
      ++ dueWhen (decide (s.slice.mch.rawHeld = 200 ∧ s.mch.raw = true ∧ s.mch.filtered = false)) .fieldStopAsserted
      ++ dueWhen (decide (s.slice.mch.rawHeld = 200 ∧ s.mch.raw = false ∧ s.mch.filtered = true)) .fieldStopReleased
      ++ (indices.filter s.slice.travelDue).map .gateTravelLimit
      ++ dueWhen (decide (s.matchRuns = true ∧ 1999 ≤ s.mch.tenthTimer)) .matchTenth
      ++ dueWhen (decide (s.silenceRunning = true ∧ 20000 * s.mch.hostLimit ≤ s.slice.mch.silenceElapsed)) .hostSilenceExpiry
      ++ (indices.filter s.slice.refreshDue).map .refreshDue
      ++ s.ebc.queue.filterMap s.slice.overdue
      ++ dueWhen (decide (s.hlp.rx ≠ [] ∧ 100 < s.slice.hlp.rxGap)) .hostFrameGapTimeout
      ++ match s.hlp.out with
        | head :: _ => dueWhen (decide (1000 * head.bytes.length ≤ s.slice.hlp.txBits)) .outboundFrameSent
        | [] => [] := by
  have cycle : dueWhen (decide (s.slice.rcc.interval * Config.slicesPerMs ≤ s.slice.rcc.elapsed)) .cycleStart
      = dueWhen (decide (20 * s.rcc.interval ≤ s.rcc.elapsed + 1)) .cycleStart := dueWhen_congr (by rw [Nat.mul_comm 20]; rfl) _
  have tenth : dueWhen s.tenthDue .matchTenth = dueWhen (decide (s.matchRuns = true ∧ 1999 ≤ s.mch.tenthTimer)) .matchTenth :=
    dueWhen_congr (by simp only [State.tenthDue, Bool.and_eq_true, decide_eq_true_eq]; exact Iff.rfl) _
  have silence : dueWhen (s.slice.silenceRunning && decide (s.slice.mch.hostLimit * Config.secondSlices ≤ s.slice.mch.silenceElapsed)) .hostSilenceExpiry
      = dueWhen (decide (s.silenceRunning = true ∧ 20000 * s.mch.hostLimit ≤ s.slice.mch.silenceElapsed)) .hostSilenceExpiry := by
    have limit : s.slice.mch.hostLimit = s.mch.hostLimit := rfl
    exact dueWhen_congr (by rw [s.silenceRunning_slice, limit, Nat.mul_comm 20000]; simp only [Bool.and_eq_true, decide_eq_true_eq]; exact Iff.rfl) _
  have gap : dueWhen (!s.slice.hlp.rx.isEmpty && decide (Config.gapSlices < s.slice.hlp.rxGap)) .hostFrameGapTimeout
      = dueWhen (decide (s.hlp.rx ≠ [] ∧ 100 < s.slice.hlp.rxGap)) .hostFrameGapTimeout := by
    have rx : s.slice.hlp.rx = s.hlp.rx := rfl
    exact dueWhen_congr (by rw [rx]; simp only [Bool.and_eq_true, Bool.not_eq_true', List.isEmpty_eq_false_iff, decide_eq_true_eq]; exact Iff.rfl) _
  have queue : s.slice.ebc.queue = s.ebc.queue := rfl
  rw [State.dueEvents, cycle, reached_eq, reached_eq, State.dueFilter_slice, tenth, silence, gap, State.sendDue_slice, queue, ← List.append_assoc]
  rfl

/-- Settles O2: an event due at once, or one slice of wall time. -/
theorem emptyQueueLetsTimePass : Obligations.EmptyQueueLetsTimePass := by
  unfold Obligations.EmptyQueueLetsTimePass
  intro s none_
  have idles : step s = .next s.idle := by rw [step, none_]
  rw [idles]
  cases first : s.rcc.firstCycle with
  | true =>
    rw [if_pos rfl]
    have due : s.dueAtOnce = if s.ebc.free && !s.ebc.queue.isEmpty then [.cycleStart, .transactionSelect] else [.cycleStart] := by
      rw [State.dueAtOnce, first]
      cases s.ebc.free && !s.ebc.queue.isEmpty <;> rfl
    rw [State.idle, due]
    cases s.ebc.free && !s.ebc.queue.isEmpty <;> rfl
  | false =>
    rw [if_neg Bool.false_ne_true]
    cases selects : s.ebc.free && !s.ebc.queue.isEmpty with
    | true =>
      have due : s.dueAtOnce = [.transactionSelect] := by rw [State.dueAtOnce, first, selects]; rfl
      rw [if_pos rfl, State.idle, due]
      rfl
    | false =>
      have due : s.dueAtOnce = [] := by rw [State.dueAtOnce, first, selects]; rfl
      rw [if_neg Bool.false_ne_true, State.idle, due]
      refine ⟨_, rfl, s.slice_onlyChanges _, rfl, rfl, rfl, rfl, s.hlp.tick_eq, fun i => ?_, ?_⟩
      · exact (s.elem_slice i).trans (congrArg (Option.map · (s.elem i)) (funext ElementRecord.tick_eq))
      · refine s.dueEvents_slice.trans ?_
        rw [Ebc.dueEnd_eq, funext s.slice.travelDue_eq, funext s.slice.refreshDue_eq, funext s.overdue_slice] <;> rfl

end Sys2Proof.Machine

/-! Settles O21: the start of a radio cycle (R53 to R55, R69, R79). -/
namespace Sys2Proof.Machine

/-! ## A walk of the slots, by what stands after each -/

/-- What stands before a walk of the slots and goes on over each step stands behind the walk. -/
theorem State.eachSlot_prefix {Q : List Slot → State → Prop} {f : Slot → State → State} {s : State} (start : Q [] s)
    (step : ∀ done k rest t, slots = done ++ k :: rest → Q done t → Q (done ++ [k]) (f k t)) : Q slots (s.eachSlot f) := by
  have walk (rest : List Slot) : ∀ done t, slots = done ++ rest → Q done t → Q slots (rest.foldl (fun t k => f k t) t) := by
    induction rest with
    | nil =>
      intro done t all holds
      rw [all, List.append_nil]
      exact holds
    | cons k rest ih =>
      intro done t all holds
      exact ih (done ++ [k]) (f k t) (by rw [all, List.append_assoc]; rfl) (step done k rest t all holds)
  exact walk slots [] s rfl start

/-! ## Silence and drop of one robot (R54, R55) -/

/-- A robot record falls silent at a limit. -/
def RobotRecord.falls (r : RobotRecord) (limit : Nat) : Bool := r.state.isLinked && !r.silent && decide (limit ≤ r.unheard)

/-- A robot record is dropped at a limit. -/
def RobotRecord.lost (r : RobotRecord) (limit : Nat) : Bool := r.state.isLinked && decide (limit ≤ r.unheard)

theorem State.elems_of_elem {s t : State} (same : ∀ i, t.elem i = s.elem i) : t.elems = s.elems :=
  Vector.ext fun i within => same ⟨i, within⟩

section
variable (s : State) (k : Slot)

theorem State.checkSilence_eq : s.checkSilence k = if (s.robot k).falls s.roster.silenceLimit
    then (s.setRobot k { s.robot k with silent := true }).raiseRobot k (.silent (s.robot k).unheard) else s := by
  simp only [State.checkSilence, RobotRecord.falls, Bool.and_eq_true, Bool.not_eq_true', decide_eq_true_eq, and_assoc]
  rfl

theorem State.checkDrop_eq : s.checkDrop k = if (s.robot k).lost s.roster.dropLimit then s.dropRobot k else s := by
  simp only [State.checkDrop, RobotRecord.lost, Bool.and_eq_true, decide_eq_true_eq]

theorem State.checkSilence_spec : s.onlyChanges (s.checkSilence k) [.hlp, .roster] ∧ s.robotsBut (s.checkSilence k) k
    ∧ (s.checkSilence k).robot k = { s.robot k with silent := (s.robot k).silent || (s.robot k).falls s.roster.silenceLimit }
    ∧ (s.checkSilence k).hlp = s.hlp.raiseAll (if (s.robot k).falls s.roster.silenceLimit then [.robot k (.silent (s.robot k).unheard)] else []) := by
  rw [State.checkSilence_eq]
  cases (s.robot k).falls s.roster.silenceLimit with
  | true =>
    simp only [if_true, Bool.or_true]
    exact ⟨State.onlyChanges_notedRobot s k _ _, State.robotsBut_setRobot s k _, State.robot_setRobot_self s k _, rfl⟩
  | false =>
    rw [Bool.or_false]
    exact ⟨fun b _ => by cases b <;> rfl, ⟨fun _ _ => rfl, rfl, rfl⟩, rfl, rfl⟩

theorem State.onlyChanges_dropRobot : s.onlyChanges (s.dropRobot k) [.hlp, .roster, .elems, .ebc] := fun b other => by
  by_cases active : (s.robot k).state = .active
  · rw [State.dropRobot_active active]
    cases b <;> simp_all [State.sameBlock]
  · rw [State.dropRobot_other active]
    cases b <;> simp_all [State.sameBlock]

/-- Whatever the claims, a drop changes the robot's own record alone of the roster. -/
theorem State.dropRobot_robots : s.robotsBut (s.dropRobot k) k ∧ (s.dropRobot k).robot k = (s.robot k).dropped := by
  by_cases active : (s.robot k).state = .active
  · rw [State.dropRobot_active active]
    have roster : (s.vacate k .drop).roster = s.roster := by simp
    have kept : s.robotsBut (s.vacate k .drop) k := ⟨fun j _ => State.robot_congr roster j, by rw [roster], by rw [roster]⟩
    exact ⟨State.robotsBut_trans kept (State.robotsBut_setRobot _ k _), State.robot_setRobot_self _ k _⟩
  · rw [State.dropRobot_other active]
    exact ⟨State.robotsBut_setRobot s k _, State.robot_setRobot_self s k _⟩

theorem State.checkDrop_robots : s.onlyChanges (s.checkDrop k) [.hlp, .roster, .elems, .ebc] ∧ s.robotsBut (s.checkDrop k) k
    ∧ (s.checkDrop k).robot k = if (s.robot k).lost s.roster.dropLimit then (s.robot k).dropped else s.robot k := by
  rw [State.checkDrop_eq]
  split
  · exact ⟨s.onlyChanges_dropRobot k, s.dropRobot_robots k⟩
  · exact ⟨fun b _ => by cases b <;> rfl, ⟨fun _ _ => rfl, rfl, rfl⟩, rfl⟩

/-- The slots that a drop of the robot vacates: its own, when it is ACTIVE. -/
def State.vacated : List Slot := if (s.robot k).lost s.roster.dropLimit && (s.robot k).state == .active then [k] else []

theorem State.elems_withoutRobots_nil : (s.withoutRobots []).elems = s.elems := by
  have same : (fun r : Option ElementRecord => r.map (·.withoutRobots [])) = id := funext fun r => by cases r <;> rfl
  rw [State.withoutRobots, same]
  exact Vector.map_id _

theorem State.elem_withoutRobots (ks : List Slot) (i : Index) : (s.withoutRobots ks).elem i = (s.elem i).map (·.withoutRobots ks) := by
  simp [State.elem, State.withoutRobots]

/-- With sound claims the drop takes the robot off its elements, drives the lamps that this changes, and is noticed. -/
theorem State.checkDrop_claims (claims : s.claimsSound) : (s.checkDrop k).claimsSound
    ∧ (∀ i, (s.checkDrop k).elem i = (s.elem i).map (·.withoutRobots (s.vacated k)))
    ∧ (s.checkDrop k).ebc = (s.asksLamps ((s.vacated k).flatMap fun k => s.lampChanges (s.withoutRobots [k]))).ebc
    ∧ (s.checkDrop k).hlp = s.hlp.raiseAll (((s.vacated k).flatMap fun k => s.vacateNotices k .drop)
        ++ if (s.robot k).lost s.roster.dropLimit then [.robot k (.dropped (s.robot k).state)] else []) := by
  have kept {t : State} (elems : t.elems = s.elems) (bus : t.ebc = s.ebc) : t.claimsSound ∧ (∀ i, t.elem i = (s.elem i).map (·.withoutRobots []))
      ∧ t.ebc = (s.asksLamps []).ebc :=
    ⟨State.claimsSound_of_elems claims elems, fun i => (State.elem_congr elems i).trans ((State.elem_congr s.elems_withoutRobots_nil i).symm.trans (s.elem_withoutRobots [] i)), bus⟩
  rw [State.checkDrop_eq]
  unfold State.vacated
  cases lost : (s.robot k).lost s.roster.dropLimit with
  | false =>
    obtain ⟨sound, elem, ebc⟩ := kept (t := s) rfl rfl
    exact ⟨sound, elem, ebc, rfl⟩
  | true =>
    by_cases active : (s.robot k).state = .active
    · obtain ⟨⟨_, _, elem, ebc⟩, _, hlp⟩ := State.vacate_noted k .drop claims (s.robot k).dropped (.dropped .active)
      rw [if_pos rfl, State.dropRobot_active active]
      have only : ((true && (s.robot k).state == .active) = true) := by rw [active]; rfl
      rw [if_pos only, List.flatMap_singleton, List.flatMap_singleton, active]
      have elems : (((s.vacate k .drop).setRobot k (s.robot k).dropped).raiseRobot k (.dropped .active)).elems = (s.withoutRobots [k]).elems :=
        State.elems_of_elem fun i => (elem i).trans (State.elem_withoutRobots s [k] i).symm
      have sound : (s.vacate k .drop).claimsSound := (State.vacate_evolves (State.Evolves.refl s false false) k .drop).claims claims
      refine ⟨State.claimsSound_of_elems sound (by simp), elem, ?_, hlp⟩
      rw [ebc, State.lampChanges_congr (s := s) rfl elems]
    · obtain ⟨sound, elem, ebc⟩ := kept (t := (s.setRobot k (s.robot k).dropped).raiseRobot k (.dropped (s.robot k).state)) rfl rfl
      have only : ¬ (true && (s.robot k).state == .active) = true := by simpa using active
      rw [if_pos rfl, State.dropRobot_other active, if_neg only]
      exact ⟨sound, elem, ebc, rfl⟩

end

theorem State.asksLamps_append (s : State) (first second : List (Index × Bool)) :
    s.asksLamps (first ++ second) = (s.asksLamps first).asksLamps second := List.foldl_append ..

theorem State.asksLamps_now (s : State) (asks : List (Index × Bool)) : (s.asksLamps asks).now = s.now := by
  rw [State.asksLamps_eq, State.asksAll_now]

/-! ## The roster at a cycle start (R53 to R55) -/

/-- A robot record with one more cycle unheard (R53). -/
def RobotRecord.counted (r : RobotRecord) : RobotRecord := if r.state.isLinked then { r with unheard := min 255 (r.unheard + 1) } else r

theorem State.onlyChanges_countCycle (s : State) : s.onlyChanges s.countCycle [.roster] := fun b other => by
  obtain ⟨hlp, rcc, elems, ebc, mch, tu, now_, pending⟩ := s.countCycle_frame
  cases b with
  | roster => exact absurd List.mem_cons_self other
  | hlp => exact hlp
  | rcc => exact rcc
  | elems => exact elems
  | ebc => exact ebc
  | mch => exact mch
  | tu => exact tu
  | now => exact now_
  | pending => exact pending

theorem State.countCycle_robots (s : State) : (∀ k, s.countCycle.robot k = (s.robot k).counted)
    ∧ s.countCycle.roster = { s.roster with robots := s.countCycle.roster.robots } := by
  unfold State.countCycle
  exact State.eachSlot_robots (g := RobotRecord.counted) (fun k t j => t.robot_modRobot_when k j _) (fun k t => t.roster_modRobot_when k _) s
    fun k t => t.hlp_modRobot_when k _

section
variable (s : State)

/-- The count of cycles unheard that a cycle start brings (R53). -/
def State.heardAfter (k : Slot) : Nat := min 255 ((s.robot k).unheard + 1)

/-- A cycle start drops the robot (R55). -/
def State.drops (k : Slot) : Bool := (s.robot k).state.isLinked && decide (s.roster.dropLimit ≤ s.heardAfter k)

/-- The robots of a list that a cycle start vacates. -/
def State.gone (l : List Slot) : List Slot := l.filter fun k => s.drops k && (s.robot k).state == .active

/-- The state in which a robot's turn to be dropped comes. -/
def State.beforeDrop (k : Slot) : State := s.withoutRobots ((s.gone slots).filter (· < k))

/-- The lamp drives of the drops of a list. -/
def State.dropLamps (l : List Slot) : List (Index × Bool) :=
  (s.gone l).flatMap fun k => (s.beforeDrop k).lampChanges ((s.beforeDrop k).withoutRobots [k])

/-- The notices of a robot at a cycle start. -/
def State.cycleNotices (k : Slot) : List Notice :=
  (if (s.robot k).state.isLinked = true ∧ (s.robot k).silent = false ∧ s.roster.silenceLimit ≤ s.heardAfter k then
    [.robot k (.silent (s.heardAfter k))] else [])
  ++ (if k ∈ s.gone slots then (s.beforeDrop k).vacateNotices k .drop else [])
  ++ if s.drops k then [.robot k (.dropped (s.robot k).state)] else []

/-- A robot's record after a cycle start. -/
def State.cycledRobot (k : Slot) : RobotRecord :=
  if (s.robot k).state.isLinked then
    if s.roster.dropLimit ≤ s.heardAfter k then (s.robot k).dropped
    else { s.robot k with unheard := s.heardAfter k, silent := (s.robot k).silent || decide (s.roster.silenceLimit ≤ s.heardAfter k) }
  else s.robot k

theorem State.gone_append (done rest : List Slot) : s.gone (done ++ rest) = s.gone done ++ s.gone rest := List.filter_append ..

/-- When a robot's turn comes, the drops of the slots before it are done. -/
theorem State.gone_before {done rest : List Slot} {k : Slot} (all : slots = done ++ k :: rest) :
    (s.gone slots).filter (· < k) = s.gone done := by
  have sorted : (done ++ k :: rest).Pairwise (· < ·) := all ▸ (List.sortedLT_finRange 24).pairwise
  obtain ⟨_, ahead, apart⟩ := List.pairwise_append.mp sorted
  have lower (j : Slot) (here : j ∈ s.gone done) : decide (j < k) = true :=
    decide_eq_true (apart j (List.mem_of_mem_filter here) k List.mem_cons_self)
  have upper (j : Slot) (here : j ∈ s.gone (k :: rest)) : ¬ decide (j < k) = true := by
    rcases List.mem_cons.mp (List.mem_of_mem_filter here) with rfl | later
    · simp
    · simpa using ((List.pairwise_cons.mp ahead).1 j later).le
  rw [all, State.gone_append, List.filter_append, List.filter_eq_self.mpr lower, List.filter_eq_nil_iff.mpr upper, List.append_nil]

theorem State.gone_singleton (k : Slot) : s.gone [k] = if s.drops k && (s.robot k).state == .active then [k] else [] := by
  simp only [State.gone, List.filter_cons, List.filter_nil]

theorem State.dropLamps_append (done rest : List Slot) : s.dropLamps (done ++ rest) = s.dropLamps done ++ s.dropLamps rest := by
  rw [State.dropLamps, State.gone_append, List.flatMap_append]
  rfl

theorem State.mem_gone (k : Slot) : k ∈ s.gone slots ↔ s.drops k = true ∧ (s.robot k).state = .active := by
  simp [State.gone, slots]

end

/-- `t` is what a cycle start has made of `s` when the turns of these slots are over. -/
structure State.Cycled (s : State) (done : List Slot) (t : State) : Prop where
  only : (s.setRcc s.rcc.nextCycle).onlyChanges t [.hlp, .roster, .elems, .ebc]
  silenceLimit : t.roster.silenceLimit = s.roster.silenceLimit
  dropLimit : t.roster.dropLimit = s.roster.dropLimit
  robots : ∀ j, t.robot j = if j ∈ done then s.cycledRobot j else (s.robot j).counted
  claims : s.claimsSound → t.claimsSound ∧ (∀ i, t.elem i = (s.elem i).map (·.withoutRobots (s.gone done)))
    ∧ t.ebc = (s.asksLamps (s.dropLamps done)).ebc ∧ t.hlp = s.hlp.raiseAll (done.flatMap s.cycleNotices)

theorem State.cycled_start (s : State) : s.Cycled [] (s.setRcc s.rcc.nextCycle).countCycle := by
  obtain ⟨robots, roster⟩ := (s.setRcc s.rcc.nextCycle).countCycle_robots
  have only := (s.setRcc s.rcc.nextCycle).onlyChanges_countCycle
  have elem (i : Index) : (s.setRcc s.rcc.nextCycle).countCycle.elem i = s.elem i := State.elem_congr (only .elems (by decide)) i
  refine ⟨State.onlyChanges_mono only (by simp), by rw [roster]; rfl, by rw [roster]; rfl, fun j => ?_, fun claims => ?_⟩
  · rw [if_neg List.not_mem_nil]
    exact robots j
  · refine ⟨State.claimsSound_of_elems claims (only .elems (by decide)), fun i => ?_, only .ebc (by decide), only .hlp (by decide)⟩
    exact (elem i).trans ((State.elem_congr s.elems_withoutRobots_nil i).symm.trans (s.elem_withoutRobots [] i))

/-! ### The turn of one robot -/

theorem RobotRecord.counted_state (r : RobotRecord) : r.counted.state = r.state := by
  unfold RobotRecord.counted
  split <;> rfl

theorem RobotRecord.counted_silent (r : RobotRecord) : r.counted.silent = r.silent := by
  unfold RobotRecord.counted
  split <;> rfl

theorem RobotRecord.counted_unheard {r : RobotRecord} (linked : r.state.isLinked = true) : r.counted.unheard = min 255 (r.unheard + 1) := by
  rw [RobotRecord.counted, if_pos linked]

section
variable (s : State) (k : Slot)

theorem State.counted_lost : (s.robot k).counted.lost s.roster.dropLimit = s.drops k := by
  unfold RobotRecord.lost State.drops
  rw [RobotRecord.counted_state]
  cases linked : (s.robot k).state.isLinked with
  | true => rw [RobotRecord.counted_unheard linked]; rfl
  | false => rfl

theorem State.counted_falls : (s.robot k).counted.falls s.roster.silenceLimit = true
    ↔ (s.robot k).state.isLinked = true ∧ (s.robot k).silent = false ∧ s.roster.silenceLimit ≤ s.heardAfter k := by
  unfold RobotRecord.falls
  rw [RobotRecord.counted_state, RobotRecord.counted_silent]
  cases linked : (s.robot k).state.isLinked with
  | true =>
    rw [RobotRecord.counted_unheard linked]
    simp only [Bool.true_and, Bool.and_eq_true, Bool.not_eq_true', decide_eq_true_eq, true_and]
    rfl
  | false => simp

/-- The record that silence and drop make of a counted one. -/
theorem State.cycledRobot_eq : (if s.drops k then (s.robot k).counted.dropped
    else { (s.robot k).counted with silent := (s.robot k).counted.silent || (s.robot k).counted.falls s.roster.silenceLimit }) = s.cycledRobot k := by
  unfold State.cycledRobot State.drops RobotRecord.counted RobotRecord.falls
  cases linked : (s.robot k).state.isLinked with
  | false => simp [linked]
  | true =>
    have count : min 255 ((s.robot k).unheard + 1) = s.heardAfter k := rfl
    simp only [if_true, Bool.true_and, count]
    by_cases near : s.roster.dropLimit ≤ s.heardAfter k
    · rw [if_pos near, if_pos (decide_eq_true near)]
      rfl
    · rw [if_neg near, if_neg (by simpa using near)]
      cases (s.robot k).silent <;> simp [linked]

end

section
variable {s t : State} {done rest : List Slot} {k : Slot}

/-- The turn of a robot at a cycle start. -/
theorem State.Cycled.turn (h : s.Cycled done t) (all : slots = done ++ k :: rest) : s.Cycled (done ++ [k]) ((t.checkSilence k).checkDrop k) := by
  have fresh : k ∉ done := by
    have once : (done ++ k :: rest).Nodup := all ▸ List.nodup_finRange 24
    exact fun here => (List.nodup_append.mp once).2.2 k here k List.mem_cons_self rfl
  have record : t.robot k = (s.robot k).counted := (h.robots k).trans (if_neg fresh)
  obtain ⟨only, ⟨others, silence, drop⟩, own, noted⟩ := t.checkSilence_spec k
  obtain ⟨v, mute⟩ : ∃ v, v = t.checkSilence k := ⟨_, rfl⟩
  rw [← mute] at only others silence drop own noted ⊢
  rw [record, h.silenceLimit] at own noted
  obtain ⟨only', ⟨others', silence', drop'⟩, own'⟩ := v.checkDrop_robots k
  have limit : v.roster.dropLimit = s.roster.dropLimit := drop.trans h.dropLimit
  have lost : (v.robot k).lost v.roster.dropLimit = s.drops k := by
    rw [own, limit]
    exact s.counted_lost k
  have state : (v.robot k).state = (s.robot k).state := by
    rw [own]
    exact (s.robot k).counted_state
  refine ⟨?_, silence'.trans (silence.trans h.silenceLimit), drop'.trans limit, fun j => ?_, fun claims => ?_⟩
  · exact State.onlyChanges_trans (State.onlyChanges_trans h.only only (by simp)) only' (by simp)
  · by_cases mine : j = k
    · subst mine
      rw [own', lost, own]
      exact (s.cycledRobot_eq j).trans (if_pos (by simp)).symm
    · rw [others' j mine, others j mine, h.robots]
      simp [mine]
  · obtain ⟨sound, elem, ebc, hlp⟩ := h.claims claims
    have elems : v.elems = t.elems := only .elems (by simp)
    obtain ⟨sound', elem', ebc', hlp'⟩ := v.checkDrop_claims k (State.claimsSound_of_elems sound elems)
    have taken : v.vacated k = s.gone [k] := by rw [State.vacated, lost, state, State.gone_singleton]
    have before : v.elems = (s.beforeDrop k).elems := State.elems_of_elem fun i => by
      rw [State.elem_congr elems, elem, State.beforeDrop, State.elem_withoutRobots, s.gone_before all]
    have alone (j : Slot) (here : j ∈ s.gone [k]) : j = k := List.mem_singleton.mp (List.mem_of_mem_filter here)
    have lamps : ((s.gone [k]).flatMap fun j => v.lampChanges (v.withoutRobots [j])) = s.dropLamps [k] :=
      List.flatMap_congr fun j here => by
        rw [alone j here]
        exact State.lampChanges_congr before (by simp only [State.withoutRobots, before])
    have vacates : ((s.gone [k]).flatMap fun j => v.vacateNotices j .drop) = if k ∈ s.gone slots then (s.beforeDrop k).vacateNotices k .drop else [] := by
      rw [State.gone_singleton]
      by_cases leaves : k ∈ s.gone slots
      · obtain ⟨drops, active⟩ := (s.mem_gone k).mp leaves
        rw [if_pos leaves, if_pos (by simp [drops, active]), List.flatMap_singleton, State.vacateNotices_congr before]
      · have stays : ¬ (s.drops k && (s.robot k).state == .active) = true := by simpa using mt (s.mem_gone k).mpr leaves
        rw [if_neg leaves, if_neg stays]
        rfl
    have mutes : (if (s.robot k).counted.falls s.roster.silenceLimit then [Notice.robot k (.silent (s.robot k).counted.unheard)] else [])
        = if (s.robot k).state.isLinked = true ∧ (s.robot k).silent = false ∧ s.roster.silenceLimit ≤ s.heardAfter k then
          [Notice.robot k (.silent (s.heardAfter k))] else [] := by
      by_cases falls : (s.robot k).counted.falls s.roster.silenceLimit = true
      · have why := (s.counted_falls k).mp falls
        rw [if_pos falls, if_pos why, RobotRecord.counted_unheard why.1]
        rfl
      · rw [if_neg falls, if_neg (mt (s.counted_falls k).mpr falls)]
    rw [taken] at elem' ebc' hlp'
    refine ⟨sound', fun i => ?_, ?_, ?_⟩
    · rw [elem', State.elem_congr elems, elem, s.gone_append, Option.map_map]
      congr 1
      funext r
      exact (List.foldl_append ..).symm
    · rw [ebc', lamps, s.dropLamps_append, State.asksLamps_append]
      exact State.ebc_asksLamps_congr ((only .ebc (by simp)).trans ebc) (by rw [State.asksLamps_now]; exact (only .now (by simp)).trans (h.only .now (by simp))) _
    · rw [hlp', noted, hlp, vacates, lost, state, mutes, List.flatMap_append, List.flatMap_singleton, State.cycleNotices]
      simp only [Hlp.raiseAll_append]

end

/-- The roster's part of a cycle start, the controller's own done before (R53 to R55). -/
theorem State.rosterCycle_cycled (s : State) : s.Cycled slots (s.setRcc s.rcc.nextCycle).rosterCycle :=
  State.eachSlot_prefix s.cycled_start fun _ _ _ _ all h => h.turn all

theorem windowsOf_eq (interval : Nat) : windowsOf interval = ⟨.beacon, 0, 50⟩ :: (slots.map fun k => ⟨.reply k, 50 + 25 * k.val, 75 + 25 * k.val⟩)
    ++ [⟨.join, 650, 700⟩, ⟨.quiet, 700, 20 * interval⟩] := by
  rw [Nat.mul_comm]
  rfl

/-- Settles O21: the roster's part, then the beacon of the state that it leaves. -/
theorem cycleStartCountsAndSendsTheBeacon : Obligations.CycleStartCountsAndSendsTheBeacon := by
  unfold Obligations.CycleStartCountsAndSendsTheBeacon
  intro s
  have cycled := s.rosterCycle_cycled
  obtain ⟨u, rosters⟩ : ∃ u, u = (s.setRcc s.rcc.nextCycle).rosterCycle := ⟨_, rfl⟩
  have runs : exec .cycleStart s = .next (u.sendBeacon s.rcc.joinAnswer) := by rw [rosters]; rfl
  rw [← rosters] at cycled
  have rcc : u.rcc = s.rcc.nextCycle := cycled.only .rcc (by decide)
  have mch : u.mch = s.mch := cycled.only .mch (by decide)
  refine ⟨_, u.buildBeacon s.rcc.joinAnswer, runs, fun b other => ?_, ?_, ?_, cycled.silenceLimit, cycled.dropLimit, fun k => ?_, fun claims => ?_⟩
  · have only := cycled.only b
    cases b <;> simp_all [State.sameBlock, State.sendBeacon]
  · have windows : windowsOf s.rcc.nextCycle.interval = _ := windowsOf_eq _
    simp only [State.sendBeacon, State.setRcc_rcc, rcc, windows]
    rfl
  · simp only [State.buildBeacon, State.held, mch]
    rfl
  · exact (cycled.robots k).trans (if_pos (List.mem_finRange k))
  · obtain ⟨_, elem, ebc, hlp⟩ := cycled.claims claims
    exact ⟨elem, ebc, hlp⟩

end Sys2Proof.Machine
